-- ==== Sys2Proof/Word.lean ====
section
/-! DEFINITION. The word types of the block and the plainest arithmetic on them: bit fields of a number,
saturation, and signed readings. Register slots are 32 bits (R3), grant words 18 bits, parse words 36 bits. -/

namespace Sys2Proof

/-- A register slot (R3). -/
abbrev Word := BitVec 32
/-- A data byte. -/
abbrev Byte := BitVec 8
/-- A word of the grant engines, and of every 18-bit memory (R4, R186). -/
abbrev GWord := BitVec 18
/-- A word of the parse cores (R269). -/
abbrev PWord := BitVec 36

/-- Bits [hi:lo] of a number. -/
def bits (n hi lo : Nat) : Nat := n / 2 ^ lo % 2 ^ (hi + 1 - lo)

/-- Bit i of a number, as a Bool. -/
def bit (n i : Nat) : Bool := n / 2 ^ i % 2 == 1

/-- The number of a Bool. -/
def b2n (b : Bool) : Nat := if b then 1 else 0

/-- n, saturating at top. -/
def sat (top n : Nat) : Nat := if n ≤ top then n else top

/-- The least whole number at or above n ÷ d. -/
def ceilDiv (n d : Nat) : Nat := (n + d - 1) / d

/-- A w-bit number read as two's complement. -/
def signed (w n : Nat) : Int := if 2 ^ (w - 1) ≤ n % 2 ^ w then (n % 2 ^ w : Nat) - (2 ^ w : Int) else (n % 2 ^ w : Nat)

/-- An integer as a w-bit number, wrapping. -/
def wrapTo (w : Nat) (i : Int) : Nat := (i % (2 ^ w : Int)).toNat

/-- An integer as a w-bit two's complement number, saturating. -/
def satSigned (w : Nat) (i : Int) : Nat :=
  if i < -(2 ^ (w - 1) : Int) then 2 ^ (w - 1)
  else if (2 ^ (w - 1) : Int) ≤ i then 2 ^ (w - 1) - 1 else wrapTo w i

/-- i rounded to the nearest whole multiple of d, in units of d (halves away from zero). -/
def roundDiv (i : Int) (d : Nat) : Int :=
  if 0 ≤ i then (i + (d / 2 : Nat)) / (d : Int) else -((-i + (d / 2 : Nat)) / (d : Int))

end Sys2Proof
end

