-- ==== Sys2Proof/Syntax.lean ====
section
/-! DEFINITION. The commands of the block: one constructor of Instr per row of spec/opcode_table.json, with its
operands. A register command carries its requester and the fields the spec gives the written word; a device step
carries what only the world outside can say (what was received, which element, which reading). -/

namespace Sys2Proof

/-- A tree port TP00-TP63. -/
abbrev Port := Fin 64
/-- A terminal context (R119). -/
abbrev Term := Fin 16384
/-- A serial lane L (R428). -/
abbrev LaneNo := Fin 176
/-- A grant engine GE00-GE16. -/
abbrev Eng := Fin 17
/-- A field of four bits: a grant register number or a short immediate (R188). -/
abbrev G4 := BitVec 4
/-- A field of five bits: a parse register number (R268). -/
abbrev P5 := BitVec 5

/-- Who sends a register command: the host's physical function, the guide cores, virtual function i + 1,
a block of the device, or the cairn engine of a standby (R379, R450, R471). -/
inductive Requester where
  | pf | guide | vf (i : Fin 64) | block | cairn
deriving DecidableEq, Repr

/-- The targets of GLB_STATE_REQ that are never granted (R15). -/
inductive BadTarget where
  | boot | reserved6 | reserved7
deriving DecidableEq, Repr

/-- The causes of a move to SAFE, as PW_RESET_CAUSE codes them. -/
inductive SafeCause where
  | heartbeat | guideHalt | thermal | request | other
deriving DecidableEq, Repr

/-- The staged objects (R27). -/
inductive GenObj where
  | parse | rules | grant | gates | shapers
deriving DecidableEq, Repr

/-- One item of an upstream allocation, as the framing sublayer reads it (R106 to R109). -/
inductive UpItem where
  | dbru (crcOk : Bool) (occ : BitVec 24)
  | xgem (hecOk fits : Bool) (portId : BitVec 16) (keyIndex : BitVec 2) (lastFrag : Bool) (at_ : Nat) (bytes : List Byte)
  | trailer (ok : Bool)
deriving DecidableEq, Repr

/-- A position of the delimiter window at which a burst may begin (R99 to R101): where the burst's first data bit would lie, in 1/16
bit on the time line of its upstream frame; the bits that differ from the delimiter; whether the FS header there passes its HEC. -/
structure DelimTry where
  pos : Int
  differ : Nat
  hecOk : Bool
deriving DecidableEq, Repr

/-- What the decoder array makes of one codeword (R102 to R105): corrected bits, the bits by which the last codeword of an allocation is
shortened, the iteration after which its syndrome is zero, the iterations done at the 2 µs deadline where it strikes first, and what it
carries. -/
structure Codeword where
  corrected : Nat
  shortened : Nat
  zeroAt : Option Nat
  deadlineAt : Option Nat
  endOfAlloc : Bool
  items : List UpItem
deriving DecidableEq, Repr

/-- The receiver's values that a preset holds (R91): CTLE and five DFE taps, threshold, phase, frequency. -/
structure RxValues where
  taps : List Nat
  threshold : Nat
  phase : Nat
  freq : Int
deriving DecidableEq, Repr

/-- A defect of the UB block (R112). -/
inductive UbDefect where
  | tree (p : Port) (d : Fin 4)
  | term (t : Term) (d : Fin 5)
deriving DecidableEq, Repr

/-- A packet at its source (R261, R262): its bytes, and for sources 0-63 its terminal and XGEM port context,
for source 98 its ring. -/
structure Arrival where
  bytes : List Byte
  term : Term
  xgem : BitVec 17
  ring : BitVec 12
  deriving DecidableEq, Repr

/-- A node of the scheduler (R232). -/
inductive QNode where
  | queue (i : BitVec 16) | service (i : BitVec 15) | terminal (i : BitVec 15) | tenant (i : BitVec 12)
deriving DecidableEq, Repr

/-- What the scrubber reads (R341): a row of an on-chip macro of a block, a row of a macro in an engine's or a core's own state, or a
deep line. Macros 0 to 2047 of the BM block hold the packet cells; the spec numbers no others. (DEDUCED, safe: log entry 20.) -/
inductive ScrubTarget where
  | row (block : Fin 15) (macroNo : BitVec 11) (row : BitVec 10)
  | engineRow (e : Eng) (macroNo : BitVec 11) (row : BitVec 10)
  | coreRow (c : BitVec 7) (macroNo : BitVec 11) (row : BitVec 10)
  | line (sub : Fin 16) (line : BitVec 32)
deriving DecidableEq, Repr

/-- What the decoder finds wrong in what a lookup reads (R298, R339): in the on-chip row of its cache line or ternary entry, and in each
of the eight lines of its two buckets, by its symbols in error. -/
structure LookRead where
  macroNo : BitVec 11
  row : BitVec 10
  errs : List Nat
  lines : List (List Nat)
deriving DecidableEq, Repr

/-- What the decoder finds wrong in the data-store row that a grant program loads from (R336, R339): the row, and its symbols in
error. -/
structure RowRead where
  macroNo : BitVec 11
  row : BitVec 10
  errs : List Nat
deriving DecidableEq, Repr

/-- A lane's loss (R437). -/
inductive LossCause where
  | cdr | group | alignment
deriving DecidableEq, Repr

/-- The straps sampled at a reset (R527). -/
structure Straps where
  pairId : BitVec 4
  anchorSel : Bool
  bootSrc : Bool
deriving DecidableEq, Repr

/-- A hello message (R401). -/
structure HelloMsg where
  pairId : BitVec 8
  cascId : BitVec 2
  cascEn : Bool
  level : BitVec 2
  role : BitVec 2
  accept : BitVec 14
  anchorSel : Bool
deriving DecidableEq, Repr

/-- A Flow record of a template (R416, R427): destination address, UDP port, whether it is gated video or audio, and the gate list it
names with the list's contents. -/
structure Flow where
  addr : Nat
  udp : Nat
  gated : Bool
  list : Nat
  cycle : Nat
  gap : Nat
  entries : List (Nat × Nat)
deriving DecidableEq, Repr

/-- A ternary entry as a CL write gives it (R299): table, index, key and mask registers, action words. -/
structure TernRow where
  tbl : Nat
  index : Nat
  key : List Nat
  mask : List Nat
  act1 : Nat
  act2 : Nat
deriving DecidableEq, Repr, Inhabited

/-- One structure of a map with its hint (R84, R201): positions in quanta; the Alloc-ID as it was sealed, and where it starts and how
long it is in units of the port's standard; freed tells that its allocation context has been freed since (R181). -/
structure MapStruct where
  alloc : Nat
  start : Nat
  len : Nat
  dbru : Bool
  ploamu : Bool
  gated : Bool
  owner : Option Nat
  short : Bool
  circ : List Nat
  allocId : Nat := 0
  unitStart : Nat := 0
  unitLen : Nat := 0
  freed : Bool := false
deriving DecidableEq, Repr

/-- A discovery or ranging window of a map (R131, R206): kind 1 open discovery, 2 ranging. -/
structure MapWin where
  desc : Nat
  kind : Nat
  s : Nat
  span : Nat
  off : Nat
  width : Nat
  term : Option Nat
  slice : Nat
deriving DecidableEq, Repr

/-- A sealed map of one port (R160). -/
structure MapRec where
  structs : List MapStruct
  wins : List MapWin
  cals : List (Nat × Nat)
deriving DecidableEq, Repr

/-- A PLOAM message to the terminals (R124, R127, R129, R142). -/
inductive Ploam where
  | assignOnuId (onu : Nat) (sn : Nat)
  | rangingTime (onu : Nat) (eqd16 : Int)
  | preAssignedDelay (tenths : Nat)
  | deactivate (onu : Nat)
  | disable (sn : Nat)
  | enable (sn : Nat)
deriving DecidableEq, Repr

/-- A change of device-made state carried by a state cairn (R378, R379). -/
inductive StateChange where
  | context (t : Term) (state : BitVec 3) (port : Port) (onu : BitVec 10) (sn : Option (BitVec 64)) (eqd : Int) (corr : Option Int)
  | onuHold (p : Port) (onu : BitVec 10) (untilFrame : BitVec 32)
  | allocHold (a : BitVec 16) (allocId : BitVec 14) (p : Port) (untilFrame : BitVec 32)
  | allocContext (a : BitVec 16) (words : List GWord)
  | keySwitched (t : Term) (slot : Bool)
  | preset (t : Term) (pstate : BitVec 2)
deriving DecidableEq, Repr

/-- One record of a snapshot (R384): absolute state of one object. -/
inductive SnapRec where
  | change (c : StateChange)
  | map (p : Port) (frame : BitVec 32) (m : MapRec)
  | keep (p : Port) (words : List GWord)
  | register (slot : BitVec 22) (v : Word)
  | image (grant : Bool) (addr : Nat) (w : PWord)
  | key (t : Term) (slot : Bool) (key : BitVec 128)
  | qsWord (key v : Nat)
  | clWord (key v : Nat)
  | exact (i tbl : Nat) (key : List Nat) (tenant act1 act2 : Nat) (added deleted : Option Nat)
  | entry (grant : Bool) (n e : Nat)
  | profile (k v : Nat)
  | gateList (l cycle base gap : Nat) (entries : List (Nat × Nat)) (start : Option Int)
  | ternary (i : Nat) (staged : Bool) (valid : Bool) (tenant : Nat) (key mask : List Nat) (act1 act2 : Nat)
  | generation (o : GenObj) (cur : Nat) (staged : Bool)
  | owner (t : Term) (tenant prog0 prog1 : Nat)
  | keyPending (t : Term) (p : Port) (slot : Bool) (sfc : Nat)
  | groupKey (p : Port) (slot : Bool) (key : BitVec 128)
  | staged (grant : Bool) (addr : Nat) (w : PWord)
deriving DecidableEq, Repr

/-- An owner command carried by a command cairn (R379): the register writes that gave the command and its captured
data, the value the active resolved, and the result. -/
structure OwnerCmd where
  writes : List (BitVec 22 × Word)
  resolved : Option Nat
  result : BitVec 4
deriving DecidableEq, Repr

/-- What a cascade message carries (R406, R408): a member's health record, with its hops from the sender and whether it stands for
anchor (R405); a serial number bound on a member. -/
inductive CascMsg where
  | health (member : BitVec 2) (rec : Word) (hops : BitVec 2) (qualifies : Bool)
  | registry (member : BitVec 2) (sn : BitVec 64) (bound : Bool)
deriving DecidableEq, Repr

/-- What the boot load found in the image (R513 to R515): header, Imhus image and configuration record; the flags
say what the boot ROM's checks gave for the first header and for the fallback. -/
structure BootLoad where
  headerOk : Bool
  imhusPresent : Bool
  imhusVerified : Bool
  fallbackPresent : Bool
  fallbackOk : Bool
  fallbackVerified : Bool
  recordOk : Bool
  keysOk : BitVec 4
deriving DecidableEq, Repr

/-- The scope of an alarm (R422). -/
inductive AlarmScope where
  | device | tree (p : Port) | term (t : Term)
deriving DecidableEq, Repr

/-- The kinds of alarm: the rows of R422, OMCI (R420), mis-wiring (R419) and overflow (R423). -/
inductive AlarmKind where
  | transmitPath | treeDown | branchCut | powerLoss | terminalLost | protection | time | omci | misWiring | overflow
deriving DecidableEq, Repr

/-- What the Ind field of an upstream header tells (R106, R422): a PLOAMu message follows; a dying gasp. -/
structure HeaderInd where
  ploamu : Bool
  dying : Bool
deriving DecidableEq, Repr

/-- A memory macro: its block and its number in that block (R49). -/
structure MacroId where
  block : Fin 15
  no : BitVec 11
deriving DecidableEq, Repr

/-- What a relocation reports (R344): the subchannel copied, the lines that could not be corrected. -/
structure Relocated where
  sub : Fin 16
  lost : List (BitVec 29)
deriving DecidableEq, Repr

/-- A snapshot record as it travels: its EVSEQ beside it (R338, R384). -/
structure SnapItem where
  evseq : BitVec 32
  record : SnapRec
deriving DecidableEq, Repr

/-- What a lane reports that comes up (R433, R435): whether, a rope lane, it is skewed by more than 40 ns. -/
structure LaneReport where
  lane : LaneNo
  skewed : Bool
deriving DecidableEq, Repr

/-- The groups that a rope lane's receiver saw at one bit offset (R431). -/
structure LaneGroups where
  lane : LaneNo
  groups : List (BitVec 20)
deriving DecidableEq, Repr

/-- len quanta of an upstream frame from quantum q on. -/
structure QSpan where
  q : Nat
  len : Nat
deriving DecidableEq, Repr

inductive Instr where
  -- Identity, features, modes, events
  | stateRequestReady (r : Requester)
  | stateRequestRun (r : Requester)
  | stateRequestTest (r : Requester)
  | stateRequestBivouac (r : Requester)
  | stateRequestSafe (r : Requester)
  | stateRequestBootOrReserved (r : Requester) (t : BadTarget)
  | downstreamStop
  | fatalFault (c : SafeCause)
  | featAcceptWrite (r : Requester) (v : Word)
  | featLockWrite (r : Requester) (v : Word)
  | modeWrite (r : Requester) (v : Word)
  | unmappedAccess (write : Bool) (off : BitVec 24)
  | registerWrite (r : Requester) (slot : BitVec 22) (v : Word)
  | lowerSlotRead (r : Requester) (slot : BitVec 22)
  | paceBelowFloor (mon : Fin 48)
  | eventCommit (block : Fin 15) (inst : BitVec 11)
  | eventsLost (block : Fin 15) (inst : BitVec 11)
  | tallySlotEnd
  | tallyCfgWrite (r : Requester) (v : Word)
  | generationRetired (o : GenObj)
  | slowRetire (o : GenObj)
  | pcProgCommit (r : Requester) (v : Word)
  | clRuleCommit (r : Requester) (v : Word)
  | geProgCommit (r : Requester) (v : Word)
  | qsGateCommit (r : Requester) (v : Word)
  | qsShapeCommit (r : Requester) (v : Word)
  | egressPull (eg : Fin 98)
  -- Downstream ports
  | tpCtrlWrite (r : Requester) (p : Port) (v : Word)
  | keyQuery (r : Requester) (p : Port) (group : Bool) (t : Term)
  | keyWrite (r : Requester) (p : Port) (group slot : Bool) (t : Term)
  | keyInvalidate (r : Requester) (p : Port) (group slot : Bool) (t : Term)
  | keySwitch (r : Requester) (p : Port) (group slot : Bool) (t : Term)
  | keyGraceExpire (t : Term)
  | tpDefectTimer (p : Port) (d : Fin 5) (set : Bool)
  -- Upstream bursts
  | ubTreeCfgWrite (r : Requester) (p : Port) (v : Word)
  | ubTreeProfWrite (r : Requester) (p : Port) (v : Word)
  | presetQuery (r : Requester) (t : Term)
  | presetDrop (r : Requester) (t : Term)
  | burstArm (p : Port) (first : Nat)
  | receiverWake (p : Port)
  | fsHeaderReceived (p : Port) (first : Nat) (onu : BitVec 10) (tries : List DelimTry) (phase : BitVec 6) (ind : HeaderInd)
  | delimiterWindowClose (p : Port) (first : Nat)
  | codewordRelease (p : Port) (first start : Nat) (cw : Codeword)
  | ploamuReceived (p : Port) (first : Nat) (micOk : Bool) (msg : List Byte)
  | burstClose (p : Port) (first : Nat) (fin : RxValues)
  | unexpectedEnergy (p : Port) (q : BitVec 17)
  | reassemblyTimeout (x : BitVec 17)
  | presetAgeOut (t : Term)
  | ubDefectTimer (d : UbDefect) (set : Bool)
  -- Activation and ranging
  | contextQuery (r : Requester)
  | contextAllocate (r : Requester) (anyId : Bool)
  | contextFree (r : Requester)
  | contextBind (r : Requester)
  | contextDisable (r : Requester)
  | contextEnable (r : Requester)
  | activateNow (r : Requester)
  | leavingComplete (t : Term)
  | onuIdHoldExpire (p : Port) (onu : BitVec 10)
  | poolTreeWrite (r : Requester) (p : Port) (v : Word)
  | serialNumberOnu (p : Port) (sn : BitVec 64) (a : Nat)
  | registration (p : Port) (onu : BitVec 10) (x16 : Nat)
  | foundInfoRead (r : Requester) (p : Port)
  | foundEntryExpire (p : Port) (sn : BitVec 64)
  | directedAttempt (p : Port)
  | rangingCycleEnd (p : Port)
  | discoverySliceDue (p : Port)
  | preAssignedDelaySend (p : Port)
  | eqdConfirmTimeout (t : Term)
  | lostTimeout (t : Term)
  -- Grant engines
  | pitchOpen (p : Port)
  | pitchDeadline (p : Port)
  | mapBuildComplete (p : Port)
  | frameInstant
  | bistPassComplete (e : Eng) (ok : Bool) (unit : BitVec 8)
  | spareRotation
  | takeoverLoadComplete
  | engineQuery (r : Requester) (e : BitVec 5)
  | engineRepair (r : Requester) (e : BitVec 5)
  | engineRepairDone (ok : Bool)
  | engineRotate (r : Requester)
  | geProgDataWrite (r : Requester) (v : Word)
  | geTableRead (r : Requester) (table : BitVec 3) (upper : Bool) (idx : BitVec 16)
  | geTableWrite (r : Requester) (table : BitVec 3) (upper : Bool) (idx : BitVec 16)
  | allocContextAllocate (r : Requester) (table : BitVec 3) (upper : Bool)
  | allocContextFree (r : Requester) (table : BitVec 3) (upper : Bool) (idx : BitVec 16)
  | allocHoldExpire (a : BitVec 16)
  | keepClear (r : Requester) (p : Port)
  -- Grant instructions (R194): p is the tree whose open pitch retires the instruction
  | grantNop (p : Port)
  | grantAdd (p : Port) (d a b : G4)
  | grantSub (p : Port) (d a b : G4)
  | grantAdc (p : Port) (d a b : G4)
  | grantSbc (p : Port) (d a b : G4)
  | grantAnd (p : Port) (d a b : G4)
  | grantOr (p : Port) (d a b : G4)
  | grantXor (p : Port) (d a b : G4)
  | grantShl (p : Port) (d a b : G4)
  | grantShr (p : Port) (d a b : G4)
  | grantSra (p : Port) (d a b : G4)
  | grantMul (p : Port) (d a b : G4)
  | grantMulh (p : Port) (d a b : G4)
  | grantDivu (p : Port) (d a b : G4)
  | grantMinu (p : Port) (d a b : G4)
  | grantMaxu (p : Port) (d a b : G4)
  | grantCmp (p : Port) (a b : G4)
  | grantShlq (p : Port) (d a n : G4)
  | grantShrq (p : Port) (d a n : G4)
  | grantSraq (p : Port) (d a n : G4)
  | grantAddq (p : Port) (d a k : G4)
  | grantAddi (p : Port) (d a : G4) (imm : GWord)
  | grantAndi (p : Port) (d a : G4) (imm : GWord)
  | grantOri (p : Port) (d a : G4) (imm : GWord)
  | grantXori (p : Port) (d a : G4) (imm : GWord)
  | grantLdi (p : Port) (d : G4) (imm : GWord)
  | grantCmpi (p : Port) (a : G4) (imm : GWord)
  | grantQadd (p : Port) (d a b : G4)
  | grantQsub (p : Port) (d a b : G4)
  | grantNsq (p : Port) (d a : G4)
  | grantQns (p : Port) (d a : G4)
  | grantLd (p : Port) (d a : G4) (imm : GWord) (mem : Option RowRead)
  | grantSt (p : Port) (d a : G4) (imm : GWord)
  | grantLdx (p : Port) (d a b : G4) (mem : Option RowRead)
  | grantStx (p : Port) (d a b : G4)
  | grantTrm (p : Port) (d a w : G4)
  | grantAlc (p : Port) (d a w : G4)
  | grantRpt (p : Port) (d a w : G4)
  | grantHst (p : Port) (d a k : G4)
  | grantHsum (p : Port) (d a n : G4)
  | grantHpeak (p : Port) (d a n : G4)
  | grantHrsum (p : Port) (d a n : G4)
  | grantTwt (p : Port) (d a w : G4)
  | grantAwt (p : Port) (d a w : G4)
  | grantSweep (p : Port) (d a m : G4)
  | grantNext (p : Port) (d : G4)
  | grantOvh (p : Port) (d a m : G4)
  | grantEmit (p : Port) (d a b : G4)
  | grantGate (p : Port) (d a b : G4)
  | grantRecall (p : Port) (a m : G4)
  | grantDdesc (p : Port) (d i : G4)
  | grantWin (p : Port) (a i : G4)
  | grantCal (p : Port) (a b : G4)
  | grantSeal (p : Port)
  | grantYield (p : Port)
  | grantMfs (p : Port) (d : G4) (sel : BitVec 8)
  | grantBrs (p : Port) (cond : G4) (off : BitVec 8)
  | grantBr (p : Port) (cond : G4) (target : BitVec 14)
  | grantCall (p : Port) (target : BitVec 14)
  | grantRet (p : Port)
  | grantJr (p : Port) (a : G4)
  -- Queues, shaping, gates
  | qsRowRead (r : Requester) (table : BitVec 4) (idx : BitVec 17)
  | qsRowWrite (r : Requester) (table : BitVec 4) (idx : BitVec 17)
  | qsQueueStatus (r : Requester) (table : BitVec 4) (idx : BitVec 17)
  | qsFlush (r : Requester) (table : BitVec 4) (idx : BitVec 17)
  | bucketUpdate (n : QNode)
  | gateListStart (l : BitVec 8)
  | gateEntryChange (l : BitVec 8)
  | oldCycleEnd (l : BitVec 8)
  -- Parse stage: pid is the number the packet took at arrival
  | packetArrival (src : Fin 99) (k : Arrival)
  | passDispatch (pid : Nat)
  | parseNop (pid : Nat)
  | parseAdd (pid : Nat) (d a b : P5)
  | parseSub (pid : Nat) (d a b : P5)
  | parseAnd (pid : Nat) (d a b : P5)
  | parseOr (pid : Nat) (d a b : P5)
  | parseXor (pid : Nat) (d a b : P5)
  | parseShl (pid : Nat) (d a b : P5)
  | parseShr (pid : Nat) (d a b : P5)
  | parseSra (pid : Nat) (d a b : P5)
  | parseCmp (pid : Nat) (a b : P5)
  | parseMin (pid : Nat) (d a b : P5)
  | parseMax (pid : Nat) (d a b : P5)
  | parseMul (pid : Nat) (d a b : P5)
  | parseAddi (pid : Nat) (d a : P5) (imm : BitVec 20)
  | parseAndi (pid : Nat) (d a : P5) (imm : BitVec 20)
  | parseOri (pid : Nat) (d a : P5) (imm : BitVec 20)
  | parseXori (pid : Nat) (d a : P5) (imm : BitVec 20)
  | parseCmpi (pid : Nat) (a : P5) (imm : BitVec 20)
  | parseLdi (pid : Nat) (d : P5) (imm : BitVec 20)
  | parseLdu (pid : Nat) (d : P5) (imm : BitVec 20)
  | parseShli (pid : Nat) (d a : P5) (imm : BitVec 20)
  | parseShri (pid : Nat) (d a : P5) (imm : BitVec 20)
  | parseBfx (pid : Nat) (d a : P5) (off : BitVec 14) (w1 : BitVec 6)
  | parseBfi (pid : Nat) (d a : P5) (off : BitVec 14) (w1 : BitVec 6)
  | parseExt (pid : Nat) (d a : P5) (off : BitVec 14) (w1 : BitVec 6)
  | parseAdv (pid : Nat) (a : P5) (imm : BitVec 20)
  | parseMfs (pid : Nat) (d : P5) (sel : BitVec 20)
  | parseHsh (pid : Nat) (d a : P5) (n1 : BitVec 3) (sym : Bool)
  | parseLkx (pid : Nat) (d a : P5) (tbl : BitVec 4) (n1 : BitVec 3)
  | parseLkt (pid : Nat) (d a : P5) (tbl : BitVec 4) (n1 : BitVec 3)
  | parseBr (pid : Nat) (cond : G4) (target : BitVec 12)
  | parseCall (pid : Nat) (target : BitVec 12)
  | parseRet (pid : Nat)
  | parseEnq (pid : Nat) (a b : P5) (imm : BitVec 15)
  | parseDrp (pid : Nat) (imm : BitVec 15)
  | parseRcv (pid : Nat) (imm : BitVec 15)
  | parseExc (pid : Nat) (imm : BitVec 15)
  | lookupReply (pid : Nat) (i : Nat) (read : LookRead)
  | verdictCommit (src : Fin 100)
  | holdMaxTimeout (pid : Nat)
  | pcProgDataHiWrite (r : Requester) (v : Word)
  | coreQuery (r : Requester) (c : BitVec 7)
  | coreRepair (r : Requester) (c : BitVec 7)
  | coreRepairDone (ok : Bool)
  -- Classification
  | clRead (r : Requester) (kind tbl : BitVec 4)
  | clWrite (r : Requester) (kind tbl : BitVec 4)
  | clAdd (r : Requester) (kind tbl : BitVec 4)
  | clDelete (r : Requester) (kind tbl : BitVec 4)
  | clFind (r : Requester) (kind tbl : BitVec 4)
  | spreadBucketsMoved (g : BitVec 6) (m : BitVec 4)
  | spreadBucketsRestored (g : BitVec 6) (m : BitVec 4)
  -- Buffers and memory: errs are the symbols of the codeword that the read found wrong (R339)
  | fetchIssue (q : BitVec 16)
  | fetchComplete (q : BitVec 16) (errs : List (List Nat))
  | spillWriteComplete
  | cellLastByteRead (c : BitVec 21)
  | scrubRead (t : ScrubTarget) (errs : List Nat)
  | scrubSweepLate (deep : Bool)
  | rowRepairComplete (m : MacroId) (row : BitVec 10) (correctable : Bool)
  | relocationComplete (x : Relocated)
  | memoryTestQuery (r : Requester)
  | packetBufferTest (r : Requester)
  | deepMemoryTest (r : Requester)
  | memoryTestDone (failUnit : Option (BitVec 16))
  | bmSpillWrite (r : Requester) (v : Word)
  -- Time
  | timeBaseWrap
  | tsIncrWrite (r : Requester) (v : Word)
  | tsAdjWrite (r : Requester) (v : Word)
  | stepApply
  | alignGo (r : Requester) (v : Word)
  | frameAligned
  | ppsEdge
  | ppsLost
  | todQuery (r : Requester) (p : Port)
  | todCompute (r : Requester) (p : Port)
  | todCancel (r : Requester) (p : Port)
  | termDelayCompute (r : Requester) (t : Term)
  -- Protection and cascade
  | belaySeenEdge
  | belaySeenTimeout
  | laserSettle
  | heartbeatTimeout
  | hello (rp : Fin 2) (h : HelloMsg)
  | healthRecord (rec : Word)
  | timeMessage (rp : Fin 2) (sent echo arrived : Nat)
  | portLatencies (lats : List (Port × BitVec 16 × BitVec 16))
  | mapCairn (cn evseq : BitVec 32) (p : Port) (frame : BitVec 32) (m : MapRec)
  | ploamCairn (cn evseq : BitVec 32) (p : Port) (frame : BitVec 32) (sfc : BitVec 51) (msgs : List Ploam)
  | stateCairn (cn evseq : BitVec 32) (c : StateChange)
  | commandCairn (cn evseq : BitVec 32) (c : OwnerCmd)
  | keepCairn (cn evseq : BitVec 32) (p : Port) (words : List GWord)
  | snapshotRecord (cn : BitVec 32) (x : SnapItem)
  | snapshotEnd (cn : BitVec 32)
  | replayRequest (fromCn : BitVec 32) (snapshot : Bool)
  | cascadeMessage (rp : Fin 2) (m : CascMsg)
  | cairnLate (p : Port)
  | healthRecordSend
  | helloSend (rp : Fin 2)
  | timeMessageSend (rp : Fin 2)
  | healthTimeout
  | pairQuery (r : Requester)
  | pairYield (r : Requester)
  | pairTake (r : Requester)
  | pairResync (r : Requester)
  | yieldInstant
  | revertHoldExpire
  | ropeFrame (rp : Fin 2) (lanes : List (List (BitVec 20)))
  | restripeComplete (rp : Fin 2)
  | ropePartnerAbsent (rp : Fin 2)
  | holdoverEnter
  -- Serial lanes
  | laneEnable (r : Requester) (l : LaneNo) (v : Word)
  | laneDisable (r : Requester) (l : LaneNo) (v : Word)
  | errorInject (r : Requester) (l : LaneNo) (v : Word)
  | laneUp (x : LaneReport)
  | laneBringupTimeout (l : LaneNo)
  | laneLoss (l : LaneNo) (c : LossCause)
  | laneRetrain (l : LaneNo)
  | laneQuery (r : Requester) (l : BitVec 8)
  | laneRecalibrate (r : Requester) (l : BitVec 8)
  | retrainNow (r : Requester) (l : BitVec 8)
  | calibrationStart (p : Port)
  | calibrationStep (p : Port) (x : QSpan)
  -- Host interface
  | ringEnable (r : Requester) (ring : BitVec 12) (v : Word)
  | ringDisable (r : Requester) (ring : BitVec 12) (v : Word)
  | ringTailWrite (r : Requester) (ring : BitVec 12) (v : Word)
  | ringHeadWrite (r : Requester) (ring : BitVec 12) (v : Word)
  | channelPause (r : Requester) (c : BitVec 5) (v : Word)
  | channelResume (r : Requester) (c : BitVec 5) (v : Word)
  | channelDisable (r : Requester) (c : BitVec 5) (v : Word)
  | channelQuery (r : Requester) (c : BitVec 5)
  | channelRepair (r : Requester) (c : BitVec 5)
  | channelStop (r : Requester) (c : BitVec 5)
  | beatMove (c : BitVec 5)
  | readCompletion (c : BitVec 5) (data : List Byte) (ok : Bool)
  | descriptorWriteback (c : BitVec 5)
  | ringIrqTimer (ring : BitVec 12)
  | lossRecord (ring : BitVec 12)
  | vfFlr (f : Fin 64)
  | pfFlr
  | pcieLinkDown
  | vfCfgWrite (r : Requester) (i : Fin 64) (v : Word)
  | vecMapWrite (r : Requester) (i : Fin 64) (v : Word)
  | vfUnmappedAccess (f : Fin 64) (off : BitVec 16) (write : Bool)
  -- Interrupts and counters
  | doorbell (r : Requester) (src : BitVec 13)
  | guideCoreEntry (t : Fin 4)
  | claimRead (r : Requester) (t : Fin 68)
  | completeWrite (r : Requester) (t : Fin 68) (src : BitVec 13)
  | msixAutoComplete (t : Fin 68)
  | srcCfgWrite (r : Requester) (src : BitVec 13) (v : Word)
  | threshWrite (r : Requester) (t : Fin 68) (v : Word)
  | watchWrite (r : Requester) (w : Fin 64) (v : Word)
  | watchWake (src : BitVec 13)
  | windowClose
  | beadCfgWrite (r : Requester) (b : Fin 15) (k : Fin 16) (v : Word)
  -- Power, reset, boot
  | domainQuery (r : Requester) (d : BitVec 4)
  | domainDownRequest (r : Requester) (d : BitVec 4)
  | domainQuiescent
  | domainTimeout
  | domainUpRequest (r : Requester) (d : BitVec 4)
  | domainUpComplete
  | avsPeriod (margins : List (BitVec 16)) (current : BitVec 14)
  | avsBusFault
  | thermalSample (temps : List (BitVec 8))
  | powerOnReset (st : Straps) (authReq : Bool)
  | pinReset (st : Straps)
  | deviceReset (r : Requester) (key : Byte) (st : Straps)
  | blockReset (r : Requester) (key : Byte) (block : BitVec 4)
  | supplyFail
  | bootDataWrite (r : Requester) (v : Word)
  | bootGo (r : Requester) (v : Word)
  | bootLoadComplete (l : BootLoad)
  | bootSelfTestComplete (engFail : BitVec 17) (coreFail : BitVec 128) (rowsRepaired : Bool)
  | managementRead (off : BitVec 24)
  -- Imhus: the mailbox commands take their payload from GLB_MBX_REQ
  | version
  | status
  | digest
  | templatePut
  | templateDel
  | bind
  | unbind
  | apply
  | termQuery
  | alarmList
  | alarmCfg
  | pairOp
  | pairPolicy
  | timeSteer
  | ptpCfg
  | onuImage
  | mailboxReply
  | mailboxFinalResult (i : Fin 8) (result : BitVec 8)
  | guideCoreHalt (core : Fin 4)
  | keyRotationDue (t : Term) (key : BitVec 128)
  | omciRetry (t : Term)
  | alarmRaiseSoak (k : AlarmKind) (sc : AlarmScope)
  | alarmClearSoak (k : AlarmKind) (sc : AlarmScope)
  -- Rows added at the end of the table
  | grantIllegalInstruction (p : Port)
  | parseIllegalInstruction (pid : Nat)
  | memoryTrainingComplete (ok : Bool) (deepCfg : Word)
  | blockResetComplete
  | pcieLinkUp (speed : BitVec 3) (width : BitVec 4)
  | groupLock (x : LaneGroups)
  | checkerLock (l : LaneNo)
  | checkerLockLoss (l : LaneNo)
  | parseSelfTestPass (core : BitVec 7) (ok : Bool)
  | commitWaitTimeout
  | cairnRequestTimeout
  | takeUnsynced
  | timeOkYield
  | targetWake (t : Fin 68)
  | belowFloorHeld
deriving DecidableEq, Repr

end Sys2Proof
end

