-- ==== Sys2Proof/Decode.lean ====
section
/-! DEFINITION. The decoder of the rows that give bits. No row of spec/opcode_table.json gives any: the commands come as
register accesses and as what happens outside, not as words. -/

namespace Sys2Proof

/-- The command that a word spells by the table's bits: none, since no row of the table gives bits.
(DESIGN CHOICE, safe: log entry 4.) -/
def decodeTableWord (_nbits _w : Nat) : Option Instr := none

end Sys2Proof
end

