-- ==== Sys2Proof/Machine/RegMap.lean ====
section
/-! DEFINITION. The register map of BAR0 (R3, R50): one field descriptor per field of every register table of the
spec, with its access code (R7) and the reset value its table gives, and one row per register. Fields the tables call
reserved read their listed value 0 and are held nowhere (R5). -/

namespace Sys2Proof.Machine

/-- The access codes of R7. -/
inductive Acc where
  | ro | rw | wo | w1c | rc | rs | rwg
deriving DecidableEq, Repr

/-- A register field: byte offset of its register (element 0), elements and stride, low bit, width, access, reset. -/
structure Fld where
  off : Nat
  stride : Nat
  lo : Nat
  w : Nat
  acc : Acc
  rst : Nat
deriving DecidableEq, Repr

/-- A register: byte offset of element 0, elements, stride, whether it is a 64-bit pair (R6), its fields. -/
structure RegD where
  off : Nat
  count : Nat
  stride : Nat
  is64 : Bool
  flds : List Fld
deriving DecidableEq, Repr

namespace F
/-! GLB_FEAT_OFFER (00_scope.md) -/
def GLB_FEAT_OFFER_offer : Fld := ⟨0x10, 0, 0, 14, .ro, 0⟩
/-! GLB_FEAT_ACCEPT (00_scope.md) -/
def GLB_FEAT_ACCEPT_accept : Fld := ⟨0x18, 0, 0, 14, .rw, 0⟩
/-! GLB_FEAT_LOCK (00_scope.md) -/
def GLB_FEAT_LOCK_failing_bit : Fld := ⟨0x20, 0, 8, 6, .ro, 0⟩
def GLB_FEAT_LOCK_lock_status : Fld := ⟨0x20, 0, 4, 4, .ro, 0⟩
def GLB_FEAT_LOCK_lock : Fld := ⟨0x20, 0, 0, 1, .rw, 0⟩
/-! GLB_MODE (00_scope.md) -/
def GLB_MODE_cur_mode_valid : Fld := ⟨0x28, 0, 12, 1, .ro, 0⟩
def GLB_MODE_cur_mode : Fld := ⟨0x28, 0, 8, 4, .ro, 0⟩
def GLB_MODE_mode : Fld := ⟨0x28, 0, 0, 4, .rw, 0⟩
/-! GLB_STATE (00_scope.md) -/
def GLB_STATE_last_status : Fld := ⟨0x30, 0, 8, 8, .ro, 0⟩
def GLB_STATE_busy : Fld := ⟨0x30, 0, 3, 1, .ro, 0⟩
def GLB_STATE_state : Fld := ⟨0x30, 0, 0, 3, .ro, 0⟩
/-! GLB_STATE_REQ (00_scope.md) -/
def GLB_STATE_REQ_target : Fld := ⟨0x34, 0, 0, 3, .wo, 0⟩
/-! GLB_PACE (01_architecture.md) -/
def GLB_PACE_below_floor : Fld := ⟨0x50, 0, 24, 1, .w1c, 0⟩
def GLB_PACE_worst_monitor : Fld := ⟨0x50, 0, 16, 6, .rs, 0⟩
def GLB_PACE_margin : Fld := ⟨0x50, 0, 0, 16, .rs, 0⟩
/-! GLB_EVSEQ (01_architecture.md) -/
def GLB_EVSEQ_last_evseq : Fld := ⟨0x40, 0, 0, 32, .rs, 0⟩
/-! GLB_TALLY_CFG (01_architecture.md) -/
def GLB_TALLY_CFG_window_ms : Fld := ⟨0x48, 0, 16, 16, .rw, 1000⟩
def GLB_TALLY_CFG_threshold : Fld := ⟨0x48, 0, 0, 8, .rw, 8⟩
/-! GLB_ID (01_architecture.md) -/
def GLB_ID_part : Fld := ⟨0x0, 0, 16, 16, .ro, 25600⟩
def GLB_ID_stepping : Fld := ⟨0x0, 0, 8, 8, .ro, 177⟩
def GLB_ID_pair_id : Fld := ⟨0x0, 0, 0, 8, .ro, 0⟩
/-! TP_CTRL (02_downstream_line.md) -/
def TP_CTRL_key_grace : Fld := ⟨0x100000, 16384, 8, 8, .rw, 100⟩
def TP_CTRL_pair_us_shared : Fld := ⟨0x100000, 16384, 3, 1, .rw, 0⟩
def TP_CTRL_pair_en : Fld := ⟨0x100000, 16384, 2, 1, .rw, 0⟩
def TP_CTRL_ds_mode : Fld := ⟨0x100000, 16384, 1, 1, .rw, 0⟩
def TP_CTRL_port_en : Fld := ⟨0x100000, 16384, 0, 1, .rw, 0⟩
/-! TP_STATUS (02_downstream_line.md) -/
def TP_STATUS_defects : Fld := ⟨0x100004, 16384, 8, 5, .ro, 0⟩
def TP_STATUS_en_status : Fld := ⟨0x100004, 16384, 4, 4, .ro, 0⟩
def TP_STATUS_down : Fld := ⟨0x100004, 16384, 3, 1, .ro, 0⟩
def TP_STATUS_paired : Fld := ⟨0x100004, 16384, 2, 1, .ro, 0⟩
def TP_STATUS_laser_on : Fld := ⟨0x100004, 16384, 1, 1, .ro, 0⟩
def TP_STATUS_running : Fld := ⟨0x100004, 16384, 0, 1, .ro, 0⟩
/-! TP_PONID (02_downstream_line.md) -/
def TP_PONID_pon_id : Fld := ⟨0x100008, 16384, 0, 51, .rw, 0⟩
/-! TP_SFC (02_downstream_line.md) -/
def TP_SFC_sfc : Fld := ⟨0x100010, 16384, 0, 51, .rw, 0⟩
/-! TP_DEFECT (02_downstream_line.md) -/
def TP_DEFECT_mask : Fld := ⟨0x100018, 16384, 8, 5, .rw, 0⟩
def TP_DEFECT_latched : Fld := ⟨0x100018, 16384, 0, 5, .w1c, 0⟩
/-! TP_KEY_CMD (02_downstream_line.md) -/
def TP_KEY_CMD_op : Fld := ⟨0x100040, 16384, 30, 2, .wo, 0⟩
def TP_KEY_CMD_group : Fld := ⟨0x100040, 16384, 29, 1, .wo, 0⟩
def TP_KEY_CMD_slot : Fld := ⟨0x100040, 16384, 28, 1, .wo, 0⟩
def TP_KEY_CMD_term : Fld := ⟨0x100040, 16384, 0, 14, .wo, 0⟩
/-! TP_KEY_DATA0 (02_downstream_line.md) -/
def TP_KEY_DATA0_key : Fld := ⟨0x100044, 16384, 0, 32, .wo, 0⟩
/-! TP_KEY_DATA1 (02_downstream_line.md) -/
def TP_KEY_DATA1_key : Fld := ⟨0x100048, 16384, 0, 32, .wo, 0⟩
/-! TP_KEY_DATA2 (02_downstream_line.md) -/
def TP_KEY_DATA2_key : Fld := ⟨0x10004C, 16384, 0, 32, .wo, 0⟩
/-! TP_KEY_DATA3 (02_downstream_line.md) -/
def TP_KEY_DATA3_key : Fld := ⟨0x100050, 16384, 0, 32, .wo, 0⟩
/-! TP_KEY_SFC (02_downstream_line.md) -/
def TP_KEY_SFC_switch_sfc : Fld := ⟨0x100054, 16384, 0, 32, .rw, 0⟩
/-! TP_KEY_STATUS (02_downstream_line.md) -/
def TP_KEY_STATUS_busy : Fld := ⟨0x100058, 16384, 31, 1, .ro, 0⟩
def TP_KEY_STATUS_result : Fld := ⟨0x100058, 16384, 24, 4, .ro, 0⟩
def TP_KEY_STATUS_pending : Fld := ⟨0x100058, 16384, 19, 1, .ro, 0⟩
def TP_KEY_STATUS_active_slot : Fld := ⟨0x100058, 16384, 18, 1, .ro, 0⟩
def TP_KEY_STATUS_valid1 : Fld := ⟨0x100058, 16384, 17, 1, .ro, 0⟩
def TP_KEY_STATUS_valid0 : Fld := ⟨0x100058, 16384, 16, 1, .ro, 0⟩
def TP_KEY_STATUS_term : Fld := ⟨0x100058, 16384, 0, 14, .ro, 0⟩
/-! TP_KEY_ACTUAL (02_downstream_line.md) -/
def TP_KEY_ACTUAL_actual_sfc : Fld := ⟨0x10005C, 16384, 0, 32, .ro, 0⟩
/-! UB_CTRL (03_upstream_bursts.md) -/
def UB_CTRL_age_limit : Fld := ⟨0x200000, 0, 8, 16, .rw, 10000⟩
def UB_CTRL_iter_max : Fld := ⟨0x200000, 0, 0, 5, .rw, 8⟩
/-! UB_THRESH (03_upstream_bursts.md) -/
def UB_THRESH_reasm_frames : Fld := ⟨0x200004, 0, 12, 4, .rw, 4⟩
def UB_THRESH_recall_fail_n : Fld := ⟨0x200004, 0, 8, 4, .rw, 2⟩
def UB_THRESH_sd_exp : Fld := ⟨0x200004, 0, 4, 4, .rw, 3⟩
def UB_THRESH_lobi_n : Fld := ⟨0x200004, 0, 0, 4, .rw, 4⟩
/-! UB_TERM_CMD (03_upstream_bursts.md) -/
def UB_TERM_CMD_op : Fld := ⟨0x200010, 0, 30, 2, .wo, 0⟩
def UB_TERM_CMD_term : Fld := ⟨0x200010, 0, 0, 14, .wo, 0⟩
/-! UB_TERM_STATUS (03_upstream_bursts.md) -/
def UB_TERM_STATUS_busy : Fld := ⟨0x200014, 0, 31, 1, .ro, 0⟩
def UB_TERM_STATUS_result : Fld := ⟨0x200014, 0, 24, 4, .ro, 0⟩
def UB_TERM_STATUS_defects : Fld := ⟨0x200014, 0, 16, 5, .ro, 0⟩
def UB_TERM_STATUS_pstate : Fld := ⟨0x200014, 0, 14, 2, .ro, 0⟩
def UB_TERM_STATUS_clean : Fld := ⟨0x200014, 0, 12, 2, .ro, 0⟩
def UB_TERM_STATUS_recall_fail : Fld := ⟨0x200014, 0, 8, 4, .ro, 0⟩
/-! UB_TERM_DATA (03_upstream_bursts.md) -/
def UB_TERM_DATA_offset : Fld := ⟨0x200018, 0, 16, 16, .ro, 0⟩
def UB_TERM_DATA_term : Fld := ⟨0x200018, 0, 0, 14, .ro, 0⟩
/-! UB_TERM_AGE (03_upstream_bursts.md) -/
def UB_TERM_AGE_age_ms : Fld := ⟨0x20001C, 0, 0, 16, .ro, 0⟩
/-! UB_DEC_STATUS (03_upstream_bursts.md) -/
def UB_DEC_STATUS_deadline_seen : Fld := ⟨0x200020, 0, 2, 1, .w1c, 0⟩
def UB_DEC_STATUS_soft : Fld := ⟨0x200020, 0, 1, 1, .ro, 0⟩
def UB_DEC_STATUS_down : Fld := ⟨0x200020, 0, 0, 1, .ro, 0⟩
/-! UB_TREE_CFG (03_upstream_bursts.md) -/
def UB_TREE_CFG_delim_err : Fld := ⟨0x210000, 1024, 24, 4, .rw, 4⟩
def UB_TREE_CFG_delim_win : Fld := ⟨0x210000, 1024, 18, 3, .rw, 2⟩
def UB_TREE_CFG_us_rate : Fld := ⟨0x210000, 1024, 16, 2, .rw, 0⟩
def UB_TREE_CFG_guard_q : Fld := ⟨0x210000, 1024, 8, 8, .rw, 8⟩
def UB_TREE_CFG_new_guard_q : Fld := ⟨0x210000, 1024, 4, 2, .rw, 1⟩
def UB_TREE_CFG_xgs_fec : Fld := ⟨0x210000, 1024, 3, 1, .rw, 1⟩
def UB_TREE_CFG_rx_en : Fld := ⟨0x210000, 1024, 0, 1, .rw, 0⟩
/-! UB_TREE_PROF (03_upstream_bursts.md) -/
def UB_TREE_PROF_delim_q : Fld := ⟨0x210004, 1024, 24, 2, .rw, 1⟩
def UB_TREE_PROF_long_pre_q : Fld := ⟨0x210004, 1024, 16, 8, .rw, 125⟩
def UB_TREE_PROF_short_pre_q : Fld := ⟨0x210004, 1024, 0, 8, .rw, 32⟩
/-! UB_TREE_IDLE (03_upstream_bursts.md) -/
def UB_TREE_IDLE_arm_lead : Fld := ⟨0x210008, 1024, 24, 8, .rw, 250⟩
def UB_TREE_IDLE_wake_lead : Fld := ⟨0x210008, 1024, 16, 8, .rw, 64⟩
def UB_TREE_IDLE_idle_min : Fld := ⟨0x210008, 1024, 0, 16, .rw, 512⟩
/-! UB_TREE_STATUS (03_upstream_bursts.md) -/
def UB_TREE_STATUS_defects : Fld := ⟨0x21000C, 1024, 8, 4, .ro, 0⟩
def UB_TREE_STATUS_en_status : Fld := ⟨0x21000C, 1024, 4, 4, .ro, 0⟩
def UB_TREE_STATUS_down : Fld := ⟨0x21000C, 1024, 3, 1, .ro, 0⟩
def UB_TREE_STATUS_idle : Fld := ⟨0x21000C, 1024, 2, 1, .ro, 0⟩
def UB_TREE_STATUS_shared : Fld := ⟨0x21000C, 1024, 1, 1, .ro, 0⟩
def UB_TREE_STATUS_running : Fld := ⟨0x21000C, 1024, 0, 1, .ro, 0⟩
/-! UB_TREE_DEFECT (03_upstream_bursts.md) -/
def UB_TREE_DEFECT_tmask : Fld := ⟨0x210010, 1024, 16, 5, .rw, 0⟩
def UB_TREE_DEFECT_mask : Fld := ⟨0x210010, 1024, 8, 4, .rw, 0⟩
def UB_TREE_DEFECT_latched : Fld := ⟨0x210010, 1024, 0, 4, .w1c, 0⟩
/-! GE_ACT_CTRL (04_activation_ranging.md) -/
def GE_ACT_CTRL_lost_t : Fld := ⟨0x380000, 0, 24, 8, .rw, 20⟩
def GE_ACT_CTRL_eqd_confirm : Fld := ⟨0x380000, 0, 16, 8, .rw, 64⟩
def GE_ACT_CTRL_drift_shift : Fld := ⟨0x380000, 0, 12, 4, .rw, 4⟩
def GE_ACT_CTRL_dir_period : Fld := ⟨0x380000, 0, 0, 8, .rw, 8⟩
/-! GE_ACT_DRIFT (04_activation_ranging.md) -/
def GE_ACT_DRIFT_drift_max : Fld := ⟨0x380004, 0, 16, 16, .rw, 2048⟩
def GE_ACT_DRIFT_eqd_step : Fld := ⟨0x380004, 0, 0, 16, .rw, 256⟩
/-! GE_CTX_CMD (04_activation_ranging.md) -/
def GE_CTX_CMD_op : Fld := ⟨0x380010, 0, 28, 4, .wo, 0⟩
def GE_CTX_CMD_any_id : Fld := ⟨0x380010, 0, 27, 1, .wo, 0⟩
/-! GE_CTX_ARG (04_activation_ranging.md) -/
def GE_CTX_ARG_port : Fld := ⟨0x380014, 0, 24, 6, .rw, 0⟩
def GE_CTX_ARG_onu_id : Fld := ⟨0x380014, 0, 14, 10, .rw, 0⟩
def GE_CTX_ARG_term : Fld := ⟨0x380014, 0, 0, 14, .rw, 0⟩
/-! GE_CTX_SN (04_activation_ranging.md) -/
def GE_CTX_SN_vendor_id : Fld := ⟨0x380018, 0, 32, 32, .rw, 0⟩
def GE_CTX_SN_vssn : Fld := ⟨0x380018, 0, 0, 32, .rw, 0⟩
/-! GE_CTX_STATUS (04_activation_ranging.md) -/
def GE_CTX_STATUS_busy : Fld := ⟨0x380020, 0, 31, 1, .ro, 0⟩
def GE_CTX_STATUS_result : Fld := ⟨0x380020, 0, 24, 4, .ro, 0⟩
def GE_CTX_STATUS_state : Fld := ⟨0x380020, 0, 16, 3, .ro, 0⟩
def GE_CTX_STATUS_term : Fld := ⟨0x380020, 0, 0, 14, .ro, 0⟩
/-! GE_CTX_TENANT (04_activation_ranging.md) -/
def GE_CTX_TENANT_tenant : Fld := ⟨0x380024, 0, 0, 8, .rw, 0⟩
/-! GE_TERM_EQD (04_activation_ranging.md) -/
def GE_TERM_EQD_eqd : Fld := ⟨0x380028, 0, 0, 32, .ro, 0⟩
/-! GE_TERM_RTD (04_activation_ranging.md) -/
def GE_TERM_RTD_rtd : Fld := ⟨0x38002C, 0, 0, 32, .rs, 0⟩
/-! GE_TERM_DRIFT (04_activation_ranging.md) -/
def GE_TERM_DRIFT_drift : Fld := ⟨0x380030, 0, 16, 16, .rs, 0⟩
def GE_TERM_DRIFT_pending : Fld := ⟨0x380030, 0, 0, 1, .ro, 0⟩
/-! GE_POOL_STATUS (04_activation_ranging.md) -/
def GE_POOL_STATUS_free : Fld := ⟨0x380040, 0, 16, 15, .ro, 16384⟩
def GE_POOL_STATUS_unreserved_free : Fld := ⟨0x380040, 0, 0, 15, .ro, 16384⟩
/-! GE_DISC_CFG (04_activation_ranging.md) -/
def GE_DISC_CFG_quiet_budget : Fld := ⟨0x381000, 64, 24, 8, .rw, 120⟩
def GE_DISC_CFG_disc_period : Fld := ⟨0x381000, 64, 16, 8, .rw, 16⟩
def GE_DISC_CFG_dist_class : Fld := ⟨0x381000, 64, 8, 3, .rw, 6⟩
def GE_DISC_CFG_stagger : Fld := ⟨0x381000, 64, 2, 1, .rw, 0⟩
def GE_DISC_CFG_dir_en : Fld := ⟨0x381000, 64, 1, 1, .rw, 0⟩
def GE_DISC_CFG_disc_en : Fld := ⟨0x381000, 64, 0, 1, .rw, 0⟩
/-! GE_DISC_DIST (04_activation_ranging.md) -/
def GE_DISC_DIST_teq : Fld := ⟨0x381004, 64, 16, 16, .rw, 4000⟩
def GE_DISC_DIST_rtd_min : Fld := ⟨0x381004, 64, 0, 16, .rw, 0⟩
/-! GE_DISC_RAND (04_activation_ranging.md) -/
def GE_DISC_RAND_sn_q : Fld := ⟨0x381008, 64, 8, 8, .rw, 192⟩
def GE_DISC_RAND_rand_span : Fld := ⟨0x381008, 64, 0, 8, .rw, 48⟩
/-! GE_DISC_STATUS (04_activation_ranging.md) -/
def GE_DISC_STATUS_skips : Fld := ⟨0x38100C, 64, 24, 8, .rc, 0⟩
def GE_DISC_STATUS_uxl_q : Fld := ⟨0x38100C, 64, 4, 16, .ro, 0⟩
def GE_DISC_STATUS_suspended : Fld := ⟨0x38100C, 64, 3, 1, .ro, 0⟩
def GE_DISC_STATUS_gated : Fld := ⟨0x38100C, 64, 2, 1, .ro, 0⟩
def GE_DISC_STATUS_staggered : Fld := ⟨0x38100C, 64, 1, 1, .ro, 0⟩
def GE_DISC_STATUS_found : Fld := ⟨0x38100C, 64, 0, 1, .ro, 0⟩
/-! GE_POOL_TREE (04_activation_ranging.md) -/
def GE_POOL_TREE_limit : Fld := ⟨0x381010, 64, 16, 10, .rw, 1023⟩
def GE_POOL_TREE_reserve : Fld := ⟨0x381010, 64, 0, 10, .rw, 0⟩
/-! GE_FOUND_SN (04_activation_ranging.md) -/
def GE_FOUND_SN_vendor_id : Fld := ⟨0x381018, 64, 32, 32, .ro, 0⟩
def GE_FOUND_SN_vssn : Fld := ⟨0x381018, 64, 0, 32, .ro, 0⟩
/-! GE_FOUND_INFO (04_activation_ranging.md) -/
def GE_FOUND_INFO_valid : Fld := ⟨0x381020, 64, 31, 1, .rc, 0⟩
def GE_FOUND_INFO_dup : Fld := ⟨0x381020, 64, 30, 1, .rc, 0⟩
def GE_FOUND_INFO_x_hi : Fld := ⟨0x381020, 64, 15, 15, .rc, 0⟩
def GE_FOUND_INFO_x_lo : Fld := ⟨0x381020, 64, 0, 15, .rc, 0⟩
/-! GE_CTRL (05_grant_engines.md) -/
def GE_CTRL_rot_en : Fld := ⟨0x300000, 0, 0, 1, .rw, 1⟩
/-! GE_ENG_STATUS (05_grant_engines.md) -/
def GE_ENG_STATUS_spare : Fld := ⟨0x300004, 0, 16, 5, .ro, 16⟩
def GE_ENG_STATUS_down : Fld := ⟨0x300004, 0, 2, 1, .ro, 0⟩
def GE_ENG_STATUS_takeover : Fld := ⟨0x300004, 0, 1, 1, .ro, 0⟩
def GE_ENG_STATUS_orphaned : Fld := ⟨0x300004, 0, 0, 1, .ro, 0⟩
/-! GE_ENG_FENCED (05_grant_engines.md) -/
def GE_ENG_FENCED_fenced : Fld := ⟨0x300008, 0, 0, 17, .ro, 0⟩
/-! GE_ENG_BIST (05_grant_engines.md) -/
def GE_ENG_BIST_passes : Fld := ⟨0x30000C, 0, 16, 16, .rs, 0⟩
def GE_ENG_BIST_last_fail : Fld := ⟨0x30000C, 0, 1, 1, .ro, 0⟩
def GE_ENG_BIST_running : Fld := ⟨0x30000C, 0, 0, 1, .ro, 0⟩
/-! GE_QUAD_MAP (05_grant_engines.md) -/
def GE_QUAD_MAP_engine : Fld := ⟨0x300010, 4, 0, 5, .ro, 0⟩
/-! GE_ENG_CMD (05_grant_engines.md) -/
def GE_ENG_CMD_op : Fld := ⟨0x300060, 0, 30, 2, .wo, 0⟩
def GE_ENG_CMD_eng : Fld := ⟨0x300060, 0, 0, 5, .wo, 0⟩
/-! GE_ENG_CMD_STATUS (05_grant_engines.md) -/
def GE_ENG_CMD_STATUS_busy : Fld := ⟨0x300064, 0, 31, 1, .ro, 0⟩
def GE_ENG_CMD_STATUS_result : Fld := ⟨0x300064, 0, 24, 4, .ro, 0⟩
def GE_ENG_CMD_STATUS_eng : Fld := ⟨0x300064, 0, 0, 5, .ro, 0⟩
/-! GE_PROG_ADDR (05_grant_engines.md) -/
def GE_PROG_ADDR_addr : Fld := ⟨0x300100, 0, 0, 14, .rw, 0⟩
/-! GE_PROG_DATA (05_grant_engines.md) -/
def GE_PROG_DATA_word : Fld := ⟨0x300104, 0, 0, 18, .wo, 0⟩
/-! GE_PROG_COMMIT (05_grant_engines.md) -/
def GE_PROG_COMMIT_status : Fld := ⟨0x300108, 0, 20, 4, .ro, 0⟩
def GE_PROG_COMMIT_retiring_valid : Fld := ⟨0x300108, 0, 16, 1, .ro, 0⟩
def GE_PROG_COMMIT_retiring_gen : Fld := ⟨0x300108, 0, 12, 4, .ro, 0⟩
def GE_PROG_COMMIT_cur_gen : Fld := ⟨0x300108, 0, 8, 4, .ro, 0⟩
def GE_PROG_COMMIT_commit : Fld := ⟨0x300108, 0, 0, 1, .wo, 0⟩
/-! GE_PROG_STATUS (05_grant_engines.md) -/
def GE_PROG_STATUS_stage_err : Fld := ⟨0x30010C, 0, 16, 1, .w1c, 0⟩
def GE_PROG_STATUS_staged_words : Fld := ⟨0x30010C, 0, 0, 15, .ro, 0⟩
/-! GE_TBL_CMD (05_grant_engines.md) -/
def GE_TBL_CMD_op : Fld := ⟨0x300200, 0, 28, 4, .wo, 0⟩
def GE_TBL_CMD_table : Fld := ⟨0x300200, 0, 25, 3, .wo, 0⟩
def GE_TBL_CMD_upper : Fld := ⟨0x300200, 0, 16, 1, .wo, 0⟩
def GE_TBL_CMD_index : Fld := ⟨0x300200, 0, 0, 16, .wo, 0⟩
/-! GE_TBL_STATUS (05_grant_engines.md) -/
def GE_TBL_STATUS_busy : Fld := ⟨0x300204, 0, 31, 1, .ro, 0⟩
def GE_TBL_STATUS_result : Fld := ⟨0x300204, 0, 24, 4, .ro, 0⟩
def GE_TBL_STATUS_index : Fld := ⟨0x300204, 0, 0, 16, .ro, 0⟩
/-! GE_TBL_DATA (05_grant_engines.md) -/
def GE_TBL_DATA_word : Fld := ⟨0x300210, 4, 0, 18, .rw, 0⟩
/-! GE_TREE_CFG (05_grant_engines.md) -/
def GE_TREE_CFG_entry : Fld := ⟨0x301000, 32, 8, 6, .rwg, 0⟩
def GE_TREE_CFG_keep_clr : Fld := ⟨0x301000, 32, 1, 1, .wo, 0⟩
def GE_TREE_CFG_gp_en : Fld := ⟨0x301000, 32, 0, 1, .rw, 0⟩
/-! GE_TREE_STATUS (05_grant_engines.md) -/
def GE_TREE_STATUS_last_reason : Fld := ⟨0x301004, 32, 24, 4, .ro, 0⟩
def GE_TREE_STATUS_consec_holds : Fld := ⟨0x301004, 32, 16, 8, .ro, 0⟩
def GE_TREE_STATUS_late_yields : Fld := ⟨0x301004, 32, 8, 8, .rc, 0⟩
def GE_TREE_STATUS_engine : Fld := ⟨0x301004, 32, 0, 5, .ro, 0⟩
/-! GE_TREE_BUDGET (05_grant_engines.md) -/
def GE_TREE_BUDGET_instr : Fld := ⟨0x301008, 32, 16, 16, .rs, 0⟩
def GE_TREE_BUDGET_seal_t : Fld := ⟨0x301008, 32, 0, 16, .rs, 0⟩
/-! GE_TREE_HOLD (05_grant_engines.md) -/
def GE_TREE_HOLD_holds : Fld := ⟨0x30100C, 32, 0, 32, .rc, 0⟩
/-! GE_TREE_CHECK (05_grant_engines.md) -/
def GE_TREE_CHECK_removed : Fld := ⟨0x301010, 32, 16, 16, .rc, 0⟩
/-! GE_TREE_FAULT (06_grant_instruction_set.md) -/
def GE_TREE_FAULT_faults : Fld := ⟨0x301014, 32, 24, 8, .rc, 0⟩
def GE_TREE_FAULT_code : Fld := ⟨0x301014, 32, 16, 4, .ro, 0⟩
def GE_TREE_FAULT_pc : Fld := ⟨0x301014, 32, 0, 14, .ro, 0⟩
/-! QS_CMD (08_queues_shaping_gates.md) -/
def QS_CMD_op : Fld := ⟨0x600000, 0, 28, 4, .wo, 0⟩
def QS_CMD_table : Fld := ⟨0x600000, 0, 24, 4, .wo, 0⟩
def QS_CMD_index : Fld := ⟨0x600000, 0, 0, 17, .wo, 0⟩
/-! QS_CMD_STATUS (08_queues_shaping_gates.md) -/
def QS_CMD_STATUS_busy : Fld := ⟨0x600004, 0, 31, 1, .ro, 0⟩
def QS_CMD_STATUS_result : Fld := ⟨0x600004, 0, 24, 4, .ro, 0⟩
def QS_CMD_STATUS_index : Fld := ⟨0x600004, 0, 0, 17, .ro, 0⟩
/-! QS_DATA (08_queues_shaping_gates.md) -/
def QS_DATA_word : Fld := ⟨0x600010, 4, 0, 18, .rw, 0⟩
/-! QS_SHAPE_COMMIT (08_queues_shaping_gates.md) -/
def QS_SHAPE_COMMIT_status : Fld := ⟨0x600040, 0, 20, 4, .ro, 0⟩
def QS_SHAPE_COMMIT_retiring_valid : Fld := ⟨0x600040, 0, 16, 1, .ro, 0⟩
def QS_SHAPE_COMMIT_retiring_gen : Fld := ⟨0x600040, 0, 12, 4, .ro, 0⟩
def QS_SHAPE_COMMIT_cur_gen : Fld := ⟨0x600040, 0, 8, 4, .ro, 0⟩
def QS_SHAPE_COMMIT_commit : Fld := ⟨0x600040, 0, 0, 1, .wo, 0⟩
/-! QS_GATE_COMMIT (08_queues_shaping_gates.md) -/
def QS_GATE_COMMIT_status : Fld := ⟨0x600044, 0, 20, 4, .ro, 0⟩
def QS_GATE_COMMIT_retiring_valid : Fld := ⟨0x600044, 0, 16, 1, .ro, 0⟩
def QS_GATE_COMMIT_retiring_gen : Fld := ⟨0x600044, 0, 12, 4, .ro, 0⟩
def QS_GATE_COMMIT_cur_gen : Fld := ⟨0x600044, 0, 8, 4, .ro, 0⟩
def QS_GATE_COMMIT_commit : Fld := ⟨0x600044, 0, 0, 1, .wo, 0⟩
/-! QS_STATUS (08_queues_shaping_gates.md) -/
def QS_STATUS_oversize_seen : Fld := ⟨0x600048, 0, 1, 1, .w1c, 0⟩
def QS_STATUS_down : Fld := ⟨0x600048, 0, 0, 1, .ro, 0⟩
/-! QS_GATE_ACTUAL (08_queues_shaping_gates.md) -/
def QS_GATE_ACTUAL_start_ns : Fld := ⟨0x601000, 4, 0, 32, .ro, 0⟩
/-! PC_CTRL (09_parse_cores.md) -/
def PC_CTRL_pass_limit : Fld := ⟨0x400000, 0, 24, 4, .rw, 4⟩
def PC_CTRL_pass_max : Fld := ⟨0x400000, 0, 10, 10, .rw, 256⟩
def PC_CTRL_hold_max : Fld := ⟨0x400000, 0, 0, 10, .rw, 20⟩
/-! PC_STATUS (09_parse_cores.md) -/
def PC_STATUS_active : Fld := ⟨0x400004, 0, 16, 8, .ro, 128⟩
def PC_STATUS_half_b_down : Fld := ⟨0x400004, 0, 2, 1, .ro, 0⟩
def PC_STATUS_half_a_down : Fld := ⟨0x400004, 0, 1, 1, .ro, 0⟩
def PC_STATUS_down : Fld := ⟨0x400004, 0, 0, 1, .ro, 0⟩
/-! PC_CORE_FENCED (09_parse_cores.md) -/
def PC_CORE_FENCED_fenced : Fld := ⟨0x400010, 4, 0, 32, .ro, 0⟩
/-! PC_CORE_CMD (09_parse_cores.md) -/
def PC_CORE_CMD_op : Fld := ⟨0x400020, 0, 30, 2, .wo, 0⟩
def PC_CORE_CMD_core : Fld := ⟨0x400020, 0, 0, 7, .wo, 0⟩
/-! PC_CORE_STATUS (09_parse_cores.md) -/
def PC_CORE_STATUS_busy : Fld := ⟨0x400024, 0, 31, 1, .ro, 0⟩
def PC_CORE_STATUS_result : Fld := ⟨0x400024, 0, 24, 4, .ro, 0⟩
def PC_CORE_STATUS_tally : Fld := ⟨0x400024, 0, 16, 8, .ro, 0⟩
def PC_CORE_STATUS_fenced : Fld := ⟨0x400024, 0, 7, 1, .ro, 0⟩
def PC_CORE_STATUS_core : Fld := ⟨0x400024, 0, 0, 7, .ro, 0⟩
/-! PC_FAULT (09_parse_cores.md) -/
def PC_FAULT_faults : Fld := ⟨0x400030, 0, 24, 8, .rc, 0⟩
def PC_FAULT_code : Fld := ⟨0x400030, 0, 16, 4, .ro, 0⟩
def PC_FAULT_pc : Fld := ⟨0x400030, 0, 0, 12, .ro, 0⟩
/-! PC_PROG_ADDR (09_parse_cores.md) -/
def PC_PROG_ADDR_addr : Fld := ⟨0x400100, 0, 0, 12, .rw, 0⟩
/-! PC_PROG_DATA_LO (09_parse_cores.md) -/
def PC_PROG_DATA_LO_word_lo : Fld := ⟨0x400104, 0, 0, 32, .wo, 0⟩
/-! PC_PROG_DATA_HI (09_parse_cores.md) -/
def PC_PROG_DATA_HI_word_hi : Fld := ⟨0x400108, 0, 0, 4, .wo, 0⟩
/-! PC_PROG_COMMIT (09_parse_cores.md) -/
def PC_PROG_COMMIT_status : Fld := ⟨0x40010C, 0, 20, 4, .ro, 0⟩
def PC_PROG_COMMIT_retiring_valid : Fld := ⟨0x40010C, 0, 16, 1, .ro, 0⟩
def PC_PROG_COMMIT_retiring_gen : Fld := ⟨0x40010C, 0, 12, 4, .ro, 0⟩
def PC_PROG_COMMIT_cur_gen : Fld := ⟨0x40010C, 0, 8, 4, .ro, 0⟩
def PC_PROG_COMMIT_commit : Fld := ⟨0x40010C, 0, 0, 1, .wo, 0⟩
/-! PC_PROG_STATUS (09_parse_cores.md) -/
def PC_PROG_STATUS_not_owner : Fld := ⟨0x400110, 0, 17, 1, .w1c, 0⟩
def PC_PROG_STATUS_stage_err : Fld := ⟨0x400110, 0, 16, 1, .w1c, 0⟩
def PC_PROG_STATUS_staged_words : Fld := ⟨0x400110, 0, 0, 13, .ro, 0⟩
/-! PC_SRC_ENTRY (09_parse_cores.md) -/
def PC_SRC_ENTRY_entry : Fld := ⟨0x401000, 4, 0, 4, .rwg, 0⟩
/-! CL_CMD (10_classification.md) -/
def CL_CMD_op : Fld := ⟨0x500000, 0, 28, 4, .wo, 0⟩
def CL_CMD_kind : Fld := ⟨0x500000, 0, 24, 4, .wo, 0⟩
def CL_CMD_tbl : Fld := ⟨0x500000, 0, 20, 4, .wo, 0⟩
/-! CL_CMD_STATUS (10_classification.md) -/
def CL_CMD_STATUS_busy : Fld := ⟨0x500004, 0, 31, 1, .ro, 0⟩
def CL_CMD_STATUS_result : Fld := ⟨0x500004, 0, 24, 4, .ro, 0⟩
/-! CL_INDEX (10_classification.md) -/
def CL_INDEX_index : Fld := ⟨0x500008, 0, 0, 32, .rw, 0⟩
/-! CL_ARG (10_classification.md) -/
def CL_ARG_staged_live : Fld := ⟨0x50000C, 0, 10, 1, .ro, 0⟩
def CL_ARG_live : Fld := ⟨0x50000C, 0, 9, 1, .ro, 0⟩
def CL_ARG_valid : Fld := ⟨0x50000C, 0, 8, 1, .rw, 0⟩
def CL_ARG_tenant : Fld := ⟨0x50000C, 0, 0, 8, .rw, 0⟩
/-! CL_DATA (10_classification.md) -/
def CL_DATA_word : Fld := ⟨0x500010, 4, 0, 18, .rw, 0⟩
/-! CL_KEY (10_classification.md) -/
def CL_KEY_bits : Fld := ⟨0x500040, 4, 0, 32, .rw, 0⟩
/-! CL_MASK (10_classification.md) -/
def CL_MASK_bits : Fld := ⟨0x500080, 4, 0, 32, .rw, 0⟩
/-! CL_ACT (10_classification.md) -/
def CL_ACT_bits : Fld := ⟨0x5000C0, 4, 0, 32, .rw, 0⟩
/-! CL_RULE_COMMIT (10_classification.md) -/
def CL_RULE_COMMIT_status : Fld := ⟨0x500100, 0, 20, 4, .ro, 0⟩
def CL_RULE_COMMIT_retiring_valid : Fld := ⟨0x500100, 0, 16, 1, .ro, 0⟩
def CL_RULE_COMMIT_retiring_gen : Fld := ⟨0x500100, 0, 12, 4, .ro, 0⟩
def CL_RULE_COMMIT_cur_gen : Fld := ⟨0x500100, 0, 8, 4, .ro, 0⟩
def CL_RULE_COMMIT_commit : Fld := ⟨0x500100, 0, 0, 1, .wo, 0⟩
/-! CL_STATUS (10_classification.md) -/
def CL_STATUS_pinned : Fld := ⟨0x500104, 0, 0, 17, .ro, 0⟩
/-! CL_MODE (10_classification.md) -/
def CL_MODE_cache_only : Fld := ⟨0x500108, 0, 1, 1, .ro, 0⟩
def CL_MODE_down : Fld := ⟨0x500108, 0, 0, 1, .ro, 0⟩
/-! CL_ERRCNT (10_classification.md) -/
def CL_ERRCNT_width_err : Fld := ⟨0x50010C, 0, 16, 16, .rc, 0⟩
def CL_ERRCNT_undef_tbl : Fld := ⟨0x50010C, 0, 0, 16, .rc, 0⟩
/-! BM_SPILL (11_buffers_memory.md) -/
def BM_SPILL_low_max : Fld := ⟨0x700000, 0, 18, 9, .rw, 384⟩
def BM_SPILL_spill_on : Fld := ⟨0x700000, 0, 9, 9, .rw, 256⟩
def BM_SPILL_spill_off : Fld := ⟨0x700000, 0, 0, 9, .rw, 240⟩
/-! BM_ADMIT (11_buffers_memory.md) -/
def BM_ADMIT_fetch_depth : Fld := ⟨0x700004, 0, 8, 4, .rw, 2⟩
def BM_ADMIT_arr_floor : Fld := ⟨0x700004, 0, 0, 8, .rw, 16⟩
/-! BM_OCC (11_buffers_memory.md) -/
def BM_OCC_occ : Fld := ⟨0x700008, 0, 0, 22, .rs, 0⟩
/-! BM_STATUS (11_buffers_memory.md) -/
def BM_STATUS_not_owner : Fld := ⟨0x70000C, 0, 8, 1, .w1c, 0⟩
def BM_STATUS_cfg_err : Fld := ⟨0x70000C, 0, 7, 1, .w1c, 0⟩
def BM_STATUS_spill_blocked : Fld := ⟨0x70000C, 0, 6, 1, .ro, 0⟩
def BM_STATUS_spilling : Fld := ⟨0x70000C, 0, 5, 1, .ro, 0⟩
def BM_STATUS_deep_degraded : Fld := ⟨0x70000C, 0, 4, 1, .ro, 0⟩
def BM_STATUS_relocating : Fld := ⟨0x70000C, 0, 3, 1, .ro, 0⟩
def BM_STATUS_testing : Fld := ⟨0x70000C, 0, 2, 1, .ro, 0⟩
def BM_STATUS_deep_down : Fld := ⟨0x70000C, 0, 1, 1, .ro, 0⟩
def BM_STATUS_down : Fld := ⟨0x70000C, 0, 0, 1, .ro, 0⟩
/-! BM_SPILL_STATUS (11_buffers_memory.md) -/
def BM_SPILL_STATUS_latched : Fld := ⟨0x700010, 0, 0, 17, .rs, 0⟩
/-! BM_REPAIR (11_buffers_memory.md) -/
def BM_REPAIR_retired : Fld := ⟨0x700020, 0, 16, 16, .ro, 0⟩
def BM_REPAIR_repaired : Fld := ⟨0x700020, 0, 0, 16, .ro, 0⟩
/-! BM_TEST_CMD (11_buffers_memory.md) -/
def BM_TEST_CMD_op : Fld := ⟨0x700030, 0, 30, 2, .wo, 0⟩
/-! BM_TEST_STATUS (11_buffers_memory.md) -/
def BM_TEST_STATUS_busy : Fld := ⟨0x700034, 0, 31, 1, .ro, 0⟩
def BM_TEST_STATUS_result : Fld := ⟨0x700034, 0, 24, 4, .ro, 0⟩
def BM_TEST_STATUS_fail_unit : Fld := ⟨0x700034, 0, 0, 16, .ro, 0⟩
/-! BM_SPILL_FREE (11_buffers_memory.md) -/
def BM_SPILL_FREE_free_pages : Fld := ⟨0x700100, 0, 0, 32, .rs, 0⟩
/-! BM_DEEP_CFG (11_buffers_memory.md) -/
def BM_DEEP_CFG_capacity : Fld := ⟨0x700104, 0, 16, 8, .ro, 0⟩
def BM_DEEP_CFG_density : Fld := ⟨0x700104, 0, 10, 2, .ro, 0⟩
def BM_DEEP_CFG_width : Fld := ⟨0x700104, 0, 8, 2, .ro, 0⟩
def BM_DEEP_CFG_ranks : Fld := ⟨0x700104, 0, 4, 4, .ro, 0⟩
def BM_DEEP_CFG_speed : Fld := ⟨0x700104, 0, 0, 2, .ro, 0⟩
/-! BM_DEEP_FENCED (11_buffers_memory.md) -/
def BM_DEEP_FENCED_fenced : Fld := ⟨0x700108, 0, 0, 16, .ro, 0⟩
/-! BM_DEEP_ERR (11_buffers_memory.md) -/
def BM_DEEP_ERR_corrected : Fld := ⟨0x70010C, 0, 16, 16, .rc, 0⟩
def BM_DEEP_ERR_uncorrectable : Fld := ⟨0x70010C, 0, 8, 8, .rc, 0⟩
def BM_DEEP_ERR_misaddress : Fld := ⟨0x70010C, 0, 0, 8, .rc, 0⟩
/-! BM_SCRUB_CFG (11_buffers_memory.md) -/
def BM_SCRUB_CFG_scrub_h : Fld := ⟨0x700110, 0, 16, 8, .rw, 24⟩
def BM_SCRUB_CFG_chip_s : Fld := ⟨0x700110, 0, 0, 8, .rw, 8⟩
/-! BM_SCRUB_STATUS (11_buffers_memory.md) -/
def BM_SCRUB_STATUS_deep_late : Fld := ⟨0x700114, 0, 31, 1, .w1c, 0⟩
def BM_SCRUB_STATUS_chip_late : Fld := ⟨0x700114, 0, 30, 1, .w1c, 0⟩
def BM_SCRUB_STATUS_progress : Fld := ⟨0x700114, 0, 0, 8, .rs, 0⟩
/-! TS_CTRL (12_time_base.md) -/
def TS_CTRL_pps_tol : Fld := ⟨0x780000, 0, 16, 16, .rw, 100⟩
def TS_CTRL_pps_pol : Fld := ⟨0x780000, 0, 2, 1, .rw, 0⟩
def TS_CTRL_align_go : Fld := ⟨0x780000, 0, 1, 1, .wo, 0⟩
def TS_CTRL_align_src : Fld := ⟨0x780000, 0, 0, 1, .rw, 0⟩
/-! TS_STATUS (12_time_base.md) -/
def TS_STATUS_down : Fld := ⟨0x780004, 0, 9, 1, .ro, 0⟩
def TS_STATUS_not_owner : Fld := ⟨0x780004, 0, 8, 1, .w1c, 0⟩
def TS_STATUS_cfg_err : Fld := ⟨0x780004, 0, 7, 1, .w1c, 0⟩
def TS_STATUS_align_err : Fld := ⟨0x780004, 0, 6, 1, .w1c, 0⟩
def TS_STATUS_adj_err : Fld := ⟨0x780004, 0, 5, 1, .w1c, 0⟩
def TS_STATUS_incr_err : Fld := ⟨0x780004, 0, 4, 1, .w1c, 0⟩
def TS_STATUS_adj_busy : Fld := ⟨0x780004, 0, 3, 1, .ro, 0⟩
def TS_STATUS_slaved : Fld := ⟨0x780004, 0, 2, 1, .ro, 0⟩
def TS_STATUS_pps_seen : Fld := ⟨0x780004, 0, 1, 1, .ro, 0⟩
def TS_STATUS_aligned : Fld := ⟨0x780004, 0, 0, 1, .ro, 0⟩
/-! TS_NOW (12_time_base.md) -/
def TS_NOW_now : Fld := ⟨0x780008, 0, 0, 64, .rs, 0⟩
/-! TS_INCR (12_time_base.md) -/
def TS_INCR_incr : Fld := ⟨0x780010, 0, 0, 48, .rw, 7069905013992⟩
/-! TS_ADJ (12_time_base.md) -/
def TS_ADJ_ns : Fld := ⟨0x780018, 0, 32, 32, .wo, 0⟩
def TS_ADJ_frac : Fld := ⟨0x780018, 0, 8, 24, .wo, 0⟩
/-! TS_FRAME_STAMP (12_time_base.md) -/
def TS_FRAME_STAMP_stamp : Fld := ⟨0x780020, 0, 0, 64, .rs, 0⟩
/-! TS_FRAME_CNT (12_time_base.md) -/
def TS_FRAME_CNT_count : Fld := ⟨0x780028, 0, 0, 32, .rs, 0⟩
/-! TS_FRAME_ALIGN (12_time_base.md) -/
def TS_FRAME_ALIGN_align_ns : Fld := ⟨0x78002C, 0, 0, 32, .rw, 0⟩
/-! TS_PPS_STAMP (12_time_base.md) -/
def TS_PPS_STAMP_stamp : Fld := ⟨0x780030, 0, 0, 64, .rs, 0⟩
/-! TS_PPS_ERR (12_time_base.md) -/
def TS_PPS_ERR_offset : Fld := ⟨0x780038, 0, 0, 32, .rs, 0⟩
/-! TS_WRAP_LAST (12_time_base.md) -/
def TS_WRAP_LAST_evseq : Fld := ⟨0x780040, 0, 32, 32, .rs, 0⟩
def TS_WRAP_LAST_dir : Fld := ⟨0x780040, 0, 31, 1, .rs, 0⟩
def TS_WRAP_LAST_count : Fld := ⟨0x780040, 0, 0, 8, .rs, 0⟩
/-! TS_WRAP_PREV (12_time_base.md) -/
def TS_WRAP_PREV_evseq : Fld := ⟨0x780048, 0, 32, 32, .rs, 0⟩
def TS_WRAP_PREV_dir : Fld := ⟨0x780048, 0, 31, 1, .rs, 0⟩
def TS_WRAP_PREV_count : Fld := ⟨0x780048, 0, 0, 8, .rs, 0⟩
/-! TS_TOD_CMD (12_time_base.md) -/
def TS_TOD_CMD_op : Fld := ⟨0x780100, 0, 30, 2, .wo, 0⟩
def TS_TOD_CMD_port : Fld := ⟨0x780100, 0, 0, 6, .wo, 0⟩
/-! TS_TOD_SFC (12_time_base.md) -/
def TS_TOD_SFC_sfc : Fld := ⟨0x780104, 0, 0, 32, .rw, 0⟩
/-! TS_TOD_STATUS (12_time_base.md) -/
def TS_TOD_STATUS_busy : Fld := ⟨0x780108, 0, 31, 1, .ro, 0⟩
def TS_TOD_STATUS_result : Fld := ⟨0x780108, 0, 24, 4, .ro, 0⟩
def TS_TOD_STATUS_pending : Fld := ⟨0x780108, 0, 17, 1, .ro, 0⟩
def TS_TOD_STATUS_changed : Fld := ⟨0x780108, 0, 16, 1, .w1c, 0⟩
def TS_TOD_STATUS_final : Fld := ⟨0x780108, 0, 15, 1, .ro, 0⟩
def TS_TOD_STATUS_port : Fld := ⟨0x780108, 0, 0, 6, .ro, 0⟩
/-! TS_TOD_REC (12_time_base.md) -/
def TS_TOD_REC_record : Fld := ⟨0x780110, 0, 0, 64, .rs, 0⟩
/-! TS_TERM_CMD (12_time_base.md) -/
def TS_TERM_CMD_term : Fld := ⟨0x780120, 0, 0, 14, .wo, 0⟩
/-! TS_TERM_DOWN (12_time_base.md) -/
def TS_TERM_DOWN_delay : Fld := ⟨0x780124, 0, 0, 32, .ro, 0⟩
/-! TS_TERM_UP (12_time_base.md) -/
def TS_TERM_UP_delay : Fld := ⟨0x780128, 0, 0, 32, .ro, 0⟩
/-! TS_PORT_LAT (12_time_base.md) -/
def TS_PORT_LAT_lat_in : Fld := ⟨0x781000, 8, 16, 16, .rw, 0⟩
def TS_PORT_LAT_lat_eg : Fld := ⟨0x781000, 8, 0, 16, .rw, 0⟩
/-! TS_PORT_ASYM (12_time_base.md) -/
def TS_PORT_ASYM_asym : Fld := ⟨0x781004, 8, 0, 32, .rw, 0⟩
/-! PR_PAIR_CFG (13_protection_cascade.md) -/
def PR_PAIR_CFG_revert_hold : Fld := ⟨0x7C0000, 0, 24, 8, .rw, 60⟩
def PR_PAIR_CFG_health_to : Fld := ⟨0x7C0000, 0, 16, 8, .rw, 100⟩
def PR_PAIR_CFG_revertive : Fld := ⟨0x7C0000, 0, 2, 1, .rw, 0⟩
def PR_PAIR_CFG_auto_yield : Fld := ⟨0x7C0000, 0, 1, 1, .rw, 0⟩
def PR_PAIR_CFG_pair_port : Fld := ⟨0x7C0000, 0, 0, 1, .rw, 0⟩
/-! PR_PAIR_STATUS (13_protection_cascade.md) -/
def PR_PAIR_STATUS_cairn_gen : Fld := ⟨0x7C0004, 0, 20, 4, .ro, 0⟩
def PR_PAIR_STATUS_sync : Fld := ⟨0x7C0004, 0, 16, 3, .ro, 0⟩
def PR_PAIR_STATUS_not_owner : Fld := ⟨0x7C0004, 0, 12, 1, .w1c, 0⟩
def PR_PAIR_STATUS_revert_armed : Fld := ⟨0x7C0004, 0, 11, 1, .ro, 0⟩
def PR_PAIR_STATUS_peer_seen : Fld := ⟨0x7C0004, 0, 10, 1, .ro, 0⟩
def PR_PAIR_STATUS_seen : Fld := ⟨0x7C0004, 0, 9, 1, .ro, 0⟩
def PR_PAIR_STATUS_claim : Fld := ⟨0x7C0004, 0, 8, 1, .ro, 0⟩
def PR_PAIR_STATUS_laser_en : Fld := ⟨0x7C0004, 0, 7, 1, .ro, 0⟩
def PR_PAIR_STATUS_down : Fld := ⟨0x7C0004, 0, 2, 1, .ro, 0⟩
def PR_PAIR_STATUS_role : Fld := ⟨0x7C0004, 0, 0, 2, .ro, 0⟩
/-! PR_PAIR_CMD (13_protection_cascade.md) -/
def PR_PAIR_CMD_op : Fld := ⟨0x7C0008, 0, 28, 4, .wo, 0⟩
/-! PR_PAIR_CMD_STATUS (13_protection_cascade.md) -/
def PR_PAIR_CMD_STATUS_busy : Fld := ⟨0x7C000C, 0, 31, 1, .ro, 0⟩
def PR_PAIR_CMD_STATUS_result : Fld := ⟨0x7C000C, 0, 24, 4, .ro, 0⟩
/-! PR_HEALTH (13_protection_cascade.md) -/
def PR_HEALTH_fenced_cores : Fld := ⟨0x7C0010, 0, 24, 8, .ro, 0⟩
def PR_HEALTH_failed_trees : Fld := ⟨0x7C0010, 0, 16, 8, .ro, 0⟩
def PR_HEALTH_time_ok : Fld := ⟨0x7C0010, 0, 12, 1, .ro, 0⟩
def PR_HEALTH_pace_ok : Fld := ⟨0x7C0010, 0, 11, 1, .ro, 0⟩
def PR_HEALTH_deep_ok : Fld := ⟨0x7C0010, 0, 10, 1, .ro, 0⟩
def PR_HEALTH_spare_ok : Fld := ⟨0x7C0010, 0, 9, 1, .ro, 0⟩
def PR_HEALTH_lanes_ok : Fld := ⟨0x7C0010, 0, 8, 1, .ro, 0⟩
def PR_HEALTH_selftest_ok : Fld := ⟨0x7C0010, 0, 7, 1, .ro, 0⟩
def PR_HEALTH_synced : Fld := ⟨0x7C0010, 0, 6, 1, .ro, 0⟩
def PR_HEALTH_yielding : Fld := ⟨0x7C0010, 0, 5, 1, .ro, 0⟩
def PR_HEALTH_claiming : Fld := ⟨0x7C0010, 0, 4, 1, .ro, 0⟩
def PR_HEALTH_state : Fld := ⟨0x7C0010, 0, 0, 3, .ro, 0⟩
/-! PR_PEER_HEALTH (13_protection_cascade.md) -/
def PR_PEER_HEALTH_fenced_cores : Fld := ⟨0x7C0014, 0, 24, 8, .ro, 0⟩
def PR_PEER_HEALTH_failed_trees : Fld := ⟨0x7C0014, 0, 16, 8, .ro, 0⟩
def PR_PEER_HEALTH_time_ok : Fld := ⟨0x7C0014, 0, 12, 1, .ro, 0⟩
def PR_PEER_HEALTH_pace_ok : Fld := ⟨0x7C0014, 0, 11, 1, .ro, 0⟩
def PR_PEER_HEALTH_deep_ok : Fld := ⟨0x7C0014, 0, 10, 1, .ro, 0⟩
def PR_PEER_HEALTH_spare_ok : Fld := ⟨0x7C0014, 0, 9, 1, .ro, 0⟩
def PR_PEER_HEALTH_lanes_ok : Fld := ⟨0x7C0014, 0, 8, 1, .ro, 0⟩
def PR_PEER_HEALTH_selftest_ok : Fld := ⟨0x7C0014, 0, 7, 1, .ro, 0⟩
def PR_PEER_HEALTH_synced : Fld := ⟨0x7C0014, 0, 6, 1, .ro, 0⟩
def PR_PEER_HEALTH_yielding : Fld := ⟨0x7C0014, 0, 5, 1, .ro, 0⟩
def PR_PEER_HEALTH_claiming : Fld := ⟨0x7C0014, 0, 4, 1, .ro, 0⟩
def PR_PEER_HEALTH_state : Fld := ⟨0x7C0014, 0, 0, 3, .ro, 0⟩
/-! PR_HEALTH_AGE (13_protection_cascade.md) -/
def PR_HEALTH_AGE_age : Fld := ⟨0x7C0018, 0, 0, 16, .rs, 65535⟩
/-! PR_ROPE_STATUS (13_protection_cascade.md) -/
def PR_ROPE_STATUS_width : Fld := ⟨0x7C0040, 4, 16, 4, .ro, 0⟩
def PR_ROPE_STATUS_lanes_up : Fld := ⟨0x7C0040, 4, 8, 8, .ro, 0⟩
def PR_ROPE_STATUS_peer_casc : Fld := ⟨0x7C0040, 4, 4, 2, .ro, 0⟩
def PR_ROPE_STATUS_peer_pair : Fld := ⟨0x7C0040, 4, 3, 1, .ro, 0⟩
def PR_ROPE_STATUS_pair_link : Fld := ⟨0x7C0040, 4, 2, 1, .ro, 0⟩
def PR_ROPE_STATUS_state : Fld := ⟨0x7C0040, 4, 0, 2, .ro, 0⟩
/-! PR_ROPE_ERR (13_protection_cascade.md) -/
def PR_ROPE_ERR_errored : Fld := ⟨0x7C0048, 4, 16, 16, .rc, 0⟩
def PR_ROPE_ERR_losses : Fld := ⟨0x7C0048, 4, 8, 8, .rc, 0⟩
def PR_ROPE_ERR_restripes : Fld := ⟨0x7C0048, 4, 0, 8, .rc, 0⟩
/-! PR_ROPE_ASYM (13_protection_cascade.md) -/
def PR_ROPE_ASYM_rope_asym : Fld := ⟨0x7C0050, 4, 0, 16, .rw, 0⟩
/-! PR_CASC_CFG (13_protection_cascade.md) -/
def PR_CASC_CFG_casc_id : Fld := ⟨0x7C0100, 0, 1, 2, .rw, 0⟩
def PR_CASC_CFG_casc_en : Fld := ⟨0x7C0100, 0, 0, 1, .rw, 0⟩
/-! PR_CASC_STATUS (13_protection_cascade.md) -/
def PR_CASC_STATUS_members : Fld := ⟨0x7C0104, 0, 8, 4, .ro, 0⟩
def PR_CASC_STATUS_holdover : Fld := ⟨0x7C0104, 0, 7, 1, .ro, 0⟩
def PR_CASC_STATUS_conflict : Fld := ⟨0x7C0104, 0, 6, 1, .ro, 0⟩
def PR_CASC_STATUS_hops : Fld := ⟨0x7C0104, 0, 4, 2, .ro, 0⟩
def PR_CASC_STATUS_anchor_valid : Fld := ⟨0x7C0104, 0, 3, 1, .ro, 0⟩
def PR_CASC_STATUS_is_anchor : Fld := ⟨0x7C0104, 0, 2, 1, .ro, 0⟩
def PR_CASC_STATUS_anchor : Fld := ⟨0x7C0104, 0, 0, 2, .ro, 0⟩
/-! PR_CASC_MEMBER (13_protection_cascade.md) -/
def PR_CASC_MEMBER_record : Fld := ⟨0x7C0110, 4, 0, 32, .rs, 0⟩
/-! PR_TREE_SKEW (13_protection_cascade.md) -/
def PR_TREE_SKEW_skew_rt : Fld := ⟨0x7C1000, 4, 16, 16, .ro, 0⟩
def PR_TREE_SKEW_skew_in : Fld := ⟨0x7C1000, 4, 0, 16, .ro, 0⟩
/-! GLB_MBX_CTRL (14_service_levels.md) -/
def GLB_MBX_CTRL_go : Fld := ⟨0x1000, 0, 0, 1, .wo, 0⟩
/-! GLB_MBX_STATUS (14_service_levels.md) -/
def GLB_MBX_STATUS_pending : Fld := ⟨0x1004, 0, 24, 4, .ro, 0⟩
def GLB_MBX_STATUS_result : Fld := ⟨0x1004, 0, 16, 8, .ro, 0⟩
def GLB_MBX_STATUS_tag : Fld := ⟨0x1004, 0, 8, 8, .ro, 0⟩
def GLB_MBX_STATUS_halted : Fld := ⟨0x1004, 0, 2, 1, .ro, 0⟩
def GLB_MBX_STATUS_running : Fld := ⟨0x1004, 0, 1, 1, .ro, 0⟩
def GLB_MBX_STATUS_busy : Fld := ⟨0x1004, 0, 0, 1, .ro, 0⟩
/-! GLB_MBX_REQ (14_service_levels.md) -/
def GLB_MBX_REQ_word : Fld := ⟨0x1100, 4, 0, 32, .rw, 0⟩
/-! GLB_MBX_RSP (14_service_levels.md) -/
def GLB_MBX_RSP_word : Fld := ⟨0x1200, 4, 0, 32, .ro, 0⟩
/-! SL_CTRL (15_serial_lanes.md) -/
def SL_CTRL_cal_period : Fld := ⟨0x800000, 0, 8, 10, .rw, 1000⟩
def SL_CTRL_ul_mode : Fld := ⟨0x800000, 0, 0, 2, .rw, 0⟩
/-! SL_STATUS (15_serial_lanes.md) -/
def SL_STATUS_not_owner : Fld := ⟨0x800004, 0, 1, 1, .w1c, 0⟩
def SL_STATUS_down : Fld := ⟨0x800004, 0, 0, 1, .ro, 0⟩
/-! SL_CMD (15_serial_lanes.md) -/
def SL_CMD_op : Fld := ⟨0x800010, 0, 28, 4, .wo, 0⟩
def SL_CMD_lane : Fld := ⟨0x800010, 0, 0, 8, .wo, 0⟩
/-! SL_CMD_STATUS (15_serial_lanes.md) -/
def SL_CMD_STATUS_busy : Fld := ⟨0x800014, 0, 31, 1, .ro, 0⟩
def SL_CMD_STATUS_result : Fld := ⟨0x800014, 0, 24, 4, .ro, 0⟩
def SL_CMD_STATUS_lane : Fld := ⟨0x800014, 0, 0, 8, .ro, 0⟩
/-! SL_UL_STATUS (15_serial_lanes.md) -/
def SL_UL_STATUS_aligned : Fld := ⟨0x800100, 4, 8, 8, .ro, 0⟩
def SL_UL_STATUS_exists : Fld := ⟨0x800100, 4, 1, 1, .ro, 1⟩
def SL_UL_STATUS_up : Fld := ⟨0x800100, 4, 0, 1, .ro, 0⟩
/-! SL_UL_FEC (15_serial_lanes.md) -/
def SL_UL_FEC_corrected : Fld := ⟨0x800200, 4, 16, 16, .rc, 0⟩
def SL_UL_FEC_uncorrectable : Fld := ⟨0x800200, 4, 0, 16, .rc, 0⟩
/-! SL_LANE_CTRL (15_serial_lanes.md) -/
def SL_LANE_CTRL_inj_rate : Fld := ⟨0x810000, 64, 16, 4, .rw, 0⟩
def SL_LANE_CTRL_inj_one : Fld := ⟨0x810000, 64, 15, 1, .wo, 0⟩
def SL_LANE_CTRL_pat : Fld := ⟨0x810000, 64, 8, 4, .rw, 0⟩
def SL_LANE_CTRL_chk_en : Fld := ⟨0x810000, 64, 7, 1, .rw, 0⟩
def SL_LANE_CTRL_gen_en : Fld := ⟨0x810000, 64, 6, 1, .rw, 0⟩
def SL_LANE_CTRL_loop : Fld := ⟨0x810000, 64, 4, 2, .rw, 0⟩
def SL_LANE_CTRL_en : Fld := ⟨0x810000, 64, 0, 1, .rw, 0⟩
/-! SL_LANE_USER (15_serial_lanes.md) -/
def SL_LANE_USER_word : Fld := ⟨0x810004, 64, 0, 32, .rw, 0⟩
/-! SL_LANE_STATUS (15_serial_lanes.md) -/
def SL_LANE_STATUS_tally : Fld := ⟨0x810008, 64, 16, 8, .ro, 0⟩
def SL_LANE_STATUS_chk_lock : Fld := ⟨0x810008, 64, 10, 1, .ro, 0⟩
def SL_LANE_STATUS_group_lock : Fld := ⟨0x810008, 64, 9, 1, .ro, 0⟩
def SL_LANE_STATUS_cdr_lock : Fld := ⟨0x810008, 64, 8, 1, .ro, 0⟩
def SL_LANE_STATUS_state : Fld := ⟨0x810008, 64, 0, 3, .ro, 0⟩
/-! SL_LANE_ERRS (15_serial_lanes.md) -/
def SL_LANE_ERRS_errors : Fld := ⟨0x81000C, 64, 0, 32, .rc, 0⟩
/-! SL_LANE_CAL (15_serial_lanes.md) -/
def SL_LANE_CAL_steps : Fld := ⟨0x810010, 64, 8, 8, .ro, 0⟩
def SL_LANE_CAL_cal_late : Fld := ⟨0x810010, 64, 7, 1, .w1c, 0⟩
def SL_LANE_CAL_cal_fail : Fld := ⟨0x810010, 64, 6, 1, .w1c, 0⟩
def SL_LANE_CAL_running : Fld := ⟨0x810010, 64, 0, 1, .ro, 0⟩
/-! HD_STATUS (16_host_dma.md) -/
def HD_STATUS_width : Fld := ⟨0x900000, 0, 11, 4, .ro, 0⟩
def HD_STATUS_speed : Fld := ⟨0x900000, 0, 8, 3, .ro, 0⟩
def HD_STATUS_cfg_err : Fld := ⟨0x900000, 0, 3, 1, .w1c, 0⟩
def HD_STATUS_not_owner : Fld := ⟨0x900000, 0, 2, 1, .w1c, 0⟩
def HD_STATUS_vf_enabled : Fld := ⟨0x900000, 0, 1, 1, .ro, 0⟩
def HD_STATUS_down : Fld := ⟨0x900000, 0, 0, 1, .ro, 0⟩
/-! HD_VF_CFG (16_host_dma.md) -/
def HD_VF_CFG_en : Fld := ⟨0x900100, 4, 8, 1, .rw, 0⟩
def HD_VF_CFG_tenant : Fld := ⟨0x900100, 4, 0, 8, .rw, 0⟩
/-! HD_VEC_MAP (16_host_dma.md) -/
def HD_VEC_MAP_valid : Fld := ⟨0x900200, 4, 7, 1, .rw, 0⟩
def HD_VEC_MAP_fn : Fld := ⟨0x900200, 4, 0, 7, .rw, 0⟩
/-! HD_CH_CMD (16_host_dma.md) -/
def HD_CH_CMD_op : Fld := ⟨0x900300, 0, 30, 2, .wo, 0⟩
def HD_CH_CMD_chan : Fld := ⟨0x900300, 0, 0, 5, .wo, 0⟩
/-! HD_CH_CMD_STATUS (16_host_dma.md) -/
def HD_CH_CMD_STATUS_busy : Fld := ⟨0x900304, 0, 31, 1, .ro, 0⟩
def HD_CH_CMD_STATUS_result : Fld := ⟨0x900304, 0, 24, 4, .ro, 0⟩
def HD_CH_CMD_STATUS_chan : Fld := ⟨0x900304, 0, 0, 5, .ro, 0⟩
/-! HD_CH_CTRL (16_host_dma.md) -/
def HD_CH_CTRL_prio : Fld := ⟨0x901000, 16, 4, 3, .rw, 7⟩
def HD_CH_CTRL_ro_en : Fld := ⟨0x901000, 16, 3, 1, .rw, 0⟩
def HD_CH_CTRL_ns_en : Fld := ⟨0x901000, 16, 2, 1, .rw, 0⟩
def HD_CH_CTRL_pause : Fld := ⟨0x901000, 16, 1, 1, .rw, 0⟩
def HD_CH_CTRL_en : Fld := ⟨0x901000, 16, 0, 1, .rw, 0⟩
/-! HD_CH_STATUS (16_host_dma.md) -/
def HD_CH_STATUS_tally : Fld := ⟨0x901004, 16, 16, 8, .ro, 0⟩
def HD_CH_STATUS_reads : Fld := ⟨0x901004, 16, 8, 8, .ro, 0⟩
def HD_CH_STATUS_preempted : Fld := ⟨0x901004, 16, 3, 1, .ro, 0⟩
def HD_CH_STATUS_state : Fld := ⟨0x901004, 16, 0, 3, .ro, 0⟩
/-! HD_CH_POS (16_host_dma.md) -/
def HD_CH_POS_ring : Fld := ⟨0x901008, 16, 20, 12, .rs, 0⟩
def HD_CH_POS_bytes : Fld := ⟨0x901008, 16, 0, 16, .rs, 0⟩
/-! HD_CH_DESC (16_host_dma.md) -/
def HD_CH_DESC_desc : Fld := ⟨0x90100C, 16, 0, 16, .rs, 0⟩
/-! HD_RING_CFG (16_host_dma.md) -/
def HD_RING_CFG_owner : Fld := ⟨0x980000, 32, 17, 7, .rw, 0⟩
def HD_RING_CFG_chan : Fld := ⟨0x980000, 32, 12, 5, .rw, 0⟩
def HD_RING_CFG_log2_size : Fld := ⟨0x980000, 32, 8, 4, .rw, 0⟩
def HD_RING_CFG_kind : Fld := ⟨0x980000, 32, 1, 2, .rw, 0⟩
def HD_RING_CFG_en : Fld := ⟨0x980000, 32, 0, 1, .rw, 0⟩
/-! HD_RING_BASE (16_host_dma.md) -/
def HD_RING_BASE_base : Fld := ⟨0x980004, 32, 12, 52, .rw, 0⟩
/-! HD_RING_BUF (16_host_dma.md) -/
def HD_RING_BUF_irq_us : Fld := ⟨0x98000C, 32, 16, 16, .rw, 16⟩
def HD_RING_BUF_irq_cnt : Fld := ⟨0x98000C, 32, 8, 8, .rw, 1⟩
def HD_RING_BUF_buf_units : Fld := ⟨0x98000C, 32, 0, 8, .rw, 4⟩
/-! HD_RING_IRQ (16_host_dma.md) -/
def HD_RING_IRQ_blk_mask : Fld := ⟨0x980010, 32, 15, 15, .rw, 32767⟩
def HD_RING_IRQ_irq_en : Fld := ⟨0x980010, 32, 13, 1, .rw, 0⟩
def HD_RING_IRQ_irq_src : Fld := ⟨0x980010, 32, 0, 13, .rw, 0⟩
/-! HD_RING_HEAD (16_host_dma.md) -/
def HD_RING_HEAD_head : Fld := ⟨0x980014, 32, 0, 16, .rw, 0⟩
/-! HD_RING_TAIL (16_host_dma.md) -/
def HD_RING_TAIL_tail : Fld := ⟨0x980018, 32, 0, 16, .rw, 0⟩
/-! HD_RING_STATUS (16_host_dma.md) -/
def HD_RING_STATUS_drops : Fld := ⟨0x98001C, 32, 16, 16, .rc, 0⟩
def HD_RING_STATUS_chan_down : Fld := ⟨0x98001C, 32, 3, 1, .ro, 0⟩
def HD_RING_STATUS_error : Fld := ⟨0x98001C, 32, 2, 1, .w1c, 0⟩
def HD_RING_STATUS_full : Fld := ⟨0x98001C, 32, 1, 1, .ro, 0⟩
def HD_RING_STATUS_running : Fld := ⟨0x98001C, 32, 0, 1, .ro, 0⟩
/-! IC_DOORBELL (17_interrupts.md) -/
def IC_DOORBELL_source : Fld := ⟨0xA00000, 0, 0, 13, .wo, 0⟩
/-! IC_STATUS (17_interrupts.md) -/
def IC_STATUS_cfg_err : Fld := ⟨0xA00004, 0, 3, 1, .w1c, 0⟩
def IC_STATUS_not_owner : Fld := ⟨0xA00004, 0, 2, 1, .w1c, 0⟩
def IC_STATUS_refused : Fld := ⟨0xA00004, 0, 1, 1, .w1c, 0⟩
def IC_STATUS_down : Fld := ⟨0xA00004, 0, 0, 1, .ro, 0⟩
/-! IC_SRC_CFG (17_interrupts.md) -/
def IC_SRC_CFG_en : Fld := ⟨0xA10000, 4, 31, 1, .rw, 0⟩
def IC_SRC_CFG_pending : Fld := ⟨0xA10000, 4, 30, 1, .w1c, 0⟩
def IC_SRC_CFG_active : Fld := ⟨0xA10000, 4, 29, 1, .ro, 0⟩
def IC_SRC_CFG_watched : Fld := ⟨0xA10000, 4, 28, 1, .ro, 0⟩
def IC_SRC_CFG_target : Fld := ⟨0xA10000, 4, 8, 7, .rw, 0⟩
def IC_SRC_CFG_prio : Fld := ⟨0xA10000, 4, 0, 4, .rw, 0⟩
/-! IC_TGT_THRESH (17_interrupts.md) -/
def IC_TGT_THRESH_thresh : Fld := ⟨0xA20000, 16, 0, 4, .rw, 0⟩
/-! IC_TGT_CLAIM (17_interrupts.md) -/
def IC_TGT_CLAIM_valid : Fld := ⟨0xA20004, 16, 31, 1, .rc, 0⟩
def IC_TGT_CLAIM_prio : Fld := ⟨0xA20004, 16, 16, 4, .rc, 0⟩
def IC_TGT_CLAIM_source : Fld := ⟨0xA20004, 16, 0, 13, .rc, 0⟩
/-! IC_TGT_COMPLETE (17_interrupts.md) -/
def IC_TGT_COMPLETE_source : Fld := ⟨0xA20008, 16, 0, 13, .wo, 0⟩
/-! IC_TGT_STATUS (17_interrupts.md) -/
def IC_TGT_STATUS_depth : Fld := ⟨0xA2000C, 16, 20, 4, .ro, 0⟩
def IC_TGT_STATUS_cur_thresh : Fld := ⟨0xA2000C, 16, 16, 4, .ro, 0⟩
def IC_TGT_STATUS_order_err : Fld := ⟨0xA2000C, 16, 3, 1, .w1c, 0⟩
def IC_TGT_STATUS_auto : Fld := ⟨0xA2000C, 16, 2, 1, .ro, 0⟩
def IC_TGT_STATUS_sleeping : Fld := ⟨0xA2000C, 16, 1, 1, .ro, 0⟩
def IC_TGT_STATUS_deliverable : Fld := ⟨0xA2000C, 16, 0, 1, .ro, 0⟩
/-! IC_WATCH (17_interrupts.md) -/
def IC_WATCH_valid : Fld := ⟨0xA30000, 4, 31, 1, .rw, 0⟩
def IC_WATCH_wake_run : Fld := ⟨0xA30000, 4, 30, 1, .rw, 0⟩
def IC_WATCH_source : Fld := ⟨0xA30000, 4, 0, 13, .rw, 0⟩
/-! PM_CTRL (18_counters.md) -/
def PM_CTRL_window_us : Fld := ⟨0xA80000, 0, 0, 16, .rw, 1000⟩
/-! PM_STATUS (18_counters.md) -/
def PM_STATUS_not_owner : Fld := ⟨0xA80004, 0, 2, 1, .w1c, 0⟩
def PM_STATUS_cfg_err : Fld := ⟨0xA80004, 0, 1, 1, .w1c, 0⟩
def PM_STATUS_down : Fld := ⟨0xA80004, 0, 0, 1, .ro, 0⟩
/-! PM_RK_WINDOW (18_counters.md) -/
def PM_RK_WINDOW_window : Fld := ⟨0xA80008, 0, 0, 32, .rs, 0⟩
/-! PM_RK_STAMP (18_counters.md) -/
def PM_RK_STAMP_stamp : Fld := ⟨0xA80010, 0, 0, 64, .rs, 0⟩
/-! PM_BEAD_CFG (18_counters.md) -/
def PM_BEAD_CFG_tenant : Fld := ⟨0xA90000, 32, 20, 8, .rw, 0⟩
def PM_BEAD_CFG_clr : Fld := ⟨0xA90000, 32, 19, 1, .wo, 0⟩
def PM_BEAD_CFG_tenant_vis : Fld := ⟨0xA90000, 32, 18, 1, .rw, 0⟩
def PM_BEAD_CFG_tenant_en : Fld := ⟨0xA90000, 32, 17, 1, .rw, 0⟩
def PM_BEAD_CFG_mode : Fld := ⟨0xA90000, 32, 16, 1, .rw, 0⟩
def PM_BEAD_CFG_event : Fld := ⟨0xA90000, 32, 0, 16, .rw, 0⟩
/-! PM_BEAD_VAL (18_counters.md) -/
def PM_BEAD_VAL_epoch : Fld := ⟨0xA90008, 32, 56, 8, .rs, 0⟩
def PM_BEAD_VAL_gone : Fld := ⟨0xA90008, 32, 49, 1, .rs, 0⟩
def PM_BEAD_VAL_sat : Fld := ⟨0xA90008, 32, 48, 1, .rs, 0⟩
def PM_BEAD_VAL_value : Fld := ⟨0xA90008, 32, 0, 48, .rs, 0⟩
/-! PM_BEAD_WIN (18_counters.md) -/
def PM_BEAD_WIN_epoch : Fld := ⟨0xA90010, 32, 56, 8, .rs, 0⟩
def PM_BEAD_WIN_gone : Fld := ⟨0xA90010, 32, 49, 1, .rs, 0⟩
def PM_BEAD_WIN_sat : Fld := ⟨0xA90010, 32, 48, 1, .rs, 0⟩
def PM_BEAD_WIN_value : Fld := ⟨0xA90010, 32, 0, 48, .rs, 0⟩
/-! PM_RK_METER (18_counters.md) -/
def PM_RK_METER_bytes : Fld := ⟨0xAA0000, 8, 32, 32, .rs, 0⟩
def PM_RK_METER_valid : Fld := ⟨0xAA0000, 8, 31, 1, .rs, 0⟩
def PM_RK_METER_mbps : Fld := ⟨0xAA0000, 8, 0, 31, .rs, 0⟩
/-! PW_BOOT_STATUS (19_power_reset_boot.md) -/
def PW_BOOT_STATUS_error : Fld := ⟨0xB00000, 0, 28, 4, .ro, 0⟩
def PW_BOOT_STATUS_stage : Fld := ⟨0xB00000, 0, 24, 4, .ro, 0⟩
def PW_BOOT_STATUS_fallback : Fld := ⟨0xB00000, 0, 22, 1, .ro, 0⟩
def PW_BOOT_STATUS_deep_ok : Fld := ⟨0xB00000, 0, 21, 1, .ro, 0⟩
def PW_BOOT_STATUS_imhus : Fld := ⟨0xB00000, 0, 19, 2, .ro, 0⟩
def PW_BOOT_STATUS_auth_req : Fld := ⟨0xB00000, 0, 18, 1, .ro, 0⟩
def PW_BOOT_STATUS_boot_src : Fld := ⟨0xB00000, 0, 17, 1, .ro, 0⟩
def PW_BOOT_STATUS_eng_fail : Fld := ⟨0xB00000, 0, 12, 5, .ro, 0⟩
def PW_BOOT_STATUS_core_fail : Fld := ⟨0xB00000, 0, 0, 8, .ro, 0⟩
/-! PW_RESET_CMD (19_power_reset_boot.md) -/
def PW_RESET_CMD_key : Fld := ⟨0xB00010, 0, 24, 8, .wo, 0⟩
def PW_RESET_CMD_op : Fld := ⟨0xB00010, 0, 20, 4, .wo, 0⟩
def PW_RESET_CMD_block : Fld := ⟨0xB00010, 0, 0, 4, .wo, 0⟩
/-! PW_RESET_STATUS (19_power_reset_boot.md) -/
def PW_RESET_STATUS_busy : Fld := ⟨0xB00014, 0, 31, 1, .ro, 0⟩
def PW_RESET_STATUS_result : Fld := ⟨0xB00014, 0, 24, 4, .ro, 0⟩
/-! PW_RESET_CAUSE (19_power_reset_boot.md) -/
def PW_RESET_CAUSE_safe_cause : Fld := ⟨0xB00018, 0, 4, 4, .ro, 0⟩
def PW_RESET_CAUSE_kind : Fld := ⟨0xB00018, 0, 0, 3, .ro, 0⟩
/-! PW_DOM_CMD (19_power_reset_boot.md) -/
def PW_DOM_CMD_op : Fld := ⟨0xB00020, 0, 28, 4, .wo, 0⟩
def PW_DOM_CMD_domain : Fld := ⟨0xB00020, 0, 0, 4, .wo, 0⟩
/-! PW_DOM_CMD_STATUS (19_power_reset_boot.md) -/
def PW_DOM_CMD_STATUS_busy : Fld := ⟨0xB00024, 0, 31, 1, .ro, 0⟩
def PW_DOM_CMD_STATUS_result : Fld := ⟨0xB00024, 0, 24, 4, .ro, 0⟩
def PW_DOM_CMD_STATUS_domain : Fld := ⟨0xB00024, 0, 0, 4, .ro, 0⟩
/-! PW_DOM_STATUS (19_power_reset_boot.md) -/
def PW_DOM_STATUS_held : Fld := ⟨0xB00028, 0, 15, 8, .ro, 0⟩
def PW_DOM_STATUS_down : Fld := ⟨0xB00028, 0, 0, 15, .ro, 0⟩
/-! PW_DOM_CFG (19_power_reset_boot.md) -/
def PW_DOM_CFG_bivouac_mask : Fld := ⟨0xB0002C, 0, 24, 8, .rw, 255⟩
def PW_DOM_CFG_biv_half_b : Fld := ⟨0xB0002C, 0, 16, 1, .rw, 1⟩
def PW_DOM_CFG_dom_timeout : Fld := ⟨0xB0002C, 0, 0, 16, .rw, 1000⟩
/-! PW_AVS_CFG (19_power_reset_boot.md) -/
def PW_AVS_CFG_margin_hi : Fld := ⟨0xB00040, 0, 16, 16, .rw, 410⟩
def PW_AVS_CFG_margin_lo : Fld := ⟨0xB00040, 0, 0, 16, .rw, 205⟩
/-! PW_AVS_LIMIT (19_power_reset_boot.md) -/
def PW_AVS_LIMIT_v_max : Fld := ⟨0xB00044, 0, 10, 10, .rw, 850⟩
def PW_AVS_LIMIT_v_min : Fld := ⟨0xB00044, 0, 0, 10, .rw, 680⟩
/-! PW_AVS_STATUS (19_power_reset_boot.md) -/
def PW_AVS_STATUS_at_max : Fld := ⟨0xB00048, 0, 31, 1, .ro, 0⟩
def PW_AVS_STATUS_bus_fault : Fld := ⟨0xB00048, 0, 30, 1, .ro, 0⟩
def PW_AVS_STATUS_i_now : Fld := ⟨0xB00048, 0, 16, 14, .rs, 0⟩
def PW_AVS_STATUS_v_now : Fld := ⟨0xB00048, 0, 0, 10, .rs, 800⟩
/-! PW_THERM_CFG (19_power_reset_boot.md) -/
def PW_THERM_CFG_trip : Fld := ⟨0xB00080, 0, 8, 8, .rw, 115⟩
def PW_THERM_CFG_warn : Fld := ⟨0xB00080, 0, 0, 8, .rw, 100⟩
/-! PW_THERM_STATUS (19_power_reset_boot.md) -/
def PW_THERM_STATUS_warn_seen : Fld := ⟨0xB00084, 0, 17, 1, .w1c, 0⟩
def PW_THERM_STATUS_warn : Fld := ⟨0xB00084, 0, 16, 1, .ro, 0⟩
def PW_THERM_STATUS_sensor : Fld := ⟨0xB00084, 0, 8, 3, .rs, 0⟩
def PW_THERM_STATUS_temp : Fld := ⟨0xB00084, 0, 0, 8, .rs, 0⟩
/-! PW_MON (19_power_reset_boot.md) -/
def PW_MON_domain : Fld := ⟨0xB00100, 4, 20, 4, .ro, 0⟩
def PW_MON_excluded : Fld := ⟨0xB00100, 4, 16, 1, .ro, 0⟩
def PW_MON_margin : Fld := ⟨0xB00100, 4, 0, 16, .rs, 0⟩
/-! PW_BOOT_ADDR (19_power_reset_boot.md) -/
def PW_BOOT_ADDR_addr : Fld := ⟨0xB00200, 0, 0, 32, .rw, 0⟩
/-! PW_BOOT_DATA (19_power_reset_boot.md) -/
def PW_BOOT_DATA_data : Fld := ⟨0xB00204, 0, 0, 32, .wo, 0⟩
/-! PW_BOOT_GO (19_power_reset_boot.md) -/
def PW_BOOT_GO_go : Fld := ⟨0xB00208, 0, 0, 1, .wo, 0⟩
end F

/-- The registers of the GLB block. -/
def regsGLB : List RegD := [
  ⟨0x10, 1, 4, true, [F.GLB_FEAT_OFFER_offer]⟩,
  ⟨0x18, 1, 4, true, [F.GLB_FEAT_ACCEPT_accept]⟩,
  ⟨0x20, 1, 4, false, [F.GLB_FEAT_LOCK_failing_bit, F.GLB_FEAT_LOCK_lock_status, F.GLB_FEAT_LOCK_lock]⟩,
  ⟨0x28, 1, 4, false, [F.GLB_MODE_cur_mode_valid, F.GLB_MODE_cur_mode, F.GLB_MODE_mode]⟩,
  ⟨0x30, 1, 4, false, [F.GLB_STATE_last_status, F.GLB_STATE_busy, F.GLB_STATE_state]⟩,
  ⟨0x34, 1, 4, false, [F.GLB_STATE_REQ_target]⟩,
  ⟨0x50, 1, 4, false, [F.GLB_PACE_below_floor, F.GLB_PACE_worst_monitor, F.GLB_PACE_margin]⟩,
  ⟨0x40, 1, 4, false, [F.GLB_EVSEQ_last_evseq]⟩,
  ⟨0x48, 1, 4, false, [F.GLB_TALLY_CFG_window_ms, F.GLB_TALLY_CFG_threshold]⟩,
  ⟨0x0, 1, 4, false, [F.GLB_ID_part, F.GLB_ID_stepping, F.GLB_ID_pair_id]⟩,
  ⟨0x1000, 1, 4, false, [F.GLB_MBX_CTRL_go]⟩,
  ⟨0x1004, 1, 4, false, [F.GLB_MBX_STATUS_pending, F.GLB_MBX_STATUS_result, F.GLB_MBX_STATUS_tag, F.GLB_MBX_STATUS_halted, F.GLB_MBX_STATUS_running, F.GLB_MBX_STATUS_busy]⟩,
  ⟨0x1100, 64, 4, false, [F.GLB_MBX_REQ_word]⟩,
  ⟨0x1200, 64, 4, false, [F.GLB_MBX_RSP_word]⟩]

/-- The registers of the TP block. -/
def regsTP : List RegD := [
  ⟨0x100000, 64, 16384, false, [F.TP_CTRL_key_grace, F.TP_CTRL_pair_us_shared, F.TP_CTRL_pair_en, F.TP_CTRL_ds_mode, F.TP_CTRL_port_en]⟩,
  ⟨0x100004, 64, 16384, false, [F.TP_STATUS_defects, F.TP_STATUS_en_status, F.TP_STATUS_down, F.TP_STATUS_paired, F.TP_STATUS_laser_on, F.TP_STATUS_running]⟩,
  ⟨0x100008, 64, 16384, true, [F.TP_PONID_pon_id]⟩,
  ⟨0x100010, 64, 16384, true, [F.TP_SFC_sfc]⟩,
  ⟨0x100018, 64, 16384, false, [F.TP_DEFECT_mask, F.TP_DEFECT_latched]⟩,
  ⟨0x100040, 64, 16384, false, [F.TP_KEY_CMD_op, F.TP_KEY_CMD_group, F.TP_KEY_CMD_slot, F.TP_KEY_CMD_term]⟩,
  ⟨0x100044, 64, 16384, false, [F.TP_KEY_DATA0_key]⟩,
  ⟨0x100048, 64, 16384, false, [F.TP_KEY_DATA1_key]⟩,
  ⟨0x10004C, 64, 16384, false, [F.TP_KEY_DATA2_key]⟩,
  ⟨0x100050, 64, 16384, false, [F.TP_KEY_DATA3_key]⟩,
  ⟨0x100054, 64, 16384, false, [F.TP_KEY_SFC_switch_sfc]⟩,
  ⟨0x100058, 64, 16384, false, [F.TP_KEY_STATUS_busy, F.TP_KEY_STATUS_result, F.TP_KEY_STATUS_pending, F.TP_KEY_STATUS_active_slot, F.TP_KEY_STATUS_valid1, F.TP_KEY_STATUS_valid0, F.TP_KEY_STATUS_term]⟩,
  ⟨0x10005C, 64, 16384, false, [F.TP_KEY_ACTUAL_actual_sfc]⟩]

/-- The registers of the UB block. -/
def regsUB : List RegD := [
  ⟨0x200000, 1, 4, false, [F.UB_CTRL_age_limit, F.UB_CTRL_iter_max]⟩,
  ⟨0x200004, 1, 4, false, [F.UB_THRESH_reasm_frames, F.UB_THRESH_recall_fail_n, F.UB_THRESH_sd_exp, F.UB_THRESH_lobi_n]⟩,
  ⟨0x200010, 1, 4, false, [F.UB_TERM_CMD_op, F.UB_TERM_CMD_term]⟩,
  ⟨0x200014, 1, 4, false, [F.UB_TERM_STATUS_busy, F.UB_TERM_STATUS_result, F.UB_TERM_STATUS_defects, F.UB_TERM_STATUS_pstate, F.UB_TERM_STATUS_clean, F.UB_TERM_STATUS_recall_fail]⟩,
  ⟨0x200018, 1, 4, false, [F.UB_TERM_DATA_offset, F.UB_TERM_DATA_term]⟩,
  ⟨0x20001C, 1, 4, false, [F.UB_TERM_AGE_age_ms]⟩,
  ⟨0x200020, 1, 4, false, [F.UB_DEC_STATUS_deadline_seen, F.UB_DEC_STATUS_soft, F.UB_DEC_STATUS_down]⟩,
  ⟨0x210000, 64, 1024, false, [F.UB_TREE_CFG_delim_err, F.UB_TREE_CFG_delim_win, F.UB_TREE_CFG_us_rate, F.UB_TREE_CFG_guard_q, F.UB_TREE_CFG_new_guard_q, F.UB_TREE_CFG_xgs_fec, F.UB_TREE_CFG_rx_en]⟩,
  ⟨0x210004, 64, 1024, false, [F.UB_TREE_PROF_delim_q, F.UB_TREE_PROF_long_pre_q, F.UB_TREE_PROF_short_pre_q]⟩,
  ⟨0x210008, 64, 1024, false, [F.UB_TREE_IDLE_arm_lead, F.UB_TREE_IDLE_wake_lead, F.UB_TREE_IDLE_idle_min]⟩,
  ⟨0x21000C, 64, 1024, false, [F.UB_TREE_STATUS_defects, F.UB_TREE_STATUS_en_status, F.UB_TREE_STATUS_down, F.UB_TREE_STATUS_idle, F.UB_TREE_STATUS_shared, F.UB_TREE_STATUS_running]⟩,
  ⟨0x210010, 64, 1024, false, [F.UB_TREE_DEFECT_tmask, F.UB_TREE_DEFECT_mask, F.UB_TREE_DEFECT_latched]⟩]

/-- The registers of the GE block. -/
def regsGE : List RegD := [
  ⟨0x380000, 1, 4, false, [F.GE_ACT_CTRL_lost_t, F.GE_ACT_CTRL_eqd_confirm, F.GE_ACT_CTRL_drift_shift, F.GE_ACT_CTRL_dir_period]⟩,
  ⟨0x380004, 1, 4, false, [F.GE_ACT_DRIFT_drift_max, F.GE_ACT_DRIFT_eqd_step]⟩,
  ⟨0x380010, 1, 4, false, [F.GE_CTX_CMD_op, F.GE_CTX_CMD_any_id]⟩,
  ⟨0x380014, 1, 4, false, [F.GE_CTX_ARG_port, F.GE_CTX_ARG_onu_id, F.GE_CTX_ARG_term]⟩,
  ⟨0x380018, 1, 4, true, [F.GE_CTX_SN_vendor_id, F.GE_CTX_SN_vssn]⟩,
  ⟨0x380020, 1, 4, false, [F.GE_CTX_STATUS_busy, F.GE_CTX_STATUS_result, F.GE_CTX_STATUS_state, F.GE_CTX_STATUS_term]⟩,
  ⟨0x380024, 1, 4, false, [F.GE_CTX_TENANT_tenant]⟩,
  ⟨0x380028, 1, 4, false, [F.GE_TERM_EQD_eqd]⟩,
  ⟨0x38002C, 1, 4, false, [F.GE_TERM_RTD_rtd]⟩,
  ⟨0x380030, 1, 4, false, [F.GE_TERM_DRIFT_drift, F.GE_TERM_DRIFT_pending]⟩,
  ⟨0x380040, 1, 4, false, [F.GE_POOL_STATUS_free, F.GE_POOL_STATUS_unreserved_free]⟩,
  ⟨0x381000, 64, 64, false, [F.GE_DISC_CFG_quiet_budget, F.GE_DISC_CFG_disc_period, F.GE_DISC_CFG_dist_class, F.GE_DISC_CFG_stagger, F.GE_DISC_CFG_dir_en, F.GE_DISC_CFG_disc_en]⟩,
  ⟨0x381004, 64, 64, false, [F.GE_DISC_DIST_teq, F.GE_DISC_DIST_rtd_min]⟩,
  ⟨0x381008, 64, 64, false, [F.GE_DISC_RAND_sn_q, F.GE_DISC_RAND_rand_span]⟩,
  ⟨0x38100C, 64, 64, false, [F.GE_DISC_STATUS_skips, F.GE_DISC_STATUS_uxl_q, F.GE_DISC_STATUS_suspended, F.GE_DISC_STATUS_gated, F.GE_DISC_STATUS_staggered, F.GE_DISC_STATUS_found]⟩,
  ⟨0x381010, 64, 64, false, [F.GE_POOL_TREE_limit, F.GE_POOL_TREE_reserve]⟩,
  ⟨0x381018, 64, 64, true, [F.GE_FOUND_SN_vendor_id, F.GE_FOUND_SN_vssn]⟩,
  ⟨0x381020, 64, 64, false, [F.GE_FOUND_INFO_valid, F.GE_FOUND_INFO_dup, F.GE_FOUND_INFO_x_hi, F.GE_FOUND_INFO_x_lo]⟩,
  ⟨0x300000, 1, 4, false, [F.GE_CTRL_rot_en]⟩,
  ⟨0x300004, 1, 4, false, [F.GE_ENG_STATUS_spare, F.GE_ENG_STATUS_down, F.GE_ENG_STATUS_takeover, F.GE_ENG_STATUS_orphaned]⟩,
  ⟨0x300008, 1, 4, false, [F.GE_ENG_FENCED_fenced]⟩,
  ⟨0x30000C, 1, 4, false, [F.GE_ENG_BIST_passes, F.GE_ENG_BIST_last_fail, F.GE_ENG_BIST_running]⟩,
  ⟨0x300010, 16, 4, false, [F.GE_QUAD_MAP_engine]⟩,
  ⟨0x300060, 1, 4, false, [F.GE_ENG_CMD_op, F.GE_ENG_CMD_eng]⟩,
  ⟨0x300064, 1, 4, false, [F.GE_ENG_CMD_STATUS_busy, F.GE_ENG_CMD_STATUS_result, F.GE_ENG_CMD_STATUS_eng]⟩,
  ⟨0x300100, 1, 4, false, [F.GE_PROG_ADDR_addr]⟩,
  ⟨0x300104, 1, 4, false, [F.GE_PROG_DATA_word]⟩,
  ⟨0x300108, 1, 4, false, [F.GE_PROG_COMMIT_status, F.GE_PROG_COMMIT_retiring_valid, F.GE_PROG_COMMIT_retiring_gen, F.GE_PROG_COMMIT_cur_gen, F.GE_PROG_COMMIT_commit]⟩,
  ⟨0x30010C, 1, 4, false, [F.GE_PROG_STATUS_stage_err, F.GE_PROG_STATUS_staged_words]⟩,
  ⟨0x300200, 1, 4, false, [F.GE_TBL_CMD_op, F.GE_TBL_CMD_table, F.GE_TBL_CMD_upper, F.GE_TBL_CMD_index]⟩,
  ⟨0x300204, 1, 4, false, [F.GE_TBL_STATUS_busy, F.GE_TBL_STATUS_result, F.GE_TBL_STATUS_index]⟩,
  ⟨0x300210, 8, 4, false, [F.GE_TBL_DATA_word]⟩,
  ⟨0x301000, 64, 32, false, [F.GE_TREE_CFG_entry, F.GE_TREE_CFG_keep_clr, F.GE_TREE_CFG_gp_en]⟩,
  ⟨0x301004, 64, 32, false, [F.GE_TREE_STATUS_last_reason, F.GE_TREE_STATUS_consec_holds, F.GE_TREE_STATUS_late_yields, F.GE_TREE_STATUS_engine]⟩,
  ⟨0x301008, 64, 32, false, [F.GE_TREE_BUDGET_instr, F.GE_TREE_BUDGET_seal_t]⟩,
  ⟨0x30100C, 64, 32, false, [F.GE_TREE_HOLD_holds]⟩,
  ⟨0x301010, 64, 32, false, [F.GE_TREE_CHECK_removed]⟩,
  ⟨0x301014, 64, 32, false, [F.GE_TREE_FAULT_faults, F.GE_TREE_FAULT_code, F.GE_TREE_FAULT_pc]⟩]

/-- The registers of the QS block. -/
def regsQS : List RegD := [
  ⟨0x600000, 1, 4, false, [F.QS_CMD_op, F.QS_CMD_table, F.QS_CMD_index]⟩,
  ⟨0x600004, 1, 4, false, [F.QS_CMD_STATUS_busy, F.QS_CMD_STATUS_result, F.QS_CMD_STATUS_index]⟩,
  ⟨0x600010, 8, 4, false, [F.QS_DATA_word]⟩,
  ⟨0x600040, 1, 4, false, [F.QS_SHAPE_COMMIT_status, F.QS_SHAPE_COMMIT_retiring_valid, F.QS_SHAPE_COMMIT_retiring_gen, F.QS_SHAPE_COMMIT_cur_gen, F.QS_SHAPE_COMMIT_commit]⟩,
  ⟨0x600044, 1, 4, false, [F.QS_GATE_COMMIT_status, F.QS_GATE_COMMIT_retiring_valid, F.QS_GATE_COMMIT_retiring_gen, F.QS_GATE_COMMIT_cur_gen, F.QS_GATE_COMMIT_commit]⟩,
  ⟨0x600048, 1, 4, false, [F.QS_STATUS_oversize_seen, F.QS_STATUS_down]⟩,
  ⟨0x601000, 256, 4, false, [F.QS_GATE_ACTUAL_start_ns]⟩]

/-- The registers of the PC block. -/
def regsPC : List RegD := [
  ⟨0x400000, 1, 4, false, [F.PC_CTRL_pass_limit, F.PC_CTRL_pass_max, F.PC_CTRL_hold_max]⟩,
  ⟨0x400004, 1, 4, false, [F.PC_STATUS_active, F.PC_STATUS_half_b_down, F.PC_STATUS_half_a_down, F.PC_STATUS_down]⟩,
  ⟨0x400010, 4, 4, false, [F.PC_CORE_FENCED_fenced]⟩,
  ⟨0x400020, 1, 4, false, [F.PC_CORE_CMD_op, F.PC_CORE_CMD_core]⟩,
  ⟨0x400024, 1, 4, false, [F.PC_CORE_STATUS_busy, F.PC_CORE_STATUS_result, F.PC_CORE_STATUS_tally, F.PC_CORE_STATUS_fenced, F.PC_CORE_STATUS_core]⟩,
  ⟨0x400030, 1, 4, false, [F.PC_FAULT_faults, F.PC_FAULT_code, F.PC_FAULT_pc]⟩,
  ⟨0x400100, 1, 4, false, [F.PC_PROG_ADDR_addr]⟩,
  ⟨0x400104, 1, 4, false, [F.PC_PROG_DATA_LO_word_lo]⟩,
  ⟨0x400108, 1, 4, false, [F.PC_PROG_DATA_HI_word_hi]⟩,
  ⟨0x40010C, 1, 4, false, [F.PC_PROG_COMMIT_status, F.PC_PROG_COMMIT_retiring_valid, F.PC_PROG_COMMIT_retiring_gen, F.PC_PROG_COMMIT_cur_gen, F.PC_PROG_COMMIT_commit]⟩,
  ⟨0x400110, 1, 4, false, [F.PC_PROG_STATUS_not_owner, F.PC_PROG_STATUS_stage_err, F.PC_PROG_STATUS_staged_words]⟩,
  ⟨0x401000, 99, 4, false, [F.PC_SRC_ENTRY_entry]⟩]

/-- The registers of the CL block. -/
def regsCL : List RegD := [
  ⟨0x500000, 1, 4, false, [F.CL_CMD_op, F.CL_CMD_kind, F.CL_CMD_tbl]⟩,
  ⟨0x500004, 1, 4, false, [F.CL_CMD_STATUS_busy, F.CL_CMD_STATUS_result]⟩,
  ⟨0x500008, 1, 4, false, [F.CL_INDEX_index]⟩,
  ⟨0x50000C, 1, 4, false, [F.CL_ARG_staged_live, F.CL_ARG_live, F.CL_ARG_valid, F.CL_ARG_tenant]⟩,
  ⟨0x500010, 8, 4, false, [F.CL_DATA_word]⟩,
  ⟨0x500040, 16, 4, false, [F.CL_KEY_bits]⟩,
  ⟨0x500080, 16, 4, false, [F.CL_MASK_bits]⟩,
  ⟨0x5000C0, 4, 4, false, [F.CL_ACT_bits]⟩,
  ⟨0x500100, 1, 4, false, [F.CL_RULE_COMMIT_status, F.CL_RULE_COMMIT_retiring_valid, F.CL_RULE_COMMIT_retiring_gen, F.CL_RULE_COMMIT_cur_gen, F.CL_RULE_COMMIT_commit]⟩,
  ⟨0x500104, 1, 4, false, [F.CL_STATUS_pinned]⟩,
  ⟨0x500108, 1, 4, false, [F.CL_MODE_cache_only, F.CL_MODE_down]⟩,
  ⟨0x50010C, 1, 4, false, [F.CL_ERRCNT_width_err, F.CL_ERRCNT_undef_tbl]⟩]

/-- The registers of the BM block. -/
def regsBM : List RegD := [
  ⟨0x700000, 1, 4, false, [F.BM_SPILL_low_max, F.BM_SPILL_spill_on, F.BM_SPILL_spill_off]⟩,
  ⟨0x700004, 1, 4, false, [F.BM_ADMIT_fetch_depth, F.BM_ADMIT_arr_floor]⟩,
  ⟨0x700008, 1, 4, false, [F.BM_OCC_occ]⟩,
  ⟨0x70000C, 1, 4, false, [F.BM_STATUS_not_owner, F.BM_STATUS_cfg_err, F.BM_STATUS_spill_blocked, F.BM_STATUS_spilling, F.BM_STATUS_deep_degraded, F.BM_STATUS_relocating, F.BM_STATUS_testing, F.BM_STATUS_deep_down, F.BM_STATUS_down]⟩,
  ⟨0x700010, 1, 4, false, [F.BM_SPILL_STATUS_latched]⟩,
  ⟨0x700020, 1, 4, false, [F.BM_REPAIR_retired, F.BM_REPAIR_repaired]⟩,
  ⟨0x700030, 1, 4, false, [F.BM_TEST_CMD_op]⟩,
  ⟨0x700034, 1, 4, false, [F.BM_TEST_STATUS_busy, F.BM_TEST_STATUS_result, F.BM_TEST_STATUS_fail_unit]⟩,
  ⟨0x700100, 1, 4, false, [F.BM_SPILL_FREE_free_pages]⟩,
  ⟨0x700104, 1, 4, false, [F.BM_DEEP_CFG_capacity, F.BM_DEEP_CFG_density, F.BM_DEEP_CFG_width, F.BM_DEEP_CFG_ranks, F.BM_DEEP_CFG_speed]⟩,
  ⟨0x700108, 1, 4, false, [F.BM_DEEP_FENCED_fenced]⟩,
  ⟨0x70010C, 1, 4, false, [F.BM_DEEP_ERR_corrected, F.BM_DEEP_ERR_uncorrectable, F.BM_DEEP_ERR_misaddress]⟩,
  ⟨0x700110, 1, 4, false, [F.BM_SCRUB_CFG_scrub_h, F.BM_SCRUB_CFG_chip_s]⟩,
  ⟨0x700114, 1, 4, false, [F.BM_SCRUB_STATUS_deep_late, F.BM_SCRUB_STATUS_chip_late, F.BM_SCRUB_STATUS_progress]⟩]

/-- The registers of the TS block. -/
def regsTS : List RegD := [
  ⟨0x780000, 1, 4, false, [F.TS_CTRL_pps_tol, F.TS_CTRL_pps_pol, F.TS_CTRL_align_go, F.TS_CTRL_align_src]⟩,
  ⟨0x780004, 1, 4, false, [F.TS_STATUS_down, F.TS_STATUS_not_owner, F.TS_STATUS_cfg_err, F.TS_STATUS_align_err, F.TS_STATUS_adj_err, F.TS_STATUS_incr_err, F.TS_STATUS_adj_busy, F.TS_STATUS_slaved, F.TS_STATUS_pps_seen, F.TS_STATUS_aligned]⟩,
  ⟨0x780008, 1, 4, true, [F.TS_NOW_now]⟩,
  ⟨0x780010, 1, 4, true, [F.TS_INCR_incr]⟩,
  ⟨0x780018, 1, 4, true, [F.TS_ADJ_ns, F.TS_ADJ_frac]⟩,
  ⟨0x780020, 1, 4, true, [F.TS_FRAME_STAMP_stamp]⟩,
  ⟨0x780028, 1, 4, false, [F.TS_FRAME_CNT_count]⟩,
  ⟨0x78002C, 1, 4, false, [F.TS_FRAME_ALIGN_align_ns]⟩,
  ⟨0x780030, 1, 4, true, [F.TS_PPS_STAMP_stamp]⟩,
  ⟨0x780038, 1, 4, false, [F.TS_PPS_ERR_offset]⟩,
  ⟨0x780040, 1, 4, true, [F.TS_WRAP_LAST_evseq, F.TS_WRAP_LAST_dir, F.TS_WRAP_LAST_count]⟩,
  ⟨0x780048, 1, 4, true, [F.TS_WRAP_PREV_evseq, F.TS_WRAP_PREV_dir, F.TS_WRAP_PREV_count]⟩,
  ⟨0x780100, 1, 4, false, [F.TS_TOD_CMD_op, F.TS_TOD_CMD_port]⟩,
  ⟨0x780104, 1, 4, false, [F.TS_TOD_SFC_sfc]⟩,
  ⟨0x780108, 1, 4, false, [F.TS_TOD_STATUS_busy, F.TS_TOD_STATUS_result, F.TS_TOD_STATUS_pending, F.TS_TOD_STATUS_changed, F.TS_TOD_STATUS_final, F.TS_TOD_STATUS_port]⟩,
  ⟨0x780110, 1, 4, true, [F.TS_TOD_REC_record]⟩,
  ⟨0x780120, 1, 4, false, [F.TS_TERM_CMD_term]⟩,
  ⟨0x780124, 1, 4, false, [F.TS_TERM_DOWN_delay]⟩,
  ⟨0x780128, 1, 4, false, [F.TS_TERM_UP_delay]⟩,
  ⟨0x781000, 96, 8, false, [F.TS_PORT_LAT_lat_in, F.TS_PORT_LAT_lat_eg]⟩,
  ⟨0x781004, 96, 8, false, [F.TS_PORT_ASYM_asym]⟩]

/-- The registers of the PR block. -/
def regsPR : List RegD := [
  ⟨0x7C0000, 1, 4, false, [F.PR_PAIR_CFG_revert_hold, F.PR_PAIR_CFG_health_to, F.PR_PAIR_CFG_revertive, F.PR_PAIR_CFG_auto_yield, F.PR_PAIR_CFG_pair_port]⟩,
  ⟨0x7C0004, 1, 4, false, [F.PR_PAIR_STATUS_cairn_gen, F.PR_PAIR_STATUS_sync, F.PR_PAIR_STATUS_not_owner, F.PR_PAIR_STATUS_revert_armed, F.PR_PAIR_STATUS_peer_seen, F.PR_PAIR_STATUS_seen, F.PR_PAIR_STATUS_claim, F.PR_PAIR_STATUS_laser_en, F.PR_PAIR_STATUS_down, F.PR_PAIR_STATUS_role]⟩,
  ⟨0x7C0008, 1, 4, false, [F.PR_PAIR_CMD_op]⟩,
  ⟨0x7C000C, 1, 4, false, [F.PR_PAIR_CMD_STATUS_busy, F.PR_PAIR_CMD_STATUS_result]⟩,
  ⟨0x7C0010, 1, 4, false, [F.PR_HEALTH_fenced_cores, F.PR_HEALTH_failed_trees, F.PR_HEALTH_time_ok, F.PR_HEALTH_pace_ok, F.PR_HEALTH_deep_ok, F.PR_HEALTH_spare_ok, F.PR_HEALTH_lanes_ok, F.PR_HEALTH_selftest_ok, F.PR_HEALTH_synced, F.PR_HEALTH_yielding, F.PR_HEALTH_claiming, F.PR_HEALTH_state]⟩,
  ⟨0x7C0014, 1, 4, false, [F.PR_PEER_HEALTH_fenced_cores, F.PR_PEER_HEALTH_failed_trees, F.PR_PEER_HEALTH_time_ok, F.PR_PEER_HEALTH_pace_ok, F.PR_PEER_HEALTH_deep_ok, F.PR_PEER_HEALTH_spare_ok, F.PR_PEER_HEALTH_lanes_ok, F.PR_PEER_HEALTH_selftest_ok, F.PR_PEER_HEALTH_synced, F.PR_PEER_HEALTH_yielding, F.PR_PEER_HEALTH_claiming, F.PR_PEER_HEALTH_state]⟩,
  ⟨0x7C0018, 1, 4, false, [F.PR_HEALTH_AGE_age]⟩,
  ⟨0x7C0040, 2, 4, false, [F.PR_ROPE_STATUS_width, F.PR_ROPE_STATUS_lanes_up, F.PR_ROPE_STATUS_peer_casc, F.PR_ROPE_STATUS_peer_pair, F.PR_ROPE_STATUS_pair_link, F.PR_ROPE_STATUS_state]⟩,
  ⟨0x7C0048, 2, 4, false, [F.PR_ROPE_ERR_errored, F.PR_ROPE_ERR_losses, F.PR_ROPE_ERR_restripes]⟩,
  ⟨0x7C0050, 2, 4, false, [F.PR_ROPE_ASYM_rope_asym]⟩,
  ⟨0x7C0100, 1, 4, false, [F.PR_CASC_CFG_casc_id, F.PR_CASC_CFG_casc_en]⟩,
  ⟨0x7C0104, 1, 4, false, [F.PR_CASC_STATUS_members, F.PR_CASC_STATUS_holdover, F.PR_CASC_STATUS_conflict, F.PR_CASC_STATUS_hops, F.PR_CASC_STATUS_anchor_valid, F.PR_CASC_STATUS_is_anchor, F.PR_CASC_STATUS_anchor]⟩,
  ⟨0x7C0110, 4, 4, false, [F.PR_CASC_MEMBER_record]⟩,
  ⟨0x7C1000, 64, 4, false, [F.PR_TREE_SKEW_skew_rt, F.PR_TREE_SKEW_skew_in]⟩]

/-- The registers of the SL block. -/
def regsSL : List RegD := [
  ⟨0x800000, 1, 4, false, [F.SL_CTRL_cal_period, F.SL_CTRL_ul_mode]⟩,
  ⟨0x800004, 1, 4, false, [F.SL_STATUS_not_owner, F.SL_STATUS_down]⟩,
  ⟨0x800010, 1, 4, false, [F.SL_CMD_op, F.SL_CMD_lane]⟩,
  ⟨0x800014, 1, 4, false, [F.SL_CMD_STATUS_busy, F.SL_CMD_STATUS_result, F.SL_CMD_STATUS_lane]⟩,
  ⟨0x800100, 32, 4, false, [F.SL_UL_STATUS_aligned, F.SL_UL_STATUS_exists, F.SL_UL_STATUS_up]⟩,
  ⟨0x800200, 32, 4, false, [F.SL_UL_FEC_corrected, F.SL_UL_FEC_uncorrectable]⟩,
  ⟨0x810000, 176, 64, false, [F.SL_LANE_CTRL_inj_rate, F.SL_LANE_CTRL_inj_one, F.SL_LANE_CTRL_pat, F.SL_LANE_CTRL_chk_en, F.SL_LANE_CTRL_gen_en, F.SL_LANE_CTRL_loop, F.SL_LANE_CTRL_en]⟩,
  ⟨0x810004, 176, 64, false, [F.SL_LANE_USER_word]⟩,
  ⟨0x810008, 176, 64, false, [F.SL_LANE_STATUS_tally, F.SL_LANE_STATUS_chk_lock, F.SL_LANE_STATUS_group_lock, F.SL_LANE_STATUS_cdr_lock, F.SL_LANE_STATUS_state]⟩,
  ⟨0x81000C, 176, 64, false, [F.SL_LANE_ERRS_errors]⟩,
  ⟨0x810010, 176, 64, false, [F.SL_LANE_CAL_steps, F.SL_LANE_CAL_cal_late, F.SL_LANE_CAL_cal_fail, F.SL_LANE_CAL_running]⟩]

/-- The registers of the HD block. -/
def regsHD : List RegD := [
  ⟨0x900000, 1, 4, false, [F.HD_STATUS_width, F.HD_STATUS_speed, F.HD_STATUS_cfg_err, F.HD_STATUS_not_owner, F.HD_STATUS_vf_enabled, F.HD_STATUS_down]⟩,
  ⟨0x900100, 64, 4, false, [F.HD_VF_CFG_en, F.HD_VF_CFG_tenant]⟩,
  ⟨0x900200, 64, 4, false, [F.HD_VEC_MAP_valid, F.HD_VEC_MAP_fn]⟩,
  ⟨0x900300, 1, 4, false, [F.HD_CH_CMD_op, F.HD_CH_CMD_chan]⟩,
  ⟨0x900304, 1, 4, false, [F.HD_CH_CMD_STATUS_busy, F.HD_CH_CMD_STATUS_result, F.HD_CH_CMD_STATUS_chan]⟩,
  ⟨0x901000, 32, 16, false, [F.HD_CH_CTRL_prio, F.HD_CH_CTRL_ro_en, F.HD_CH_CTRL_ns_en, F.HD_CH_CTRL_pause, F.HD_CH_CTRL_en]⟩,
  ⟨0x901004, 32, 16, false, [F.HD_CH_STATUS_tally, F.HD_CH_STATUS_reads, F.HD_CH_STATUS_preempted, F.HD_CH_STATUS_state]⟩,
  ⟨0x901008, 32, 16, false, [F.HD_CH_POS_ring, F.HD_CH_POS_bytes]⟩,
  ⟨0x90100C, 32, 16, false, [F.HD_CH_DESC_desc]⟩,
  ⟨0x980000, 4096, 32, false, [F.HD_RING_CFG_owner, F.HD_RING_CFG_chan, F.HD_RING_CFG_log2_size, F.HD_RING_CFG_kind, F.HD_RING_CFG_en]⟩,
  ⟨0x980004, 4096, 32, true, [F.HD_RING_BASE_base]⟩,
  ⟨0x98000C, 4096, 32, false, [F.HD_RING_BUF_irq_us, F.HD_RING_BUF_irq_cnt, F.HD_RING_BUF_buf_units]⟩,
  ⟨0x980010, 4096, 32, false, [F.HD_RING_IRQ_blk_mask, F.HD_RING_IRQ_irq_en, F.HD_RING_IRQ_irq_src]⟩,
  ⟨0x980014, 4096, 32, false, [F.HD_RING_HEAD_head]⟩,
  ⟨0x980018, 4096, 32, false, [F.HD_RING_TAIL_tail]⟩,
  ⟨0x98001C, 4096, 32, false, [F.HD_RING_STATUS_drops, F.HD_RING_STATUS_chan_down, F.HD_RING_STATUS_error, F.HD_RING_STATUS_full, F.HD_RING_STATUS_running]⟩]

/-- The registers of the IC block. -/
def regsIC : List RegD := [
  ⟨0xA00000, 1, 4, false, [F.IC_DOORBELL_source]⟩,
  ⟨0xA00004, 1, 4, false, [F.IC_STATUS_cfg_err, F.IC_STATUS_not_owner, F.IC_STATUS_refused, F.IC_STATUS_down]⟩,
  ⟨0xA10000, 8192, 4, false, [F.IC_SRC_CFG_en, F.IC_SRC_CFG_pending, F.IC_SRC_CFG_active, F.IC_SRC_CFG_watched, F.IC_SRC_CFG_target, F.IC_SRC_CFG_prio]⟩,
  ⟨0xA20000, 68, 16, false, [F.IC_TGT_THRESH_thresh]⟩,
  ⟨0xA20004, 68, 16, false, [F.IC_TGT_CLAIM_valid, F.IC_TGT_CLAIM_prio, F.IC_TGT_CLAIM_source]⟩,
  ⟨0xA20008, 68, 16, false, [F.IC_TGT_COMPLETE_source]⟩,
  ⟨0xA2000C, 68, 16, false, [F.IC_TGT_STATUS_depth, F.IC_TGT_STATUS_cur_thresh, F.IC_TGT_STATUS_order_err, F.IC_TGT_STATUS_auto, F.IC_TGT_STATUS_sleeping, F.IC_TGT_STATUS_deliverable]⟩,
  ⟨0xA30000, 64, 4, false, [F.IC_WATCH_valid, F.IC_WATCH_wake_run, F.IC_WATCH_source]⟩]

/-- The registers of the PM block. -/
def regsPM : List RegD := [
  ⟨0xA80000, 1, 4, false, [F.PM_CTRL_window_us]⟩,
  ⟨0xA80004, 1, 4, false, [F.PM_STATUS_not_owner, F.PM_STATUS_cfg_err, F.PM_STATUS_down]⟩,
  ⟨0xA80008, 1, 4, false, [F.PM_RK_WINDOW_window]⟩,
  ⟨0xA80010, 1, 4, true, [F.PM_RK_STAMP_stamp]⟩,
  ⟨0xA90000, 240, 32, false, [F.PM_BEAD_CFG_tenant, F.PM_BEAD_CFG_clr, F.PM_BEAD_CFG_tenant_vis, F.PM_BEAD_CFG_tenant_en, F.PM_BEAD_CFG_mode, F.PM_BEAD_CFG_event]⟩,
  ⟨0xA90008, 240, 32, true, [F.PM_BEAD_VAL_epoch, F.PM_BEAD_VAL_gone, F.PM_BEAD_VAL_sat, F.PM_BEAD_VAL_value]⟩,
  ⟨0xA90010, 240, 32, true, [F.PM_BEAD_WIN_epoch, F.PM_BEAD_WIN_gone, F.PM_BEAD_WIN_sat, F.PM_BEAD_WIN_value]⟩,
  ⟨0xAA0000, 196, 8, true, [F.PM_RK_METER_bytes, F.PM_RK_METER_valid, F.PM_RK_METER_mbps]⟩]

/-- The registers of the PW block. -/
def regsPW : List RegD := [
  ⟨0xB00000, 1, 4, false, [F.PW_BOOT_STATUS_error, F.PW_BOOT_STATUS_stage, F.PW_BOOT_STATUS_fallback, F.PW_BOOT_STATUS_deep_ok, F.PW_BOOT_STATUS_imhus, F.PW_BOOT_STATUS_auth_req, F.PW_BOOT_STATUS_boot_src, F.PW_BOOT_STATUS_eng_fail, F.PW_BOOT_STATUS_core_fail]⟩,
  ⟨0xB00010, 1, 4, false, [F.PW_RESET_CMD_key, F.PW_RESET_CMD_op, F.PW_RESET_CMD_block]⟩,
  ⟨0xB00014, 1, 4, false, [F.PW_RESET_STATUS_busy, F.PW_RESET_STATUS_result]⟩,
  ⟨0xB00018, 1, 4, false, [F.PW_RESET_CAUSE_safe_cause, F.PW_RESET_CAUSE_kind]⟩,
  ⟨0xB00020, 1, 4, false, [F.PW_DOM_CMD_op, F.PW_DOM_CMD_domain]⟩,
  ⟨0xB00024, 1, 4, false, [F.PW_DOM_CMD_STATUS_busy, F.PW_DOM_CMD_STATUS_result, F.PW_DOM_CMD_STATUS_domain]⟩,
  ⟨0xB00028, 1, 4, false, [F.PW_DOM_STATUS_held, F.PW_DOM_STATUS_down]⟩,
  ⟨0xB0002C, 1, 4, false, [F.PW_DOM_CFG_bivouac_mask, F.PW_DOM_CFG_biv_half_b, F.PW_DOM_CFG_dom_timeout]⟩,
  ⟨0xB00040, 1, 4, false, [F.PW_AVS_CFG_margin_hi, F.PW_AVS_CFG_margin_lo]⟩,
  ⟨0xB00044, 1, 4, false, [F.PW_AVS_LIMIT_v_max, F.PW_AVS_LIMIT_v_min]⟩,
  ⟨0xB00048, 1, 4, false, [F.PW_AVS_STATUS_at_max, F.PW_AVS_STATUS_bus_fault, F.PW_AVS_STATUS_i_now, F.PW_AVS_STATUS_v_now]⟩,
  ⟨0xB00080, 1, 4, false, [F.PW_THERM_CFG_trip, F.PW_THERM_CFG_warn]⟩,
  ⟨0xB00084, 1, 4, false, [F.PW_THERM_STATUS_warn_seen, F.PW_THERM_STATUS_warn, F.PW_THERM_STATUS_sensor, F.PW_THERM_STATUS_temp]⟩,
  ⟨0xB00100, 48, 4, false, [F.PW_MON_domain, F.PW_MON_excluded, F.PW_MON_margin]⟩,
  ⟨0xB00200, 1, 4, false, [F.PW_BOOT_ADDR_addr]⟩,
  ⟨0xB00204, 1, 4, false, [F.PW_BOOT_DATA_data]⟩,
  ⟨0xB00208, 1, 4, false, [F.PW_BOOT_GO_go]⟩]

/-- The registers of a block, by its row in the address map (R50). -/
def regsOf : Nat → List RegD
  | 0 => regsGLB
  | 1 => regsTP
  | 2 => regsUB
  | 3 => regsGE
  | 4 => regsPC
  | 5 => regsCL
  | 6 => regsQS
  | 7 => regsBM
  | 8 => regsTS
  | 9 => regsPR
  | 10 => regsSL
  | 11 => regsHD
  | 12 => regsIC
  | 13 => regsPM
  | 14 => regsPW
  | _ => []

end Sys2Proof.Machine
end

