-- ==== Sys2Proof/Machine/Tab.lean ====
section
/-! DEFINITION. Sparse tables: the one form in which the model holds every store that an index addresses (register
fields, the 18-bit memories, the tables of contexts). A table lists (index, value) pairs with rising indexes and
lists no index that holds the default value, so that equal stores are equal data. -/

namespace Sys2Proof.Machine

/-- A sparse table of values by index. -/
abbrev Tab (α : Type) := List (Nat × α)

variable {α : Type}

/-- The value at index k; an index that is not listed holds d. -/
def Tab.get (d : α) : Tab α → Nat → α
  | [], _ => d
  | (a, v) :: t, k => if a = k then v else Tab.get d t k

/-- The table without index k. -/
def Tab.erase : Tab α → Nat → Tab α
  | [], _ => []
  | (a, v) :: t, k => if a = k then Tab.erase t k else (a, v) :: Tab.erase t k

/-- The table with (k, v) placed before the first index above k. -/
def Tab.insert : Tab α → Nat → α → Tab α
  | [], k, v => [(k, v)]
  | (a, w) :: t, k, v => if k < a then (k, v) :: (a, w) :: t else (a, w) :: Tab.insert t k v

/-- The table with v at index k; the default value is not listed. -/
def Tab.set [DecidableEq α] (d : α) (t : Tab α) (k : Nat) (v : α) : Tab α :=
  if v = d then t.erase k else (t.erase k).insert k v

/-- The table with f applied at index k. -/
def Tab.modify [DecidableEq α] (d : α) (t : Tab α) (k : Nat) (f : α → α) : Tab α :=
  t.set d k (f (t.get d k))

/-- The table with f applied to every listed value; values that become the default are no longer listed. -/
def Tab.mapAll [DecidableEq α] (d : α) (f : Nat → α → α) : Tab α → Tab α
  | [] => []
  | (a, v) :: t => if f a v = d then Tab.mapAll d f t else (a, f a v) :: Tab.mapAll d f t

/-- The indexes of a table rise strictly. -/
def Tab.rising : Tab α → Bool
  | [] => true
  | [_] => true
  | (a, _) :: (b, w) :: t => decide (a < b) && Tab.rising ((b, w) :: t)

/-- The canonical form: rising indexes, and no listed value equal to the default. -/
def Tab.wf [DecidableEq α] (d : α) (t : Tab α) : Bool :=
  t.rising && t.all (fun p => decide (p.2 ≠ d))

end Sys2Proof.Machine
end

