-- ==== Sys2Proof/Machine/State.lean ====
section
/-! DEFINITION. The state of the HK6400: every register field (in the field store rf), and the structured state of
every block that no register shows directly. Plain data throughout. A field with a default names its value at reset. -/

namespace Sys2Proof.Machine

/-- Why a step stops with a fault. No meaning of this model raises one: every command of the table has an effect, or
leaves the state as it is. Kept closed with one name, for a behaviour a repair may find to have no effect given. Safe.
(DEDUCED, safe: log entry 21.) -/
inductive Fault where
  | noEffectGiven
deriving DecidableEq, Repr

/-- Why a command has no meaning. Raised by Dispatch alone, for a command not reached yet. Safe. -/
inductive Refusal where
  | notModelled (mnemonic : String)
deriving DecidableEq, Repr

/-! ### Identity, modes, events, tallies, generations -/

/-- The device states (00_scope, States and modes). -/
inductive Dev where
  | boot | ready | run | bivouac | test | safe
deriving DecidableEq, Repr

/-- The roles of MODE[1:0]. -/
inductive Role where
  | solo | active | standby | follower
deriving DecidableEq, Repr

/-- The device state, the move in progress, and the mode in force (R8, R9, R13, R15). -/
structure Glb where
  dev : Dev := .boot
  move : Option Dev := none
  modeIn : Bool := false
  level : Nat := 0
  role : Role := .solo
deriving DecidableEq, Repr

/-- An event waiting at its source (R38 to R42): ord counts the events raised; cause is the ord of the event that
must commit first (R39); wrap marks the wrap events of the time base (R357). -/
structure EvRec where
  ord : Nat
  cause : Option Nat
  block : Nat
  inst : Nat
  code : Nat
  arg : Nat
  stamp : Nat
  wrap : Bool
deriving DecidableEq, Repr

/-- The event merge unit (R38 to R42): waiting events of every source in the order they occurred, the events each
source dropped (key block × 2048 + instance), the last EVSEQ; last is the ord of the event raised last, none where its source
had no room for it; frameOrd is the ord of the first event of the frame in progress. -/
structure Evu where
  wait : List EvRec := []
  lost : Tab Nat := []
  ord : Nat := 0
  seq : Nat := 0
  last : Option Nat := none
  frameOrd : Nat := 0
deriving DecidableEq, Repr

/-- A monitored element of the fault tallies (R44 to R49). A memory row is named by its block, its macro in that block and its
number in the macro. -/
inductive Elem where
  | engine (e : Nat) | core (c : Nat) | row (block macroNo row : Nat) | sub (n : Nat) | lane (l : Nat) | chan (c : Nat)
deriving DecidableEq, Repr

/-- The tally of one element: soft faults of the current slot and the 7 before it, newest first; fenced (R44, R46). -/
structure Tally where
  slots : List Nat := [0, 0, 0, 0, 0, 0, 0, 0]
  fenced : Bool := false
deriving DecidableEq, Repr

/-- The tally slot in progress, in 2^-40 ns of the run count: its start and its length, window_ms ÷ 8 (R44, R48). -/
structure Slots where
  start : Nat := 0
  length : Nat := 125000000 * 2 ^ 40
deriving DecidableEq, Repr

/-- A staged object's generations (R27 to R34): the current one, the retiring one, the status of the last commit, whether something is
staged, the run count of the last commit, whether its slow-retire event has been raised. -/
structure Gen where
  cur : Nat := 0
  ret : Option Nat := none
  status : Nat := 0
  staged : Bool := false
  at_ : Nat := 0
  slow : Bool := false
deriving DecidableEq, Repr

/-! ### Time -/

/-- An alignment of the frame pacer that waits for its instant (R359): the time it falls at in 2^-40 ns, every wrap counted in, or
the next edge. -/
inductive Align where
  | ns (at_ : Int) | pps
deriving DecidableEq, Repr

/-- A port's time-of-day record (R367 to R369): superframe count S, the record in the stamp format. -/
structure Tod where
  sfc : Nat := 0
  record : Nat := 0
  pending : Bool := false
  final : Bool := false
deriving DecidableEq, Repr

/-- The time base and the frame pacer (R349 to R360). tb is the ns field and its 40-bit fraction as one number of
2^-40 ns; turns counts every wrap, forward less backward (R253); run is the run count in the same unit; phase counts reference cycles since the last frame instant; ppsAt is the run count of the last 1PPS edge. -/
structure Ts where
  tb : Nat := 0
  wrap : Nat := 0
  turns : Int := 0
  run : Nat := 0
  incr : Nat := 0x066E172D4CE8
  incrNext : Option Nat := none
  step : Option Int := none
  phase : Nat := 0
  frame : Nat := 0
  started : Bool := false
  frameStamp : Nat := 0
  frameCap : Option Nat := none
  align : Option Align := none
  ppsBeyond : Bool := false
  ppsAt : Nat := 0
  wrapLast : Nat := 0
  wrapPrev : Nat := 0
  tod : Tab Tod := []
deriving DecidableEq, Repr

/-! ### Interrupts and counters -/

/-- The interrupt collector and the watch domain's latches (R473 to R484): pending sources, and per target the claims
not yet completed, newest first, each with the priority it was claimed at; the entry sequence a guide core last
started, with the run count at its start; sleeping targets; doorbells latched while the block is down. -/
structure Ic where
  pend : List Nat := []
  stack : Tab (List (Nat × Nat)) := []
  entry : Tab (Option (Nat × Nat)) := []
  sleep : List Nat := []
  latch : List Nat := []
deriving DecidableEq, Repr

/-- A bead (R488 to R493): count, saturated, epoch, and the value of the last window with its epoch, sat and gone. -/
structure Bead where
  cnt : Nat := 0
  sat : Bool := false
  epoch : Nat := 0
  win : Nat := 0
  winSat : Bool := false
  winEpoch : Nat := 0
  gone : Bool := false
deriving DecidableEq, Repr

/-- A byte meter (R496): bytes in the open window, whether its block was down in it, and the last window's values; bad tells
that they are not valid. -/
structure Meter where
  cur : Nat := 0
  downSeen : Bool := false
  bytes : Nat := 0
  mbps : Nat := 0
  bad : Bool := false
deriving DecidableEq, Repr

/-- The reckoner (R495, R496): beads by block × 16 + k, meters, the windows closed, and the run count and stamp of the
last boundary. -/
structure Pm where
  beads : Tab Bead := []
  meters : Tab Meter := []
  window : Nat := 0
  boundary : Nat := 0
  length : Nat := 1000
  stamp : Nat := 0
deriving DecidableEq, Repr

/-! ### Power, reset, boot -/

/-- Domains, AVS, boot (R500 to R517). dom: the domain command in progress (domain, true for down), begun at run count domAt; avsDue,
thermDue: the run counts at which the next AVS period and the next reading of the sensors are due. blk: the block
rows that are down by block reset; blkCmd the reset in progress. -/
structure Pw where
  held : Bool := false
  dom : Option (Nat × Bool) := none
  domAt : Nat := 0
  blk : List Nat := []
  blkCmd : Option Nat := none
  avsHigh : Nat := 0
  avsDue : Nat := 0
  thermDue : Nat := 0
  warnHeld : Bool := false
  bootImg : Tab Nat := []
  bootGo : Bool := false
  keys : Nat := 0
  rowBad : Bool := false
  straps : Straps := ⟨0, false, false⟩
deriving DecidableEq, Repr

/-! ### Serial lanes -/

/-- The lane states of SL_LANE_STATUS. -/
inductive LaneSt where
  | off | calibrating | training | up | idle | absent | fenced | test
deriving DecidableEq, Repr

/-- What the transmitter of a rope lane sends (R432): nothing, the training pattern again and again, rope frames. -/
inductive LaneSend where
  | none | training | frames
deriving DecidableEq, Repr

/-- What a lane puts on its balls (R432, R433, R439, R442 to R444): nothing; electrical idle; nothing, being squelched by a near-end loop;
the training pattern; rope frames; PCS idle with alignment markers, and the frames of the port; the downstream frames of its port; what its
receiver has recovered; the generator's pattern: its taps (none: the user's word repeated), the word, and that one bit in how many is
flipped (0: none). -/
inductive LaneTx where
  | off | idle | squelched | train | frames | pcs | downstream | recovered
  | pattern (taps : List Nat) (word every : Nat)
deriving DecidableEq, Repr

/-- A serial lane (R428 to R443): its state, locks, and its recalibration, with the calibration window that it last took a step in (upstream
frame, first quantum) and the steps it took there; of a rope lane what it sends, the last 58 bits that its
descrambler received, which of the last 64 groups received were invalid, the bit offset at which it hunts (R430 to R432); the run counts at
which its bring-up began, its next retraining and its next recalibration are due (R433, R434, R440), it last came up or ceased to be up
(R79, R112), and from which the errors that its own generator injects have still to be counted (R444). -/
structure Lane where
  st : LaneSt := .off
  cdr : Bool := false
  grp : Bool := false
  aligned : Bool := false
  steps : Nat := 0
  cal : Bool := false
  failedOnce : Bool := false
  chk : Bool := false
  calWin : Option (Nat × Nat × Nat) := none
  send : LaneSend := .none
  descr : Nat := 0
  seen : Nat := 0
  slip : Nat := 0
  from_ : Nat := 0
  retryAt : Nat := 0
  flipAt : Nat := 0
  calDue : Nat := 0
  edgeAt : Nat := 0
deriving DecidableEq, Repr

/-! ### Protection and cascade -/

/-- A cairn (R378, R379). -/
inductive Cairn where
  | map (p : Port) (frame : Nat) (m : MapRec)
  | ploam (p : Port) (frame : Nat) (sfc : Nat) (msgs : List Ploam)
  | change (c : StateChange)
  | command (c : OwnerCmd)
  | keep (p : Port) (words : List GWord)
deriving DecidableEq, Repr

/-- A rope port (R396 to R402): its state as PR_ROPE_STATUS codes it, lanes in the stripe, runs of good and errored
frames, the last frame count, the symbols of a message in progress, the neighbour's hello, the arrival stamp and the
offset last taken from the time messages; restripe while a re-stripe runs; sentAt the stamp of its last time message; from_ the
run count at which its training began (R400); tx the count of the next frame it sends (R396). -/
structure Rope where
  st : Nat := 0
  lanes : List Nat := []
  good : Nat := 0
  bad : Nat := 0
  count : Option Nat := none
  part : List Nat := []
  hello : Option HelloMsg := none
  arrival : Nat := 0
  delay : Nat := 0
  offset : Int := 0
  restripe : Bool := false
  sentAt : Nat := 0
  from_ : Nat := 0
  tx : Nat := 0
deriving DecidableEq, Repr

/-- The belay interlock of the watch domain (R372 to R375): the device claims; BELAY_SEEN reads claimed; LASER_EN; the run counts of
the start of the claim, of the last edge on BELAY_SEEN, of the moment it last read claimed, of the last edge on LASER_EN. -/
structure Belay where
  claim : Bool := false
  seen : Bool := false
  laser : Bool := false
  claimAt : Nat := 0
  edgeAt : Nat := 0
  freeAt : Nat := 0
  laserAt : Nat := 0
deriving DecidableEq, Repr

/-- What a device knows of another member of its cascade (R404 to R408): its last health record, its hops from here, whether
it qualifies as anchor, the rope port towards it, the run count at which it was last heard of. -/
structure Member where
  record : Nat := 0
  hops : Nat := 0
  qualifies : Bool := false
  port : Nat := 0
  at_ : Nat := 0
deriving DecidableEq, Repr

/-- A record of a snapshot staged in the cairn area (R338, R384): its cn, its record, the EVSEQ and the snapshot generation of its
line's tag; whether its write was withdrawn and is still to be made (R37, R346). -/
structure SnapLine where
  cn : Nat
  record : SnapRec
  evseq : Nat
  gen : Nat
  late : Bool := false
deriving DecidableEq, Repr

/-- Pair and cascade (R376 to R408). cnSent is the cn of the next cairn sent, cnApplied that of the last live cairn applied, cnHigh
how often the cn had come round by then, plus 1;
stream the cairns sent with their EVSEQ, newest first; stamps the cn each mirrored object holds, plus 1 (of a received one with cnHigh × 2^32
on top); waiting the live cairns held back (R380,
R384); asked the first cairn asked for again, askedTo the last then waiting, askedAt the run count then; dropPloamu and dropPkts what a standby
has discarded (R377); scr the last 58 bits that each rope lane's scrambler has sent (R430); lateFor the frame, plus 1, of a port's last late cairn; silent tells that no record
came for health_to; floorAt, testFailAt the run counts of the last pace-low and the last failed self-test; pairBad the conflict of
the last hello; promoted the frame count at the last promotion. -/
structure Pr where
  cause : Nat := 0
  sync : Nat := 0
  cnSent : Nat := 0
  cnApplied : Option Nat := none
  cnHigh : Nat := 1
  lateFor : Tab Nat := []
  silent : Bool := false
  floorAt : Option Nat := none
  floorHeld : Bool := false
  testFailAt : Option Nat := none
  pairBad : Option Nat := none
  stream : List (Nat × Nat × Cairn) := []
  waiting : List (Nat × Cairn) := []
  stamps : Tab Nat := []
  snap : List SnapLine := []
  asked : Option Nat := none
  askedTo : Nat := 0
  askedAt : Nat := 0
  dropPloamu : Nat := 0
  dropPkts : Nat := 0
  scr : Tab Nat := []
  everSync : Bool := false
  lateRun : Tab Nat := []
  peer : Option Nat := none
  peerAt : Nat := 0
  peerLat : Tab (Nat × Nat) := []
  pairLink : Option Nat := none
  protLost : Bool := false
  belayFault : Bool := false
  absent : Bool := false
  yieldAt : Option (Nat × Nat) := none
  syncFault : Bool := false
  revertFrom : Option Nat := none
  ropes : Tab Rope := []
  members : Tab Member := []
  registry : List (Nat × Nat) := []
  anchor : Option Nat := none
  conflict : Bool := false
  holdover : Bool := false
  slip : Bool := false
  promoted : Option Nat := none
deriving DecidableEq, Repr

/-! ### Downstream ports -/

/-- An XGEM frame of a downstream frame (R58 to R61): its on-line Port-ID, its key index (0 clear), where in the FS frame it begins, its
payload as sent, whether it is the last fragment of its packet. -/
structure XFrame where
  portId : Nat
  keyIndex : Nat
  at_ : Nat
  data : List Byte
  last : Bool
deriving DecidableEq, Repr

/-- The PSBd of a frame (R54, R55): PSync, the superframe counter and the PON-ID structure, 64 bits each, the last two with the HEC
that the device computes. -/
structure Psbd where
  psync : Nat
  sfc : Nat
  ponId : Nat
deriving DecidableEq, Repr

/-- A downstream frame (R54 to R62): whether in XGS mode, its superframe count, its PSBd, BWmap, PLOAM messages and XGEM frames, the
bytes filled with idle XGEM frames. -/
structure DsFrame where
  xgs : Bool
  sfc : Nat
  psbd : Psbd
  map : Option MapRec
  ploam : List Ploam
  body : List XFrame
  idle : Nat
deriving DecidableEq, Repr

/-- What is left of a packet that a frame cut (R58), with its cells that hold it (R323). -/
structure Frag where
  xgem : Nat
  data : List Byte
  cells : List Nat
deriving DecidableEq, Repr

/-- A key slot (R64): written, never read. -/
structure KeySlot where
  valid : Bool := false
  key : Nat := 0
deriving DecidableEq, Repr

/-- A terminal context's key slots (R60 to R68): the active slot, a pending switch (port, target, the superframe count
of its frame), the superseded slot with the frame count at which its grace began. -/
structure KeyCtx where
  slot0 : KeySlot := {}
  slot1 : KeySlot := {}
  active : Bool := false
  pend : Option (Nat × Bool × Nat) := none
  grace : Option (Bool × Nat) := none
deriving DecidableEq, Repr

/-- A tree port's framer (R54 to R80): framing, with the run count at which it last began or stopped; of the frame in transmission its
count, mode and PON-ID (R55); bytes left for XGEM in the frame in build, those it has filled with idle frames and the XGEM frames in it, the fragment carried over, the map it transmits and the
maps sealed for later frames (by frame count), the last map, the PLOAM queue with the count of this frame's messages, the group slots,
the frames with sealed maps since the last held one, whether the frame in build has had idle fill while eligible traffic stood ready
and the run counts of the ends of the last 8 frames that had, newest first (R79), the run count of the last discard for want of a key. -/
structure TpPort where
  framing : Bool := false
  framingAt : Nat := 0
  xgs : Bool := false
  ponId : Nat := 0
  sfc : Nat := 0
  left : Nat := 0
  idle : Nat := 0
  body : List XFrame := []
  rem : Option Frag := none
  map : Option MapRec := none
  heldMap : Bool := false
  maps : Tab (Option MapRec) := []
  ploam : List Ploam := []
  sent : List Ploam := []
  group0 : KeySlot := {}
  group1 : KeySlot := {}
  goodMaps : Nat := 0
  under : Bool := false
  underAt : List Nat := []
  discardAt : Nat := 0
  mirSfc : Tab Nat := []
  mirPloam : Tab (List Ploam) := []
deriving DecidableEq, Repr

/-! ### Upstream bursts -/

/-- What a burst's FS header said (R98, R100): nothing yet, owned, another ONU-ID's, none found in the window. -/
inductive Header where
  | none | good | foreign | missing
deriving DecidableEq, Repr

/-- An armed burst (R84 to R88): first data quantum, the port whose map placed it, its owner and profile, or the discovery window it
searches, its structures, where its first data bit is expected (1/16 bit at its port's rate), and what its reception has given so far.
ind tells that its header announced a PLOAMu; searched is how far a window has been searched (R88), held tells that its map was held (R165). cut lists the structures, by their first quantum, whose framing has ended (R105, R107);
got and lost the XGEM port contexts that yielded a complete packet or lost a frame, by structure; freed marks an owner freed after
arming. -/
structure Burst where
  first : Nat
  port : Nat
  owner : Option Nat
  win : Option MapWin
  short : Bool
  structs : List MapStruct
  freed : Bool := false
  expect : Int := 0
  shadow : Bool := false
  hdr : Header := .none
  searched : Nat := 0
  held : Bool := false
  ind : Bool := false
  firstMatch : Bool := true
  nearOk : Bool := true
  corrected : Nat := 0
  coded : Nat := 0
  bad : Bool := false
  cut : List Nat := []
  got : List (Nat × Nat) := []
  lost : List (Nat × Nat) := []
  stamp : Nat := 0
  loaded : Option RxValues := none
deriving DecidableEq, Repr

/-- A packet that upstream reassembly has completed, or a circuit fill (R109, R115). -/
structure Deliv where
  term : Nat
  xgem : Nat
  bytes : List Byte
  fill : Bool
  stamp : Nat
deriving DecidableEq, Repr

/-- A tree port's burst receiver (R86 to R91, R106, R112): armed bursts, the runs of qualifying frames for dLOS with this
frame's part of them, the last 16 frames' unexpected energy, the packets on their way to the parse cores, the burst integrity count, the
run count of the last deadline stop, and the hints: of each frame started, newest first, the map it carries and whether it is held
(R85). -/
structure UbPort where
  armed : List Burst := []
  losRun : Nat := 0
  losClear : Nat := 0
  qualify : Bool := false
  found : Bool := false
  uxl : List Bool := []
  uxlNow : Bool := false
  deliv : List Deliv := []
  integrity : Nat := 0
  decoAt : Nat := 0
  hintq : List (Option MapRec × Bool) := []
deriving DecidableEq, Repr

/-- The preset states (R91). -/
inductive PState where
  | empty | training | trained
deriving DecidableEq, Repr

/-- A preset of the preset store (R91 to R97); last is the run count of its last burst; peer the
state the partner reports. -/
structure Preset where
  st : PState := .empty
  clean : Nat := 0
  fails : Nat := 0
  vals : RxValues := ⟨[], 0, 0, 0⟩
  last : Option Nat := none
  peer : PState := .empty
deriving DecidableEq, Repr

/-- What dSD watches (R112): the corrected and coded bits of the second in progress with the run count at its start, whether the ratio
of the last second lay above 10^-sd_exp, for how many seconds in a row it has lain below a tenth of that. -/
structure Degrade where
  corrected : Nat := 0
  coded : Nat := 0
  start : Nat := 0
  high : Bool := false
  low : Nat := 0
deriving DecidableEq, Repr

/-- A terminal's reception state (R101, R112): defects, missing bursts in a row, the uncorrectable flags of its last 16
frames with bursts, this frame's flag, the run counts at which the condition of dUNC last held and a foreign burst last came, what dSD
watches, the last arrival offset, the launch time of the last burst in the stamp format (R364), the
run count of its last dying-gasp indication (R422). -/
structure TermRx where
  defects : Nat := 0
  miss : Nat := 0
  unc : List Bool := []
  uncNow : Option Bool := none
  uncAt : Nat := 0
  forAt : Nat := 0
  dyingAt : Option Nat := none
  sd : Degrade := {}
  offset : Int := 0
  launch : Nat := 0
deriving DecidableEq, Repr

/-- A reassembly chain of an XGEM port context (R109): the fragments so far and the frame of the first; dead, it is discarded
to its last fragment. -/
structure Chain where
  port : Nat
  term : Nat
  data : List Byte
  frame : Nat
  dead : Bool := false
deriving DecidableEq, Repr

/-! ### Activation and ranging -/

/-- The activation states (R124). -/
inductive ActSt where
  | free | waiting | assigned | operating | lost | disabled | leaving | allocated
deriving DecidableEq, Repr

/-- A terminal context (R119 to R150). Delays are in 1/16 bit: the EqD in force, the RTD last measured, the drift offset c. corr is the
pending correction Δ in whole bits, with the frame in which it was asked for and whether it was sent again; x the bounds on x in 0.1 µs;
due the messages still to send, one in each frame, dueAt the frame of the last sent; measured tells that its Registration is in; since is
the run count at its last change of state; frees counts the context's free commands (R156); prog0 and prog1 are its program words. -/
structure Ctx where
  st : ActSt := .free
  port : Nat := 0
  onu : Nat := 0
  tenant : Nat := 0
  sn : Option Nat := none
  eqd : Int := 0
  rtd : Int := 0
  kept : Option Int := none
  c : Int := 0
  corr : Option Int := none
  corrAt : Nat := 0
  corrSent : Bool := false
  overMax : Bool := false
  x : Option (Nat × Nat) := none
  cycles : Nat := 0
  due : List Ploam := []
  dueAt : Nat := 0
  since : Nat := 0
  measured : Bool := false
  inherited : Bool := false
  frees : Nat := 0
  prog0 : Nat := 0
  prog1 : Nat := 0
deriving DecidableEq, Repr

/-- An entry of a tree's found list (R139): serial number, bounds on x in 0.1 µs, bound elsewhere, the run count at which it entered. -/
structure Found where
  sn : Nat
  lo : Nat
  hi : Nat
  dup : Bool
  at_ : Nat
deriving DecidableEq, Repr

/-- A tree's activation machinery (R129 to R142, R151): found list, the entry taken, the open-discovery slice index and
whether a slice is due, the context in its ranging cycle with the slice index and, once its last slice is kept, that slice's frame and
last quantum, the context last attempted, the run of dropped windows; the frame counts of the last open-discovery slice due, of the last attempt and of the
last pre-assigned delay, none where one has not been sent or is asked for anew; the answers discarded in ranging slices (R137) and the
contexts returned to Waiting unanswered (R124). -/
structure ActTree where
  found : List Found := []
  taken : Option Found := none
  slice : Nat := 0
  due : Bool := false
  dueAt : Option Nat := none
  ranging : Option Nat := none
  rSlice : Nat := 0
  rDone : Option (Nat × Nat) := none
  lastTried : Option Nat := none
  attemptAt : Option Nat := none
  skipRun : Nat := 0
  padAt : Option Nat := none
  discarded : Nat := 0
  unanswered : Nat := 0
deriving DecidableEq, Repr

/-! ### Grant engines -/

/-- An allocation context with its report and history rows (R178 to R181). words holds allocation words 2 to 7; hist
the history entries (rep, use), newest first; used the bytes delivered since the last entry; frees its free commands; reported tells
that a report has been committed (R536). -/
structure Alloc where
  valid : Bool := false
  shadowOk : Bool := false
  histValid : Bool := false
  allocId : Nat := 0
  histCount : Nat := 0
  term : Nat := 0
  words : List Nat := [0, 0, 0, 0, 0, 0]
  occ : Nat := 0
  seq : Nat := 0
  age : Nat := 63
  crcSeen : Bool := false
  reported : Bool := false
  hist : List (Nat × Nat) := []
  used : Nat := 0
  frees : Nat := 0
deriving DecidableEq, Repr

/-- A buffered table write of a pitch (R198): which table, row, word, value, and the row's free count at the opening. -/
structure BufWrite where
  alloc : Bool
  row : Nat
  word : Nat
  val : Nat
  frees : Nat
deriving DecidableEq, Repr

/-- A window descriptor (R135, R206): kind 0 none, 1 open discovery, 2 ranging; span, slice offset, slice width. -/
structure Desc where
  kind : Nat := 0
  span : Nat := 0
  off : Nat := 0
  width : Nat := 0
  slice : Nat := 0
  term : Option Nat := none
deriving DecidableEq, Repr

/-- What SEAL hands to the map builder (R160): the frame, structures as (allocation, start, length, flags, gated, odd
port), windows placed by descriptor, calibration windows, recalls, and the pstates read at the opening. -/
structure Draft where
  frame : Nat := 0
  structs : List (Nat × Nat × Nat × Nat × Bool × Bool) := []
  wins : List (Nat × Nat) := []
  cals : List (Nat × Nat) := []
  recalls : List (Nat × Nat) := []
  descs : List Desc := []
  short : List Nat := []
deriving DecidableEq, Repr

/-- An open pitch (R154, R185): engine, frame, whether it opened late on the spare, its image bank with the length and
entry it runs, the machine state, the words of its partition written so far, its place in the free values, the tables as
they stood at its opening, the tree's ports and its keep region as they stood then, the special registers read then, the run counts at its
opening and at its deadline. -/
structure Pitch where
  engine : Nat
  late : Bool
  gen : Nat
  bank : Bool
  len : Nat
  regs : List Nat
  z : Bool := false
  n : Bool := false
  c : Bool := false
  v : Bool := false
  pc : Nat
  stack : List Nat := []
  ds : Tab (Option Nat) := []
  scratch : Nat
  draft : Draft
  sweep : Option (Nat × Nat × Nat) := none
  wbuf : List BufWrite := []
  sealed : Bool := false
  count : Nat := 0
  allocs : Tab Alloc
  ctxs : Tab Ctx
  pstates : Tab Nat
  lobis : List Nat
  mfs : List Nat
  ports : List Nat
  keep : Tab Nat
  opened : Nat
  deadline : Nat
deriving DecidableEq, Repr

/-- A tree's place in the map pipeline (R154, R162 to R166): the open pitch, the draft at the map builder, the frames a
pitch was due for with their reasons, the held frames of the current run, whether it ever sealed, the structures removed at
its last seal, whether it has moved to the new engine of a rotation, whether a pitch waits for a takeover load and the run count at which
it was due to open, the reason of its last pitch (R163, R210). -/
structure GeTree where
  pitch : Option Pitch := none
  draft : Option Draft := none
  due : Tab (Option Nat) := []
  holdRun : Nat := 0
  everSealed : Bool := false
  lastChk : Nat := 0
  moved : Bool := false
  waits : Bool := false
  waitFrom : Nat := 0
  lastReason : Nat := 0
deriving DecidableEq, Repr

/-- The grant engines' shared state (R153, R167 to R176, R184): image banks and lengths, the bank in force, entries in
force, the keep store (tree × 512 + word), the takeover loads in progress (quad, spare), the first begun first, the rotation in progress
(quad, old, new engine), the frame in which a rotation was asked for or deferred, the frame of the last instant at which one was due, the
engine under repair, the engines repaired beside the spare that GE_ENG_STATUS shows, spares too (R173), the engines whose last pass
failed, by quad the fence event that took its engine from it, the held history row. -/
structure Ge where
  bank0 : Tab Nat := []
  bank1 : Tab Nat := []
  cur : Bool := false
  len : Nat := 0
  entries : Tab Nat := []
  keep : Tab Nat := []
  takeover : List (Nat × Nat) := []
  rotation : Option (Nat × Nat × Nat) := none
  rotAsked : Option Nat := none
  rotAt : Option Nat := none
  repair : Option Nat := none
  idle : List Nat := []
  bistFailed : List Nat := []
  fenceEv : Tab (Option Nat) := []
  histHeld : Option (Nat × List Nat) := none
deriving DecidableEq, Repr
/-! ### Packets -/

/-- A packet (R261 to R263, R304, R322 to R324): its number, source, bytes, the terminal and XGEM port context it came from,
its ring, the tenant that binds it, fill and drop-eligible marks, its cells with the first one's reuse count, the cells whose content was
lost (by their place in the chain) and the reuse counts of its cells that it took to deep memory, the time of its first pass, the parse and rule-set generations it took, its stamps, and the inject ring's descriptor that asked for a stamp. -/
structure Pkt where
  pid : Nat
  src : Nat
  bytes : List Byte
  term : Nat := 0
  xgem : Nat := 0
  ring : Nat := 0
  bound : Option Nat := none
  fill : Bool := false
  de : Bool := false
  cells : List Nat := []
  lost : List Nat := []
  tagGens : List Nat := []
  cgen : Nat := 0
  entered : Nat := 0
  pgen : Nat := 0
  rgen : Nat := 0
  arrived : Nat := 0
  stampReq : Bool := false
deriving DecidableEq, Repr

/-- What the verdict of a pass asks for (R276), with its fault code and pc where the device made it (R314). -/
inductive Verdict where
  | enq (q xgem : Nat) (de : Bool)
  | drp (reason : Nat)
  | rcv (entry : Nat)
  | exc (reason code pc : Nat)
deriving DecidableEq, Repr

/-- An outstanding lookup or hash (R272 to R275): destination, kind (0 exact, 1 ternary, 2 resolved), table, key registers,
and the result where it was known at issue. -/
structure Look where
  dst : Nat
  kind : Nat
  tbl : Nat
  key : List Nat
  res : List Nat
deriving DecidableEq, Repr

/-- A pass on a thread (R262 to R275): core, thread, the run count at its dispatch, registers, flags, cursor, pc, call stack,
instructions retired, what is outstanding; the tenant that bound its packet at its start (R283). -/
structure Pass where
  core : Nat
  thread : Nat
  at_ : Nat := 0
  regs : List Nat
  cur : Nat := 0
  z : Bool := false
  n : Bool := false
  c : Bool := false
  v : Bool := false
  x : Bool := false
  pc : Nat
  stack : List Nat := []
  count : Nat := 0
  looks : List Look := []
  bound : Option Nat := none
deriving DecidableEq, Repr

/-- A packet in the parse stage (R276, R277): the source whose order it stands in, the number of its pass, the entry a
recirculated pass starts at, its window's origin, p8 to p15 as carried; its pass while it has a thread; its verdict once the
pass has ended. begun tells that it has taken its generations. The core of its last pass; whether its verdict's request stands withdrawn
until the target is up, and whether one was before (R37). -/
structure Work where
  pkt : Pkt
  place : Nat
  passNo : Nat := 1
  entry : Option Nat := none
  origin : Nat := 0
  carry : List Nat := [0, 0, 0, 0, 0, 0, 0, 0]
  begun : Bool := false
  run : Option Pass := none
  verdict : Option Verdict := none
  cursor : Nat := 0
  core : Option Nat := none
  held : Bool := false
  refused : Bool := false
deriving DecidableEq, Repr

/-- A parse generation (R277, R282): the bank it runs, its image length, the entries of the sources. -/
structure ParseGen where
  bank : Bool := false
  len : Nat := 0
  entries : Tab Nat := []
deriving DecidableEq, Repr

/-- The parse stage (R261 to R288): the two banks of the image store, the words in which a core's own banks differ from it, having
been staged while the core was out of service ((core × 2 + bank) × 4096 + address), the current and the retiring generation, the packets in
the stage in the order they entered it, the next packet number, the core under repair, the core a standby tests, the run count
of the last 0x4001. -/
structure Pc where
  bank0 : Tab Nat := []
  bank1 : Tab Nat := []
  stale : Tab (Option Nat) := []
  cur : ParseGen := {}
  old : ParseGen := {}
  work : List Work := []
  pids : Nat := 0
  repair : Option Nat := none
  testing : Nat := 0
  faultMs : Option Nat := none
deriving DecidableEq, Repr

/-! ### Classification -/

/-- A slot of the exact-match store (R291 to R303): table, key, tenant, action words, the generations it was added and deleted at. -/
structure Slot where
  tbl : Nat
  key : List Nat
  tenant : Nat
  act1 : Nat
  act2 : Nat
  added : Option Nat
  deleted : Option Nat
deriving DecidableEq, Repr

/-- A line of the exact-match cache (R295 to R297): a copy of a slot, or a negative entry. -/
inductive CLine where
  | slot (i : Nat)
  | neg (tbl : Nat) (key : List Nat) (tenant : Option Nat) (gen : Nat)
deriving DecidableEq, Repr

/-- One bank of a ternary entry (R299, R300): key and mask of 144 bits, two action words. -/
structure TBank where
  valid : Bool := false
  tenant : Nat := 0
  key : List Nat := []
  mask : List Nat := []
  act1 : Nat := 0
  act2 : Nat := 0
deriving DecidableEq, Repr

/-- A ternary entry (R300): its banks, which is in force for the current and for the retiring generation, whether the other has
been written since the last commit. -/
structure TEntry where
  bank0 : TBank := {}
  bank1 : TBank := {}
  cur : Bool := false
  ret : Bool := false
  written : Bool := false
deriving DecidableEq, Repr

/-- An exception channel's bucket (R312), in 10^-7 of a token with the run count of its last refill in ns, and its drops in
the 1 ms of the run count named and in the one before. -/
structure Chan where
  level : Nat := 640000000
  last : Nat := 0
  ms : Option Nat := none
  drops : Nat := 0
  prev : Nat := 0
deriving DecidableEq, Repr

/-- The classification block (R289 to R319): slots, cache lines by set with the most recently used first, ternary entries,
channels, the records that the exception path has delivered in the millisecond named (R313), the spread members whose buckets have moved
(group × 16 + member), the 1 ms of the last 0x5002, the command on an exact entry that waits for deep memory: requester, op, table (R37, R346). -/
structure Cl where
  slots : Tab (Option Slot) := []
  cache : Tab (List CLine) := []
  tern : Tab TEntry := []
  chans : Tab Chan := []
  path : Nat × Nat := (0, 0)
  moved : List Nat := []
  mismatchMs : Option Nat := none
  held : Option (Requester × Nat × Nat) := none
deriving DecidableEq, Repr

/-! ### Queues -/

/-- A page of the spill area (R335): its subchannel, its number there, lines written and lines done with. -/
structure Page where
  sub : Nat
  no : Nat
  used : Nat
  done : Nat
deriving DecidableEq, Repr

/-- A fetch in flight whose packet has been dropped since (R331): the cells it takes and the lines it reads. -/
structure DeadFetch where
  cells : List Nat
  lines : List Nat
deriving DecidableEq, Repr

/-- A queue's packets (R327, R329): on chip, in the order they leave; being fetched; being fetched but
dropped since; in deep memory; whether it is latched;
its pages, oldest first; the head packet that R252 has judged. -/
structure Queue where
  chip : List Pkt := []
  fetch : List Pkt := []
  dead : List DeadFetch := []
  deep : List Pkt := []
  latched : Bool := false
  pages : List Page := []
  judged : Option Nat := none
deriving DecidableEq, Repr

/-- A node's or queue's tags and its own virtual time (R237 to R240): S, F, V; elig tells that S was taken for the present
stretch of eligibility. -/
structure Tag where
  s : Nat := 0
  f : Nat := 0
  v : Nat := 0
  elig : Bool := false
deriving DecidableEq, Repr

/-- A shaper bucket (R243 to R246): B in 2^-24 byte, the run count in ns of its last update, the profile it runs under with
its rate and size. -/
structure Bucket where
  b : Int := 0
  last : Nat := 0
  profile : Nat := 0
  rate : Nat := 0
  cbs : Nat := 0
deriving DecidableEq, Repr

/-- A policer's buckets (R247, R249). (PRESUMED, unsafe: log entry 34.) -/
structure Policer where
  tc : Nat
  tp : Nat
  last : Nat
deriving DecidableEq, Repr

/-- A gate list in one generation (R250): cycle, base, gap mask, entries of interval and mask. -/
structure GList where
  cycle : Nat := 0
  base : Nat := 0
  gap : Nat := 0
  entries : List (Nat × Nat) := []
deriving DecidableEq, Repr

/-- A gate list at work (R253 to R256): the list in force or awaiting its start, its start, whether it has started; the old
list with its start and the end of its cycle in progress while that runs. Instants are ns with every wrap counted. -/
structure Gate where
  cur : GList := {}
  start : Option Int := none
  started : Bool := false
  old : Option (GList × Int × Int) := none
deriving DecidableEq, Repr

/-- Queues, scheduler, shaping, gates (R232 to R260): table words as written (staged for tables 5, 7, 8), the committed profiles
(rate × 2^24 + size), queues, tags and buckets by level × 131072 + row, policers, gates, the run count in 2^-40 ns from which an
egress pulls again (R537), the frames of each uplink port that were cut in transmission (R438), the frame and the cycle in it since
which a tree port's scheduler has held eligible traffic (R79). -/
structure Qs where
  tab : Tab Nat := []
  profiles : Tab Nat := []
  queues : Tab Queue := []
  tags : Tab Tag := []
  buckets : Tab Bucket := []
  policers : Tab (Option Policer) := []
  gates : Tab Gate := []
  pullAt : Tab Nat := []
  cut : Tab Nat := []
  ready : Tab (Option (Nat × Nat)) := []
deriving DecidableEq, Repr

/-! ### Buffers and memory -/

/-- A spill write outstanding (R323, R328): its queue, its packet, its cells, the pages of its lines (subchannel × 2^24 + page). -/
structure SpillWrite where
  q : Nat
  pid : Nat
  cells : List Nat
  pages : List Nat
deriving DecidableEq, Repr

/-- A scrub sweep (R341): the rows or lines it has read, each by its number, the run count at its start, whether it has been reported late. -/
structure Sweep where
  seen : List Nat := []
  start : Nat := 0
  late : Bool := false
deriving DecidableEq, Repr

/-- The spill thresholds in force, in 4,096-cell units (R332). -/
structure SpillLevels where
  on : Nat := 0x100
  off : Nat := 0xF0
  low : Nat := 0x180
deriving DecidableEq, Repr

/-- The packet buffer and deep memory (R320 to R347): cells in use, reuse counts, poisoned and retired cells; cells whose
packet has left and that the egress has still to read; outstanding spill writes, oldest first; the thresholds in force; spilling;
whether spill was blocked; pages in use (subchannel × 2^24 + page), the subchannel of the next queue's first page; rows redirected,
rows without a spare, rows whose copy runs and rows whose spare was written as uncorrectable, each by (block × 2048 + macro) × 1024 + row,
spares used by block × 2048 + macro; the subchannel whose lines the reserve holds, whether their copy runs and the lines written at
their new place meanwhile, the subchannels left unrelocated; the deep lines that are uncorrectable until written whole (subchannel × 2^28 +
line); the sweeps of the scrubber; the run count in ms of the last 0x6004; the test in progress. -/
structure Bm where
  used : List Nat := []
  cgen : Tab Nat := []
  poison : List Nat := []
  retired : List Nat := []
  draining : List Nat := []
  spills : List SpillWrite := []
  levels : SpillLevels := {}
  spilling : Bool := false
  blocked : Bool := false
  pages : List Nat := []
  nextSub : Nat := 0
  repaired : List Nat := []
  bare : List Nat := []
  copying : List Nat := []
  gone : List Nat := []
  spares : Tab Nat := []
  reserve : Option Nat := none
  relocating : Option Nat := none
  rewritten : List Nat := []
  degraded : List Nat := []
  bad : List Nat := []
  chip : Sweep := {}
  deep : Sweep := {}
  dropMs : Option Nat := none
  test : Option Nat := none
deriving DecidableEq, Repr

/-! ### Rings and channels -/

/-- A record waiting for a receive ring (R313, R314): its bytes and arrival stamp. -/
structure RxRec where
  bytes : List Byte
  stamp : Nat
deriving DecidableEq, Repr

/-- What a channel is doing with its transfer (R458 to R463): reading a descriptor, reading the buffer, writing it, waiting for
the flush read, ready to write back; held, its bytes moved, until its packet is in cells and its stamp has come (R459). -/
inductive Stage where
  | desc | read | write | flush | back | held
deriving DecidableEq, Repr

/-- A transfer of a channel: ring, descriptor index, stage; the host address, length, eop, stamp and irq of its descriptor; bytes
received or issued, the buffer, bytes moved into the device or into the buffer, the status it will write back, truncated, whether
it writes a loss record; the packet whose stamp it awaits; whether its ring has been reset by an FLR (R454). -/
structure Xfer where
  ring : Nat
  desc : Nat
  stage : Stage
  addr : Nat := 0
  len : Nat := 0
  eop : Bool := false
  stampReq : Bool := false
  irq : Bool := false
  asked : Nat := 0
  issued : Nat := 0
  buf : List Byte := []
  data : List Byte := []
  moved : Nat := 0
  status : Nat := 0
  trunc : Bool := false
  loss : Bool := false
  stamp : Nat := 0
  pid : Option Nat := none
  gone : Bool := false
deriving DecidableEq, Repr

/-- A ring's own state (R455 to R460): records waiting (kind 1); the bytes of the packet an inject ring is moving, the status under
which the rest of a dropped packet goes (0: none is dropped), its descriptors that are not yet written back, oldest first; event entries
waiting, the count lost while full and the EVSEQ of the last lost; completions since the last doorbell, the run count of the first of them. -/
structure Ring where
  recs : List RxRec := []
  part : List Byte := []
  spoilt : Nat := 0
  owed : List Xfer := []
  events : List (List Nat) := []
  lost : Nat := 0
  lostSeq : Nat := 0
  since : Nat := 0
  sinceAt : Nat := 0
deriving DecidableEq, Repr

/-- A channel (R461 to R469): its state as HD_CH_STATUS codes it, its transfer, read bursts outstanding, pre-empted, the ring last
served, withdrawals of the same beat, paused by a domain's request. -/
structure Dma where
  st : Nat := 0
  xfer : Option Xfer := none
  reads : Nat := 0
  preempted : Bool := false
  last : Nat := 0
  withdrawn : Nat := 0
  domain : Bool := false
deriving DecidableEq, Repr

/-- A packet that an inject ring has moved into the device whole: ring, bytes, descriptor, whether a stamp was asked. -/
structure Inject where
  ring : Nat
  bytes : List Byte
  chan : Nat
  stampReq : Bool
deriving DecidableEq, Repr

/-- An entry of an MSI-X table as PCIe defines it (R448, R452): the message's address and data, the mask bit, 1 at reset; its pending bit.
(PRESUMED, unsafe: log entry 25.) -/
structure Msix where
  addr : Nat := 0
  data : Nat := 0
  masked : Bool := true
  pend : Bool := false
deriving DecidableEq, Repr

/-- The host interface (R448 to R470): rings, channels, the channels that hold a mover with the longest holder first, packets on
their way to source 98, egress stamps by packet number (none where it left on no UL ball), the link's
payload and read request sizes, VF Enable, link trained; the function-level resets that still wait for a read, with the rings each
withdrew (R454); the free number of the values that the host wrote into the physical function's MSI-X table at link-up, and the vectors
pending there; the virtual functions' MSI-X entries (R448, R452); whether an errored completion stands in AER (R448). -/
structure Hd where
  rings : Tab Ring := []
  chans : Tab Dma := []
  movers : List Nat := []
  inject : List Inject := []
  stamps : List (Nat × Option Nat) := []
  mps : Nat := 128
  mrrs : Nat := 512
  vfs : Bool := false
  link : Bool := false
  flrs : List (Nat × Nat) := []
  table : Option Nat := none
  pba : List Nat := []
  vtab : Tab Msix := []
  aer : Bool := false
deriving DecidableEq, Repr

/-! ### Imhus -/

/-- A template (R417, R418): its bytes, whether its last chunk has come, and a version staged by a later TEMPLATE_PUT, ready once
whole. (DESIGN CHOICE, unsafe: log entry 57.) -/
structure Template where
  body : List Nat := []
  whole : Bool := false
  staged : Option (List Nat) := none
  ready : Bool := false
deriving DecidableEq, Repr

/-- A binding (R414 to R416). -/
structure Binding where
  sn : Nat
  tree : Nat
  template : Nat
  tenant : Nat
  onu : Nat
  directed : Bool
deriving DecidableEq, Repr

/-- An alarm (R422, R423): id, kind, scope, severity, the EVSEQ of its root; a cleared alarm is kept no longer. -/
structure Alarm where
  id : Nat
  kind : AlarmKind
  scope : AlarmScope
  severity : Nat
  root : Nat
deriving DecidableEq, Repr

/-- The messages of the OMCI message sets that Imhus uses (R421). -/
inductive OmciAction where
  | mibUpload | mibReset | create | delete | set | get | getNext | alarm | avc | syncTime | download
deriving DecidableEq, Repr

/-- An OMCI request (R421): its action, the class and the instance of the managed entity, its contents. -/
structure OmciReq where
  action : OmciAction
  cls : Nat
  inst : Nat
  body : List Nat
deriving DecidableEq, Repr

/-- What Imhus does with a terminal (R420): the tries of the outstanding OMCI request, with the run count of the last, whether it is
provisioned, its template, the template's bytes in the version that it was provisioned with, whether its OMCI alarm's root is present, the
run count of its last key; whether a version is held for it; the requests not yet answered, the first outstanding, and the whole
sequence; whether an APPLY asks for it anew; the bytes whose rows are installed and the tenant they are installed for. -/
structure Omci where
  tries : Nat := 0
  done : Bool := false
  template : Nat := 0
  body : List Nat := []
  alarm : Bool := false
  at_ : Nat := 0
  keyAt : Nat := 0
  held : Bool := false
  todo : List OmciReq := []
  whole : List OmciReq := []
  again : Bool := false
  rows : List Nat := []
  tenant : Nat := 0
deriving DecidableEq, Repr

/-- The Imhus firmware (R410 to R427): loaded, halted cores, the command it holds, pending commands by slot with their tags,
templates, bindings, alarms with the next id, the roots present, soak times in 0.1 s, ALARM overflow, policy take_unsynced, PTP
configuration, terminals' OMCI state, image chunks, templates that slots re-provision, pacer aligned on 1PPS since READY, terminals that entered Lost
with their event's stamp, terminals whose template's records are still to be installed (R420, R427), the terminals that a branch cut has
cut off (R422), the records that the exception path has brought from terminals' OMCCs and that are not yet read (R312, R420). -/
structure Imhus where
  loaded : Bool := false
  halted : List Nat := []
  cmd : Option (List Nat) := none
  pend : Tab (Option (Nat × Nat)) := []
  templates : Tab Template := []
  bindings : List Binding := []
  alarms : List Alarm := []
  nextId : Nat := 0
  roots : List (AlarmKind × AlarmScope × Nat) := []
  raiseSoak : Nat := 25
  clearSoak : Nat := 100
  overflow : Option Alarm := none
  takeUnsynced : Bool := false
  ptp : Option (List Nat) := none
  terms : Tab Omci := []
  image : List Nat := []
  apply : Tab Nat := []
  alignedPps : Bool := false
  lost : List (Nat × Nat) := []
  flowsDue : List Nat := []
  cut : List Nat := []
  heard : List (Nat × List Byte) := []
deriving DecidableEq, Repr


/-! ### Conditions that must last -/

/-- Since which run count a condition has held without a break, none while it does not hold: below_floor (R388), a standby's partner
absent, time_ok 0 while the partner's is 1 (R424), a follower without a path to an anchor (R407); the commit of a cn that waits (R380);
and of each alarm's root whether it is present and since when it has been so (R422, R423). -/
structure Since where
  floor : Option Nat := none
  absent : Option Nat := none
  time : Option Nat := none
  path : Option Nat := none
  commit : Option (Nat × Nat) := none
  roots : List (AlarmKind × AlarmScope × Bool × Nat) := []
deriving DecidableEq, Repr

/-! ### What leaves the device -/

/-- The attributes of a request on the host link (R464): relaxed ordering, no snoop. -/
structure PcieAttr where
  ro : Bool := false
  ns : Bool := false
deriving DecidableEq, Repr

/-- What has left the device, as the outside sees it: committed events, messages, frames, packets.
(DESIGN CHOICE, safe: log entry 1.) -/
inductive Out where
  | event (seq block inst code arg stamp : Nat)
  | msix (vector fn addr data : Nat)
  | pme (fn : Nat)
  | coreEntry (core source : Nat)
  | coreWake (core : Nat)
  | errorBit (lane : Nat)
  | rope (p : Nat) (kind : Nat) (body : List Nat)
  | groups (lane : Nat) (gs : List Nat)
  | heard (p : Nat) (kind : Nat) (bytes : List Nat)
  | line (lane : Nat) (x : LaneTx)
  | frame (port : Nat) (f : DsFrame)
  | cairn (cn evseq : Nat) (c : Cairn)
  | snap (cn evseq : Nat) (r : SnapRec)
  | packet (egress : Nat) (bytes : List Byte)
  | hostRead (fn addr len : Nat) (attr : PcieAttr)
  | hostWrite (fn addr : Nat) (bytes : List Byte) (attr : PcieAttr)
  | record (channel : Nat) (bytes : List Byte)
  | omci (term try_ : Nat) (q : OmciReq)
  | ploamu (term : Nat) (msg : List Byte)
deriving DecidableEq, Repr

/-! ### The state -/

/-- The whole state of the block. pending is the queue of waiting commands, first in first out. -/
structure State where
  pending : List Instr := []
  rdata : Nat := 0
  out : List Out := []
  fresh : Nat := 0
  rf : Tab Nat := []
  caps : List (Requester × Nat × Nat) := []
  glb : Glb := {}
  evu : Evu := {}
  tal : Tab Tally := []
  slots : Slots := {}
  gens : Tab Gen := []
  ts : Ts := {}
  ic : Ic := {}
  pm : Pm := {}
  pw : Pw := {}
  lanes : Tab Lane := []
  belay : Belay := {}
  pr : Pr := {}
  tp : Tab TpPort := []
  keys : Tab KeyCtx := []
  ub : Tab UbPort := []
  presets : Tab Preset := []
  termRx : Tab TermRx := []
  chains : Tab (Option Chain) := []
  fillRun : Tab Bool := []
  ctxs : Tab Ctx := []
  onuHolds : List (Nat × Nat × Nat) := []
  act : Tab ActTree := []
  allocs : Tab Alloc := []
  allocHolds : List (Nat × Nat × Nat × Nat) := []
  ge : Ge := {}
  trees : Tab GeTree := []
  rows : Tab Nat := []
  pc : Pc := {}
  cl : Cl := {}
  qs : Qs := {}
  bm : Bm := {}
  hd : Hd := {}
  imh : Imhus := {}
  lasting : Since := {}
deriving DecidableEq, Repr

/-- QS table 4, word 1: ovh_adj is 8 on tree ports, 20 on uplink ports (R258). -/
def resetQs : Tab Nat := (List.range 96).map (fun e => ((4 * 131072 + e) * 8 + 1, if e < 64 then 8 else 20))

/-- CL kinds 6 and 7 (R315): every channel discards, rate 10, burst 64, snap 4; reasons from 0x10 on map to channel 1. -/
def resetRows : Tab Nat :=
  (List.range 16).flatMap (fun c =>
    let k := (6 * 131072 + c) * 8
    [(k, 2 * 2 ^ 16), (k + 1, 10), (k + 2, 64), (k + 3, 4)])
  ++ (List.range 240).map (fun r => ((7 * 131072 + 16 + r) * 8, 1))

/-- Fields whose reset value differs by element: GE_QUAD_MAP engine q for quad q (R153), PW_MON domain by monitor (R506). -/
def resetFields : Tab Nat :=
  (List.range 15).map (fun i => (F.GE_QUAD_MAP_engine.off * 64 + (i + 1) * F.GE_QUAD_MAP_engine.stride * 64 + F.GE_QUAD_MAP_engine.lo, i + 1))

/-- The machine right after reset. (DESIGN CHOICE, unsafe: log entry 5.) -/
def State.reset : State := { rf := resetFields, rows := resetRows, qs := { tab := resetQs } }

end Sys2Proof.Machine
end

