-- ==== Sys2Proof/Machine/Group.lean ====
section
/-! DEFINITION. The 18b/20b code of the rope lanes (R430 to R432): groups, the scrambler, the training pattern, group lock; the frames
and messages they carry (R396, R398); the patterns of R443. -/

namespace Sys2Proof.Machine

/-! ### Groups (R430) -/

def groupHeader (g : Nat) : Nat := g / 2 ^ 18 % 4
def dataGroup (w : Nat) : Nat := 2 ^ 18 + w % 2 ^ 18

/-- The comma: the control group with the only control code. -/
def comma : Nat := 2 * 2 ^ 18 + 0x3E0C1

/-- A header of a data or a control group. -/
def headerOk (g : Nat) : Bool := groupHeader g == 1 || groupHeader g == 2

/-- Invalid: a control group with another code, a header 0b00 or 0b11. -/
def groupInvalid (g : Nat) : Bool := groupHeader g != 1 && g != comma

/-! ### The scrambler x^58 + x^39 + 1, self-synchronising, most significant bit first (R430) -/

/-- n bits of w, from bit n − 1 on, scrambled: the last 58 bits sent, and the word built so far. -/
def scrambleBits (w : Nat) : Nat → Nat × Nat → Nat × Nat
  | 0, x => x
  | n + 1, (st, out) =>
    let b := (w / 2 ^ n + st / 2 ^ 38 + st / 2 ^ 57) % 2
    scrambleBits w n ((st * 2 + b) % 2 ^ 58, out * 2 + b)

/-- The same undone: the last 58 bits received. -/
def descrambleBits (w : Nat) : Nat → Nat × Nat → Nat × Nat
  | 0, x => x
  | n + 1, (st, out) =>
    let c := w / 2 ^ n % 2
    descrambleBits w n ((st * 2 + c) % 2 ^ 58, out * 2 + (c + st / 2 ^ 38 + st / 2 ^ 57) % 2)

/-- Words as data groups, with the scrambler's state before and after. -/
def sendWords (st : Nat) (ws : List Nat) : Nat × List Nat :=
  let r := ws.foldl (fun x w => let y := scrambleBits (w % 2 ^ 18) 18 (x.1, 0); (y.1, dataGroup y.2 :: x.2)) (st, [])
  (r.1, r.2.reverse)

/-- The training pattern once: a comma and seven scrambled zero data groups (R432). -/
def trainGroups (st : Nat) : Nat × List Nat :=
  let r := sendWords st (List.replicate 7 0)
  (r.1, comma :: r.2)

/-! ### Reception (R431) -/

/-- What a rope lane's receiver keeps along a run of groups: the descrambler, the words (latest first; 2^18 for a group that is no data
group), which of the last 64 groups were invalid (bit 0 the latest), whether 16 of 64 have been. -/
structure GroupRx where
  st : Nat
  words : List Nat
  seen : Nat
  lost : Bool
deriving DecidableEq, Repr

/-- How many of 64 flags are set. -/
def flags64 (n : Nat) : Nat := ((List.range 64).filter (fun i => n / 2 ^ i % 2 == 1)).length

/-- One group received. -/
def GroupRx.take (x : GroupRx) (g : Nat) : GroupRx :=
  let bad := groupInvalid g
  let seen := (x.seen * 2 + b2n bad) % 2 ^ 64
  let lost := x.lost || (bad && decide (16 ≤ flags64 seen))
  if groupHeader g = 1 then
    let r := descrambleBits (g % 2 ^ 18) 18 (x.st, 0)
    { st := r.1, words := r.2 :: x.words, seen := seen, lost := lost }
  else { x with words := 2 ^ 18 :: x.words, seen := seen, lost := lost }

/-- A run of groups received on lane x. -/
def Lane.receive (x : Lane) (gs : List (BitVec 20)) : GroupRx :=
  gs.foldl (fun r g => r.take g.toNat) { st := x.descr, words := [], seen := x.seen, lost := false }

/-- What the hunting receiver saw at one bit offset gives group lock: a comma, or 64 successive valid headers (R431). -/
def locks (gs : List (BitVec 20)) : Bool :=
  gs.any (fun g => g.toNat == comma) || (decide (64 ≤ gs.length) && gs.all (fun g => headerOk g.toNat))

/-- The bits of a run of groups as one number, the first most significant. -/
def groupBits (gs : List (BitVec 20)) : Nat := gs.foldl (fun n g => n * 2 ^ 20 + g.toNat) 0

/-- The groups cut from a run k bits later: the receiver has slipped k bits (R431). -/
def slipped (k : Nat) (gs : List (BitVec 20)) : List (BitVec 20) :=
  let n := groupBits gs
  (List.range (gs.length - 1)).map (fun i => BitVec.ofNat 20 (n / 2 ^ (20 * (gs.length - 1 - i) - k)))

/-- The bit offset from that of the groups at which the receiver finds a comma, or 64 successive valid headers at their own (R431). -/
def lockAt (gs : List (BitVec 20)) : Option Nat :=
  if locks gs then some 0 else (List.range 20).find? (fun k => decide (0 < k) && (slipped k gs).any (fun g => g.toNat == comma))

/-! ### Rope frames (R396) and messages (R398) -/

/-- One bit into a CRC-32C register, most significant bit first. -/
def crcMsb (c : Nat) (b : Bool) : Nat :=
  let top := bit c 31 != b
  let c := c * 2 % 2 ^ 32
  if top then c ^^^ 0x1EDC6F41 else c

/-- The CRC-32C of words of 18 bits, most significant bit first. -/
def ropeCrc (ws : List Nat) : Nat :=
  ws.foldl (fun c w => (List.range 18).foldl (fun c i => crcMsb c (bit w (17 - i))) c) 0xFFFFFFFF ^^^ 0xFFFFFFFF

/-- The lane at place k of a frame with count n is whole: its frame word, its CRC (R396). -/
def ropeLaneOk (k n : Nat) (l : List Nat) : Bool :=
  let crc := ropeCrc ((l.drop 1).take 253)
  l.length == 256 && l.getD 0 0 == 0x2D * 4096 + k * 512 + n && l.getD 254 0 == crc / 2 ^ 14 && l.getD 255 0 == crc % 2 ^ 14

/-- The words of a lane at place k of the frame with count n that carries 253 words of payload (R396). -/
def ropeLaneWords (k n : Nat) (payload : List Nat) : List Nat :=
  let crc := ropeCrc payload
  (0x2D * 4096 + k * 512 + n) :: payload ++ [crc / 2 ^ 14, crc % 2 ^ 14]

/-- The symbols of a frame's payload, lane by lane. -/
def ropeSymbols (lanes : List (List Nat)) : List Nat :=
  lanes.flatMap (fun l => ((l.drop 1).take 253).flatMap (fun w => [w / 512, w % 512]))

/-- The 253 words that carry up to 506 symbols, idle symbols after them. -/
def ropePayload (syms : List Nat) : List Nat :=
  (List.range 253).map (fun i => syms.getD (2 * i) 256 * 512 + syms.getD (2 * i + 1) 256)

/-- The symbols of a message: its type, its length, its bytes. -/
def messageSymbols (kind : Nat) (bytes : List Nat) : List Nat :=
  (256 + kind) :: bytes.length / 256 % 256 :: bytes.length % 256 :: bytes.map (· % 256)

/-- The types of R398; others are discarded. -/
def messageTypes : List Nat := [0x01, 0x02, 0x03, 0x04, 0x10, 0x11, 0x12, 0x13, 0x14, 0x20, 0x21, 0x30, 0x40]

/-- What a receiver has of the messages of a link: the symbols of the one in progress, latest first; those complete, type and bytes,
latest first. -/
structure RopeRx where
  part : List Nat
  done : List (Nat × List Nat)
deriving DecidableEq, Repr

/-- One more symbol (R398). -/
def RopeRx.take (x : RopeRx) (c : Nat) : RopeRx :=
  if 256 ≤ c then { x with part := if c = 256 then [] else [c] }
  else if x.part.isEmpty then x
  else
    let r := (c :: x.part).reverse
    if 3 ≤ r.length && r.length == 3 + r.getD 1 0 * 256 + r.getD 2 0 then
      { part := [], done := if messageTypes.contains (r.headD 0 - 256) then (r.headD 0 - 256, r.drop 3) :: x.done else x.done }
    else { x with part := c :: x.part }

/-- A list cut into pieces of n. -/
def pieces (n : Nat) : Nat → List Nat → List (List Nat)
  | 0, _ => []
  | k + 1, l => if l.isEmpty then [] else l.take n :: pieces n k (l.drop n)

/-- What a stripe's lanes have sent: their scramblers, the count of the next frame, the groups, latest first. -/
structure RopeTx where
  scr : Tab Nat
  tx : Nat
  outs : List Out
deriving DecidableEq, Repr

/-- One frame on the lanes given, in stripe order (R396, R432). -/
def RopeTx.frame (lanes : List Nat) (x : RopeTx) (syms : List Nat) : RopeTx :=
  let y := lanes.zipIdx.foldl (fun (y : Tab Nat × List Out) e =>
    let r := sendWords (y.1.get 0 e.1) (ropeLaneWords e.2 x.tx (ropePayload ((syms.drop (506 * e.2)).take 506)))
    (y.1.set 0 e.1 r.1, .groups e.1 r.2 :: y.2)) (x.scr, x.outs)
  { scr := y.1, tx := (x.tx + 1) % 512, outs := y.2 }

/-! ### Patterns (R443) -/

/-- The taps of a pattern's generator: bit n is the sum of the bits that lie that far before it; none for the user's word. The polynomials
are those that the names have elsewhere. (PRESUMED, unsafe: log entry 128.) -/
def patTaps (pat : Nat) : List Nat :=
  match pat with
  | 0 => [7, 6] | 1 => [15, 14] | 2 => [23, 18] | 3 => [31, 28] | 4 => [13, 12, 2, 1] | 5 => [31, 28] | _ => []

/-- The next bit of a pattern from the bits before it, latest first; of the user's word, that which was sent 32 bits ago. -/
def patNext (taps : List Nat) (past : List Bool) : Bool :=
  if taps.isEmpty then past.getD 31 false else taps.foldl (fun b k => b != past.getD (k - 1) false) false

end Sys2Proof.Machine
end

