-- ==== Sys2Proof/Config.lean ====
section
/-! DEFINITION. What an implementation fixes and what the spec leaves open: constants with no body. Nothing can evaluate
them or prove a value of them, so a statement holds whatever they are. Each is applied to State.fresh, or to the operands
it depends on. -/

namespace Sys2Proof.Config

/-- A scratch word that a pitch reads before writing it (R157): by the pitch's number and the word. -/
opaque scratch : Nat → Nat → Nat

/-- A signature trailer verifies (R517): object, generation. ECDSA P-384 and SHA-384 are outside standards. -/
opaque signatureOk : Nat → List Nat → Bool

/-- The size in bytes of a cairn whose kind the spec gives no size for (R379, R383). -/
opaque cairnBytes : Nat → Nat

/-- The payload bytes of a rope message, whose layout the spec leaves open (R398): of one that carries numbers, by its type; of a cairn, with
its cn and EVSEQ; of a snapshot record. (DESIGN CHOICE, safe: log entry 125.) -/
opaque ropeBody : Nat → List Nat → List Nat
opaque cairnBody : Nat → Nat → Machine.Cairn → List Nat
opaque recordBody : Nat → Nat → SnapRec → List Nat

/-- The unit of a BWmap's positions in the standard of a mode, in bits; a quantum is a whole number of units (R161, R201); 0 acts as 1. -/
opaque mapUnit : Bool → Nat

/-- The unit, in 1/16 bit, to which the standard of a port's mode (true: XGS-PON) rounds the EqD of Ranging_Time (R142). -/
opaque rangingUnit : Bool → Nat

/-- The payload bytes of a mailbox reply: the command's code and the contents R414 gives it, whose layout the spec leaves open. -/
opaque mbxReply : Nat → List Nat → List Nat

/-- A field of a mailbox request whose layout the spec leaves open: the command's code, the field, the payload bytes. -/
opaque mbxArg : Nat → Nat → List Nat → Nat

/-- The bytes over which DIGEST takes its CRC (R414), from the contents of a store: 0 templates, 1 bindings. -/
opaque storeBytes : Nat → List Nat → List Nat

/-- What a template's bytes give a terminal, in a layout that the spec leaves open (R416, R420): the words of its allocation contexts,
its classification rows (true: exact), its XGEM port contexts and queues, number and row words. -/
opaque allocRows : List Nat → Nat → List (List Nat)
opaque classRows : List Nat → Nat → List (Bool × TernRow)
opaque xgemRows : List Nat → Nat → List (Nat × List Nat)
opaque queueRows : List Nat → Nat → List (Nat × List Nat)

/-- The OMCI requests that create a terminal's instances from its template's bytes, and those that download an image: what G.988 fixes
(R420, R421). -/
opaque omciInstances : List Nat → Nat → List Machine.OmciReq
opaque omciDownload : List Nat → List Machine.OmciReq

/-- The bytes of a record answer an OMCI request; the MIB data sync in them differs from that of a template's bytes (R420, R425). -/
opaque omciAnswers : Machine.OmciReq → List Byte → Bool
opaque mibDiffers : List Nat → List Byte → Bool

/-- A tree's binding policy disables unbound serial numbers (R419): no command sets it. -/
opaque disablesUnbound : Nat → Bool

/-- The uplink ports that PTP_CFG's payload names, and whether Imhus's clock is locked at a run count (R422, R426): no row brings it. -/
opaque ptpPorts : List Nat → List Nat
opaque ptpLock : List Nat → Nat → Bool

/-- The severity of a kind of alarm, which the spec does not give (R422). -/
opaque severity : Nat → Nat

/-- key_period of the keys record of a template's bytes, in seconds. -/
opaque keySeconds : List Nat → Nat

/-- The Flow records of a template's bytes, whose layout the spec leaves open (R416, R427). -/
opaque flows : List Nat → List Flow

/-- The ternary entry of a tenant that matches a destination address and a UDP port and maps them to a class (R427): where it stands and
how its key is laid out is the parse image's. -/
opaque flowEntry : Nat → Nat → Nat → Nat → TernRow

/-- The ternary entry that matches PTP event messages of a tenant and maps them to a class (R427). -/
opaque ptpEntry : Nat → Nat → TernRow

/-! What the standards of a port's mode fix and the spec leaves to them (R54, R60, R337 of the spec's scope): xgs tells G.9807.1 from
G.9804. -/

/-- The PSync of a mode. -/
opaque psync : Bool → Nat
/-- The HEC of the 51 bits of a PSBd structure. -/
opaque hec : Nat → Nat
/-- The HLend field, from the number of structures and of PLOAM messages. -/
opaque hlend : Bool → Nat → Nat → List Byte
/-- An allocation structure of the BWmap, 8 bytes: its Alloc-ID, start and length in units, DBRu, PLOAMu, the profile index. -/
opaque mapEntry : Bool → Nat → Nat → Nat → Bool → Bool → Nat → List Byte
/-- The allocation structure of a discovery or ranging window. -/
opaque mapWindow : Bool → MapWin → List Byte
/-- A downstream PLOAM message, 48 bytes. -/
opaque ploamBytes : Bool → Ploam → List Byte
/-- An XGEM header: Port-ID, key index, payload length, last fragment. -/
opaque xgemHeader : Bool → Nat → Nat → Nat → Bool → List Byte
/-- The bytes that pad a payload to a 4-byte multiple. -/
opaque padByte : Bool → Byte
/-- Idle XGEM frames that fill a number of bytes. -/
opaque xgemIdle : Bool → Nat → List Byte
/-- The FS trailer of the bytes before it. -/
opaque fsTrailer : Bool → List Byte → List Byte
/-- The check bytes of a codeword's data. -/
opaque fecCheck : Bool → List Byte → List Byte
/-- The frame-synchronous scrambler, from a frame's superframe count. -/
opaque scramble : Bool → Nat → List Byte → List Byte
/-- AES-128: the block that a key makes of a counter block (FIPS 197). -/
opaque aes : Nat → Nat → Nat
/-- Counter block i of an XGEM frame: mode, upstream, superframe count, position in the frame. -/
opaque counterBlock : Bool → Bool → Nat → Nat → Nat → Nat

/-- The on-chip rows that the scrubber reads in a sweep (R341): the spec does not number the rows of every block. (DEDUCED, safe: log
entry 68.) -/
opaque chipRows : Nat

/-- An entry of the physical function's MSI-X table as the host wrote it after a link-up: the link-up's free number, the entry; address,
data, mask. No row brings the writes. (PRESUMED, unsafe: log entry 25.) -/
opaque msixEntry : Nat → Nat → Nat × Nat × Bool

/-- What a line has counted since the count was last read: the counter (0 bit errors of a lane's checker, 1 and 2 codewords corrected and
uncorrectable of an uplink port), its lane or port, the run count, the free counter. No row brings them. (DESIGN CHOICE, safe: log
entry 43.) -/
opaque lineCount : Nat → Nat → Nat → Nat → Nat

/-- A value the spec leaves undefined, by the place that asks for it and the free counter. (DESIGN CHOICE, safe: log entry 2.) -/
opaque free : Nat → Nat → Nat

/-- The tag that Imhus writes beside line n of the firmware area (R338). (DESIGN CHOICE, safe: log entry 95.) -/
opaque firmwareTag : Nat → Nat

end Sys2Proof.Config
end

