-- ==== Sys2Proof/Machine/Line.lean ====
section
/-! DEFINITION. The downstream frame on the line (R54 to R56, R60): its layout in codewords, its bytes, AES in counter mode. What the
standards of the two modes fix is taken from Config. -/

namespace Sys2Proof.Machine

/-! ### The layout of the frame (R55) -/

/-- Codewords of one length: how many, their bits, their data bits. -/
structure CodeRun where
  count : Nat
  bits : Nat
  data : Nat
deriving DecidableEq, Repr

/-- The codewords that follow the PSBd of 192 bits: LDPC (17280, 14592) with a shortened last one, or RS(248, 216). -/
def codeRuns (xgs : Bool) : List CodeRun := if xgs then [⟨627, 1984, 1728⟩] else [⟨359, 17280, 14592⟩, ⟨1, 17088, 14400⟩]

/-- Bits of a frame. -/
def frameBits (xgs : Bool) : Nat := 192 + ((codeRuns xgs).map (fun c => c.count * c.bits)).sum

/-- Bytes of the FS frame that the codewords carry. -/
def fsBytes (xgs : Bool) : Nat := ((codeRuns xgs).map (fun c => c.count * c.data)).sum / 8

/-! ### AES in counter mode (R60, R63) -/

/-- A block's 16 bytes, most significant first. -/
def blockBytes (b : Nat) : List Byte := (List.range 16).map (fun i => BitVec.ofNat 8 (b / 2 ^ (8 * (15 - i))))

/-- Data under a key with the counter blocks given: the same operation encrypts and decrypts. -/
def aesCtr (key : Nat) (ctr : Nat → Nat) (data : List Byte) : List Byte :=
  let stream := (List.range ((data.length + 15) / 16)).flatMap (fun i => blockBytes (Config.aes key (ctr i)))
  List.zipWith (· ^^^ ·) data stream

/-! ### The bytes of the frame (R54 to R56) -/

/-- A 51-bit structure of the PSBd with its 13-bit HEC. -/
def withHec (v : Nat) : Nat := v % 2 ^ 51 * 2 ^ 13 + Config.hec (v % 2 ^ 51) % 2 ^ 13

/-- The PSBd of a frame. -/
def psbdOf (xgs : Bool) (sfc ponId : Nat) : Psbd := ⟨Config.psync xgs, withHec sfc, withHec ponId⟩

/-- The BWmap (R56): each structure in 8 bytes as it was sealed, the windows' after them. Where the windows stand the spec does not
say. (DESIGN CHOICE, unsafe: log entry 133.) -/
def mapBytes (xgs : Bool) (m : Option MapRec) : List Byte :=
  match m with
  | none => []
  | some m => m.structs.flatMap (fun c => Config.mapEntry xgs c.allocId c.unitStart c.unitLen c.dbru c.ploamu (b2n c.short))
    ++ m.wins.flatMap (Config.mapWindow xgs)

/-- An XGEM frame on the line (R54): header and payload, padded to a 4-byte multiple. What the pad bytes hold the spec does not say: they
follow the payload in clear. (DESIGN CHOICE, unsafe: log entry 133.) -/
def XFrame.bytes (xgs : Bool) (x : XFrame) : List Byte :=
  Config.xgemHeader xgs x.portId x.keyIndex x.data.length x.last ++ x.data
    ++ List.replicate ((4 - x.data.length % 4) % 4) (Config.padByte xgs)

/-- The XGEM frames from byte a of the FS frame to byte b, idle frames between them. -/
def xgemBytes (xgs : Bool) (b : Nat) : Nat → List XFrame → List Byte
  | a, [] => Config.xgemIdle xgs (b - a)
  | a, x :: t => Config.xgemIdle xgs (x.at_ - a) ++ x.bytes xgs ++ xgemBytes xgs b (x.at_ + 8 + (x.data.length + 3) / 4 * 4) t

/-- The FS frame: HLend, BWmap, PLOAM partition, XGEM frames, FS trailer (R56). -/
def DsFrame.fs (f : DsFrame) : List Byte :=
  let n := match f.map with
    | some m => m.structs.length + m.wins.length
    | none => 0
  let head := Config.hlend f.xgs n f.ploam.length ++ mapBytes f.xgs f.map
    ++ f.ploam.flatMap (Config.ploamBytes f.xgs)
  let body := head ++ xgemBytes f.xgs (fsBytes f.xgs - 4) (4 + 8 * n + 48 * f.ploam.length) f.body
  body ++ Config.fsTrailer f.xgs body

/-- n codewords of d data bytes each cut from the front of the data. -/
def codewords (xgs : Bool) (d : Nat) : Nat → List Byte → List Byte
  | 0, _ => []
  | n + 1, bs => bs.take d ++ Config.fecCheck xgs (bs.take d) ++ codewords xgs d n (bs.drop d)

/-- The codewords of the FS frame in their order. -/
def codeAll (xgs : Bool) : List CodeRun → List Byte → List Byte
  | [], _ => []
  | c :: t, bs => codewords xgs (c.data / 8) c.count bs ++ codeAll xgs t (bs.drop (c.count * (c.data / 8)))

/-- A 64-bit number's bytes, most significant first. -/
def bytes64 (v : Nat) : List Byte := (List.range 8).map (fun i => BitVec.ofNat 8 (v / 2 ^ (8 * (7 - i))))

/-- The frame as it goes on the line: the PSBd, then the scrambled codewords. -/
def DsFrame.line (f : DsFrame) : List Byte :=
  bytes64 f.psbd.psync ++ bytes64 f.psbd.sfc ++ bytes64 f.psbd.ponId
    ++ Config.scramble f.xgs f.sfc (codeAll f.xgs (codeRuns f.xgs) f.fs)

end Sys2Proof.Machine
end

