-- ==== Sys2Proof/Machine/Ops.lean ====
section
/-! DEFINITION. The operations every block shares: register fields, events, doorbell-free bookkeeping of fault tallies,
performance beads, ownership and feature checks, and the wrapper under which every command acts. -/

namespace Sys2Proof.Machine

/-- The outcome of a command. -/
abbrev Res := Host.Outcome State Fault Refusal

/-! ### Register fields -/

/-- Where the field store keeps element i of a field: its byte offset × 64 + its low bit. -/
def Fld.key (f : Fld) (i : Nat) : Nat := (f.off + i * f.stride) * 64 + f.lo

/-- The value of element i of a register field. -/
def State.rd (s : State) (f : Fld) (i : Nat := 0) : Nat := s.rf.get f.rst (f.key i)

/-- Whether element i of a register field is not 0. -/
def State.on (s : State) (f : Fld) (i : Nat := 0) : Bool := s.rd f i != 0

/-- Element i of a register field set to v (its low w bits). -/
def State.wr (s : State) (f : Fld) (v : Nat) (i : Nat := 0) : State :=
  { s with rf := s.rf.set f.rst (f.key i) (v % 2 ^ f.w) }

/-- Element i of a register field plus n, saturating at its width (the saturating error counters). -/
def State.bump (s : State) (f : Fld) (n : Nat := 1) (i : Nat := 0) : State :=
  s.wr f (sat (2 ^ f.w - 1) (s.rd f i + n)) i

/-- The state with one more thing sent out. -/
def State.emit (s : State) (o : Out) : State := { s with out := o :: s.out }

/-- Times in the unit of the run count, 2^-40 ns. -/
def microsecond : Nat := 1000 * 2 ^ 40
def millisecond : Nat := 10 ^ 6 * 2 ^ 40
def second : Nat := 10 ^ 9 * 2 ^ 40

/-- LASER_EN falls with the claim and with BELAY_SEEN reading claimed (R373); was tells how it stood, run the run count now. -/
def Belay.gate (b : Belay) (was : Bool) (run : Nat) : Belay :=
  let on := b.laser && b.claim && !b.seen
  { b with laser := on, laserAt := if on == was then b.laserAt else run }

/-- The claim set to c at run count run, which is its start where it was released (R373). -/
def Belay.claims (b : Belay) (c : Bool) (run : Nat) : Belay :=
  { b with claim := c, claimAt := if c && !b.claim then run else b.claimAt }

/-- What follows every change of s into t: the waiting commands are not a command's to touch, and the gate of LASER_EN is
hardware that no command gets past (R373). (DEDUCED, safe: log entry 8.) -/
def State.afterCmd (s t : State) : State := { t with pending := s.pending, belay := t.belay.gate s.belay.laser t.ts.run }

/-- Every command acts through this: a device held in reset by its supply monitors does nothing (R526).
(DEDUCED, safe: log entry 6.) -/
def act (s : State) (f : State → State) : Res := .next (if s.pw.held then s else s.afterCmd (f s))

/-- f folded over the numbers below n. -/
def State.each (n : Nat) (f : State → Nat → State) (s : State) : State := (List.range n).foldl f s

/-- f when b holds. -/
def State.when (s : State) (b : Bool) (f : State → State) : State := if b then f s else s

/-! ### States, modes, features, ownership -/

/-- The device carries a mode in force (R9). -/
def State.live (s : State) : Bool := s.glb.dev == .run || s.glb.dev == .bivouac

/-- The device is in role standby. -/
def State.isStandby (s : State) : Bool := s.glb.modeIn && s.glb.role == .standby

/-- The device stands as active in a mode in force. -/
def State.isActive (s : State) : Bool := s.glb.modeIn && s.glb.role == .active

/-- A feature is accepted: lock is 1 and its accept bit is 1 (R20). -/
def State.feat (s : State) (n : Nat) : Bool := s.on F.GLB_FEAT_LOCK_lock && bit (s.rd F.GLB_FEAT_ACCEPT_accept) n

/-- The owner of key management (R69), which owns most blocks' registers. Cairns pass every ownership check. -/
def State.owns (s : State) (r : Requester) : Bool :=
  match r with
  | .cairn => true
  | .pf => !s.live || s.glb.level == 0
  | .guide => !s.live || s.glb.level != 0
  | _ => false

/-- The block rows whose owner commands and writes a standby refuses (R377): TP, UB, GE, PC, CL, QS. -/
def standbyRows : List Nat := [1, 2, 3, 4, 5, 6]

/-- Requester r may command the registers of block row b. -/
def State.may (s : State) (r : Requester) (b : Nat) : Bool :=
  s.owns r && (r == .cairn || !(s.isStandby && standbyRows.contains b))

/-- BOOT waits for the image from the host, and BAR0 decodes little more than the PW block (R512). -/
def State.pcieBoot (s : State) : Bool := s.glb.dev == .boot && s.pw.straps.bootSrc

/-- The block rows without owner rules for each register that Imhus owns at levels 1 and 2 (R410, R411): UB, GE, CL, QS. -/
def imhusRows : List Nat := [2, 3, 5, 6]

/-- The requesters that reach BAR0 registers without an owner rule: all but the virtual functions, which do not reach
BAR0 (R50). A standby's mirrored blocks take only cairns (R377), a block that Imhus owns none of the host's writes (R411).
(DEDUCED, unsafe: log entry 10.) -/
def State.reach (s : State) (r : Requester) (b : Nat) : Bool :=
  match r with
  | .cairn => true
  | .vf _ => false
  | _ => !s.pcieBoot && !(s.isStandby && standbyRows.contains b) && (r != .pf || !imhusRows.contains b || s.owns .pf)

/-- Domain d of R500 is down. -/
def State.domDown (s : State) (d : Nat) : Bool := bit (s.rd F.PW_DOM_STATUS_down) d

/-- Block row b is down as a whole: by block reset, or with the domain that holds all of it (R52, R500). -/
def State.blkDown (s : State) (b : Nat) : Bool :=
  s.pw.blk.contains b || (b == 11 && s.domDown 12) || (b == 4 && s.domDown 8 && s.domDown 9)

/-- A register command of block row b finds no register: the block is down, or BAR0 does not decode it (R52, R512). -/
def State.regsOff (s : State) (b : Nat) : Bool := s.blkDown b || s.pcieBoot

/-- The tree port's logic is down: its block, or its tree group (R500). -/
def State.portDown (s : State) (b p : Nat) : Bool := s.pw.blk.contains b || s.domDown (p / 8)

/-! ### Registers that take no access (R21, R52, R512) -/

/-- A register of a feature that is not accepted (R21, R320, R371). (DEDUCED, unsafe: log entry 73.) -/
def State.regAbsent (s : State) (off : Nat) : Bool :=
  (decide (0x700100 ≤ off) && decide (off < 0x780000) && !s.feat 11)
  || ((decide (0x7C0000 ≤ off) && decide (off < 0x7C0040) || decide (0x7C1000 ≤ off) && decide (off < 0x7C1100)) && !s.feat 7)
  || (decide (0x7C0100 ≤ off) && decide (off < 0x7C0120) && !s.feat 6)
  || (decide (0x900100 ≤ off) && decide (off < 0x900200) && !s.feat 10)

/-- In BOOT from the host, BAR0 decodes GLB_ID, GLB_STATE and the PW block alone (R512). -/
def State.notDecoded (s : State) (off : Nat) : Bool :=
  s.pcieBoot && !(off == 0 || off == 0x30 || decide (0xB00000 ≤ off))

/-- The logic behind element i of a register of block b at byte offset off is down. -/
def State.regDown (s : State) (b off i : Nat) : Bool :=
  if b = 1 then s.portDown 1 i
  else if b = 2 && 0x210000 ≤ off then s.portDown 2 i
  else s.blkDown b

/-- Element i of the register of field f, of block row b, takes no write: absent, not decoded, or down (R21, R52, R512). -/
def State.shut (s : State) (b : Nat) (f : Fld) (i : Nat := 0) : Bool :=
  s.notDecoded f.off || s.regAbsent (f.off + i * f.stride) || s.regDown b f.off i

/-- What a register command does where its register takes it (R52): nothing where it is shut. -/
def State.ifOpen (s : State) (b : Nat) (f : Fld) (i : Nat) (g : State → State) : State := if s.shut b f i then s else g s

/-! ### Events (R38 to R42) -/

/-- The nanosecond field of the time base. -/
def State.ns (s : State) : Nat := s.ts.tb / 2 ^ 40

/-- The time base in the stamp format (R350): ns, the upper 24 bits of the fraction, the wrap count. -/
def State.stamp (s : State) : Nat := s.ts.tb / 2 ^ 16 * 2 ^ 8 + s.ts.wrap % 256

/-- How many events of a source wait, the wrap events apart (R42, R357). -/
def State.waiting (s : State) (b i : Nat) : Nat :=
  (s.evu.wait.filter (fun e => e.block == b && e.inst == i && !e.wrap)).length

/-! ### Performance beads and meters (R488 to R496) -/

/-- A bead with n more (R488). -/
def Bead.add (b : Bead) (n : Nat) : Bead :=
  if b.cnt + n ≥ 2 ^ 48 - 1 then { b with cnt := 2 ^ 48 - 1, sat := true } else { b with cnt := b.cnt + n }

/-- The classes of the catalogue with no instance: their beads count whatever their instance field holds (R494). -/
def noInstance (b cls : Nat) : Bool := [(0, 1), (7, 1), (7, 2), (7, 5), (7, 16), (8, 1), (13, 1)].contains (b, cls)

/-- Bead k of block row b counts an occurrence of class cls at instance inst, of the tenant given (R489, R492). -/
def State.beadTakes (s : State) (b k cls inst : Nat) (ten : Option Nat) : Bool :=
  let i := b * 16 + k
  let ev := s.rd F.PM_BEAD_CFG_event i
  ev / 1024 == cls && (noInstance b cls || ev % 1024 == 0x3FF || ev % 1024 == inst) && s.rd F.PM_BEAD_CFG_mode i == 0
    && (!s.on F.PM_BEAD_CFG_tenant_en i || ten == some (s.rd F.PM_BEAD_CFG_tenant i))

/-- An occurrence of class cls adds its amount to every bead of the block that counts it. A block that is down does
not count (R493). -/
def State.count (s : State) (b cls inst : Nat) (n : Nat := 1) (ten : Option Nat := none) : State :=
  if s.blkDown b || n == 0 then s
  else
    let step := fun (t : Tab Bead) k => if s.beadTakes b k cls inst ten
      then t.modify {} (b * 16 + k) (Bead.add · n) else t
    { s with pm := { s.pm with beads := (List.range 16).foldl step s.pm.beads } }

/-- A meter with n more bytes (R496). -/
def State.meter (s : State) (m n : Nat) : State :=
  { s with pm := { s.pm with meters := s.pm.meters.modify {} m (fun x => { x with cur := x.cur + n }) } }

/-- An event occurs at a source (R38, R42): it waits for the merge unit, or is counted as lost when 16 wait. -/
def State.raiseAfter (s : State) (cause : Option Nat) (b i code arg : Nat) (wrap : Bool := false) : State :=
  if !wrap && s.waiting b i ≥ 16 then
    { s with evu := { s.evu with lost := s.evu.lost.modify 0 (b * 2048 + i) (· + 1), last := none } }.count 0 2 b
  else
    { s with evu := { s.evu with
      wait := s.evu.wait ++ [⟨s.evu.ord, cause, b, i, code, arg % 2 ^ 32, s.ns, wrap⟩], ord := s.evu.ord + 1
      last := some s.evu.ord } }

/-- A clear of a defect of tree port p that the frame in progress also sets another of: it goes before the sets of the frame that
still wait (R80), but never before a wrap event (R356). (DEDUCED, safe: log entry 101.) -/
def State.clearFirst (s : State) (p : Nat) : State :=
  let late := fun (e : EvRec) => e.block == 1 && e.inst == p && e.code / 256 == 1 && decide (s.evu.frameOrd ≤ e.ord)
    && s.evu.wait.all (fun w => !w.wrap || decide (w.ord < e.ord))
  match s.evu.wait.getLast? with
  | none => s
  | some c =>
    let w := s.evu.wait.dropLast
    { s with evu := { s.evu with wait := w.takeWhile (fun e => !late e) ++ [c] ++ w.dropWhile (fun e => !late e) } }

/-- The number of the last event that still waits of those p picks: the cause of what it has led to (R39). -/
def State.lastEvent (s : State) (p : EvRec → Bool) : Option Nat := (s.evu.wait.reverse.find? p).map (·.ord)

/-- An event with no recorded cause. -/
def State.raise (s : State) (b i code arg : Nat) : State := s.raiseAfter none b i code arg

/-- An event that the last event raised has caused: it commits after it (R39). -/
def State.raiseNext (s : State) (b i code arg : Nat) : State := s.raiseAfter s.evu.last b i code arg

/-! ### Fault tallies (R44 to R49) -/

/-- The element kinds of R49. -/
def Elem.kind : Elem → Nat
  | .engine _ => 0 | .core _ => 1 | .row .. => 2 | .sub _ => 3 | .lane _ => 4 | .chan _ => 5

/-- The block row whose events carry the element's faults (R49, R50). (DEDUCED, safe: log entry 20.) -/
def Elem.block : Elem → Nat
  | .engine _ => 3 | .core _ => 4 | .row b _ _ => b | .sub _ => 7 | .lane _ => 10 | .chan _ => 11

/-- The element number that its events carry as instance. -/
def Elem.inst : Elem → Nat
  | .engine e => e | .core c => c | .row _ m _ => m | .sub n => n | .lane l => l | .chan c => c

/-- The detail its events carry: a memory row's row, else 0. -/
def Elem.detail : Elem → Nat
  | .row _ _ r => r
  | _ => 0

/-- Where the tallies of the element stand. -/
def Elem.key (e : Elem) : Nat := ((e.kind * 16 + e.block) * 2048 + e.inst) * 1024 + e.detail

def State.tally (s : State) (e : Elem) : Tally := s.tal.get {} e.key

/-- The element is out of service (R46). -/
def State.fenced (s : State) (e : Elem) : Bool := (s.tally e).fenced

/-- The tally: soft faults in the current slot and the 7 before it (R44). -/
def Tally.total (t : Tally) : Nat := t.slots.sum

/-- The slots with one more fault in the current one. -/
def Tally.hit (t : Tally) : Tally :=
  { t with slots := match t.slots with
    | [] => [1]
    | x :: r => (x + 1) :: r }

/-- The slots at the end of the current one (R44). -/
def Tally.slotEnd (t : Tally) : Tally := { t with slots := 0 :: t.slots.take 7 }

/-- The length of a slot under window_ms, 0 acting as 1, in 2^-40 ns (R44). -/
def slotLength (windowMs : Nat) : Nat := max 1 windowMs * 125000 * 2 ^ 40

/-- A new slot begins at the run count given, of the length that GLB_TALLY_CFG gives now (R44, R48). -/
def State.tallySlotEnd (s : State) (start : Nat) : State :=
  { s with tal := s.tal.mapAll {} (fun _ t => t.slotEnd), slots := ⟨start, slotLength (s.rd F.GLB_TALLY_CFG_window_ms)⟩ }

/-- GLB_TALLY_CFG.threshold, 0 acting as 1. -/
def State.threshold (s : State) : Nat := max 1 (s.rd F.GLB_TALLY_CFG_threshold)

/-- A fault of an element (R45, R46, R49): counted, judged, reported; a lasting one fences the element. The answer's
second part says that this fault fenced it, so that its block takes the consequent action of R46. -/
def State.faultAt (s : State) (e : Elem) (hard : Bool) (cause : Nat) : State × Bool :=
  let t := s.tally e
  if t.fenced then (s, false)
  else
    let t := if hard then t else t.hit
    let lasting := hard || t.total ≥ s.threshold
    let arg := e.kind * 2 ^ 28 + (if hard then 15 else cause) * 2 ^ 24 + sat 0xFF t.total * 2 ^ 16 + e.detail
    let s := { s with tal := s.tal.set {} e.key { t with fenced := lasting } }
    if lasting then
      ((s.raise e.block e.inst 0xFF02 arg).raiseNext e.block e.inst 0xFF03 (e.kind * 2 ^ 28 + e.detail), true)
    else (s.raise e.block e.inst 0xFF01 arg, false)

/-- A fence cleared by its repair: the tally starts again from 0 (R46, R49). -/
def State.fenceClear (s : State) (e : Elem) : State :=
  if s.fenced e then
    { s with tal := s.tal.set {} e.key {} }.raise e.block e.inst 0xFF04 (e.kind * 2 ^ 28 + e.detail)
  else { s with tal := s.tal.set {} e.key {} }

/-! ### Generations (R27 to R34) -/

/-- The number of a staged object in the table of generations. -/
def objNo : GenObj → Nat
  | .parse => 0 | .rules => 1 | .grant => 2 | .gates => 3 | .shapers => 4

def State.gen (s : State) (o : GenObj) : Gen := s.gens.get {} (objNo o)

def State.setGen (s : State) (o : GenObj) (g : Gen) : State := { s with gens := s.gens.set {} (objNo o) g }

/-- Something has been staged for the object since its last commit (R34). -/
def State.stage (s : State) (o : GenObj) : State := s.setGen o { s.gen o with staged := true }

/-- A commit: refused with 1, 2 or 3 in that order, else the next generation stands and the old one retires
(R30, R34). authOk is asked only of a commit with no other cause for refusal; the second part says it was accepted. -/
def State.commit (s : State) (o : GenObj) (authOk : Bool) : State × Bool :=
  let g := s.gen o
  if g.ret.isSome then (s.setGen o { g with status := 1 }, false)
  else if !g.staged then (s.setGen o { g with status := 2 }, false)
  else if !authOk then (s.setGen o { g with status := 3 }, false)
  else (s.setGen o { cur := (g.cur + 1) % 16, ret := some g.cur, status := 0, staged := false, at_ := s.ts.run, slow := false }, true)

/-! ### Trees (R71 to R74) -/

/-- The even port of a port's companion pair. -/
def evenOf (p : Nat) : Nat := p / 2 * 2

/-- The port belongs to a companion pair: pair_en of the even port, while feature 1 is accepted (R71). -/
def State.paired (s : State) (p : Nat) : Bool := s.feat 1 && s.on F.TP_CTRL_pair_en (evenOf p)

/-- The pair shares one upstream time line (R74, R161). -/
def State.sharedUs (s : State) (p : Nat) : Bool := s.paired p && s.on F.TP_CTRL_pair_us_shared (evenOf p)

/-- The tree whose pitch builds the map of port p (R161). -/
def State.pitchTree (s : State) (p : Nat) : Nat := if s.sharedUs p then evenOf p else p

/-- The ports of a port's tree (R73). -/
def State.treePorts (s : State) (p : Nat) : List Nat := if s.paired p then [evenOf p, evenOf p + 1] else [p]

/-- The number of a port's tree: the even port of a pair, else the port. -/
def State.treeNo (s : State) (p : Nat) : Nat := if s.paired p then evenOf p else p

def State.port (s : State) (p : Nat) : TpPort := s.tp.get {} p
def State.setPort (s : State) (p : Nat) (x : TpPort) : State := { s with tp := s.tp.set {} p x }
def State.rx (s : State) (p : Nat) : UbPort := s.ub.get {} p
def State.setRx (s : State) (p : Nat) (x : UbPort) : State := { s with ub := s.ub.set {} p x }
def State.ctx (s : State) (t : Nat) : Ctx := s.ctxs.get {} t
def State.setCtx (s : State) (t : Nat) (x : Ctx) : State := { s with ctxs := s.ctxs.set {} t x }
def State.alloc (s : State) (a : Nat) : Alloc := s.allocs.get {} a
def State.setAlloc (s : State) (a : Nat) (x : Alloc) : State := { s with allocs := s.allocs.set {} a x }
def State.tree (s : State) (p : Nat) : GeTree := s.trees.get {} p
def State.setTree (s : State) (p : Nat) (x : GeTree) : State := { s with trees := s.trees.set {} p x }
def State.actTree (s : State) (p : Nat) : ActTree := s.act.get {} p
def State.setActTree (s : State) (p : Nat) (x : ActTree) : State := { s with act := s.act.set {} p x }
def State.preset (s : State) (t : Nat) : Preset := s.presets.get {} t
def State.setPreset (s : State) (t : Nat) (x : Preset) : State := { s with presets := s.presets.set {} t x }
def State.trx (s : State) (t : Nat) : TermRx := s.termRx.get {} t
def State.setTrx (s : State) (t : Nat) (x : TermRx) : State := { s with termRx := s.termRx.set {} t x }
def State.keyCtx (s : State) (t : Nat) : KeyCtx := s.keys.get {} t
def State.setKeyCtx (s : State) (t : Nat) (x : KeyCtx) : State := { s with keys := s.keys.set {} t x }
def State.lane (s : State) (l : Nat) : Lane := s.lanes.get {} l
/-- A lane that comes up or ceases to be up notes when (R79, R112). -/
def Lane.edge (x was : Lane) (run : Nat) : Lane :=
  { x with edgeAt := if (x.st == .up) == (was.st == .up) then was.edgeAt else run }

def State.setLane (s : State) (l : Nat) (x : Lane) : State := { s with lanes := s.lanes.set {} l (x.edge (s.lane l) s.ts.run) }

/-- Bits that lane l, an uplink or a rope lane, sends in a time. -/
def laneBits (l time : Nat) : Nat := time * (if l < 160 then 10625 else 11200) / (100 * 2 ^ 40)

/-- The bits that lane l's generator has flipped by inj_rate since flipAt (R444). -/
def State.flips (s : State) (l : Nat) : Nat :=
  let r := s.rd F.SL_LANE_CTRL_inj_rate l
  if r = 0 then 0 else laneBits l s.ts.run / 2 ^ (9 + r) - laneBits l (s.lane l).flipAt / 2 ^ (9 + r)

/-- The bit errors that lane l's checker has counted: it counts only while locked (R443); in a near-end serial loop what comes are the
errors that its own generator injects, once each (R442, R444), else what comes is free. (DESIGN CHOICE, safe: log entry 43.) -/
def State.laneErrs (s : State) (l : Nat) : Nat :=
  let n := s.rd F.SL_LANE_ERRS_errors l
  if !(s.lane l).chk then n
  else if s.rd F.SL_LANE_CTRL_loop l = 1 && s.on F.SL_LANE_CTRL_gen_en l then sat 0xFFFFFFFF (n + s.flips l)
  else sat 0xFFFFFFFF (n + Config.lineCount 0 l s.ts.run s.fresh)

/-- What lane l's checker has counted so far stands in its register (R443). -/
def State.keepErrs (s : State) (l : Nat) : State :=
  if (s.lane l).chk then (s.wr F.SL_LANE_ERRS_errors (s.laneErrs l) l).setLane l { s.lane l with flipAt := s.ts.run } else s

/-- Lane l's checker is locked no more; it keeps what it has counted (R443). -/
def State.checkerOff (s : State) (l : Nat) : State :=
  if (s.lane l).chk then (s.wr F.SL_LANE_ERRS_errors (s.laneErrs l) l).setLane l { s.lane l with chk := false } else s

/-! ### What a lane's transmitter sends (R432, R433, R439, R442 to R444) -/

def isPtx (l : Nat) : Bool := decide (l < 64)
def isPrx (l : Nat) : Bool := decide (64 ≤ l) && decide (l < 128)
def isUl (l : Nat) : Bool := decide (128 ≤ l) && decide (l < 160)
def isRope (l : Nat) : Bool := decide (160 ≤ l)
def isPon (l : Nat) : Bool := decide (l < 128)

/-- The output of lane l. -/
def State.laneTx (s : State) (l : Nat) : LaneTx :=
  let x := s.lane l
  let r := s.rd F.SL_LANE_CTRL_inj_rate l
  if isPrx l || x.st == .off || x.st == .fenced then .off
  else if s.rd F.SL_LANE_CTRL_loop l = 1 then .squelched
  else if s.on F.SL_LANE_CTRL_gen_en l then
    .pattern (patTaps (s.rd F.SL_LANE_CTRL_pat l)) (s.rd F.SL_LANE_USER_word l) (if r = 0 then 0 else 2 ^ (9 + r))
  else if s.rd F.SL_LANE_CTRL_loop l = 3 then .recovered
  else if isPtx l then (if x.st == .up && (s.port l).framing then .downstream else .idle)
  else if isUl l then .pcs
  else match x.st, x.send with
    | .idle, _ => .idle
    | _, .training => .train
    | _, .frames => .frames
    | _, .none => .idle

/-- A change of what lane l sends from what it sent in was. -/
def State.lineFrom (s was : State) (l : Nat) : State := if s.laneTx l = was.laneTx l then s else s.emit (.line l (s.laneTx l))

/-- f, with the change of what lane l sends. -/
def State.lined (s : State) (l : Nat) (f : State → State) : State := (f s).lineFrom s l

/-- The frame in build on port p, its rest idle (R54 to R62). (DESIGN CHOICE, safe: log entry 41.) -/
def State.dsFrame (s : State) (p : Nat) : DsFrame :=
  let x := s.port p
  { xgs := x.xgs, sfc := x.sfc, psbd := psbdOf x.xgs x.sfc x.ponId, map := x.map, ploam := x.sent, body := x.body, idle := x.idle + x.left }

/-- Port p begins to frame or stops (R75); when is noted for dDARK (R79). -/
def State.setFraming (s : State) (p : Nat) (b : Bool) : State :=
  let x := s.port p
  if x.framing == b then s else s.lined p (·.setPort p { x with framing := b, framingAt := s.ts.run })

/-- The frame in build on port p leaves, its rest filled with idle XGEM frames (R56, R58); unsent under dTXL (R79). -/
def State.endFrame (s : State) (p : Nat) : State :=
  let x := s.port p
  if !x.framing then s
  else
    let s := if bit (s.rd F.TP_STATUS_defects p) 0 then s.count 1 2 p else s.emit (.frame p (s.dsFrame p))
    let s := (s.count 1 4 p (x.idle + x.left)).when x.heldMap (·.count 1 3 p)
    s.setPort p { x with body := [], left := 0, idle := 0, sent := [], under := false
                         underAt := if x.under then (s.ts.run :: x.underAt).take 8 else x.underAt }

/-- The context is allocated on the tree of port p (R64, R196). -/
def State.onTree (s : State) (t p : Nat) : Bool := (s.ctx t).st != .free && (s.treePorts p).contains (s.ctx t).port

/-- Quanta per frame by us_rate (R81). -/
def qpfOf (rate : Nat) : Nat :=
  match rate with
  | 0 => 97200 | 1 => 48600 | 2 => 24300 | _ => 19440

/-- The odd port of a pair that shares its upstream. -/
def State.sharedOdd (s : State) (p : Nat) : Bool := s.sharedUs p && p % 2 == 1

/-- The port whose receiver takes port p's bursts (R111). -/
def State.rxPort (s : State) (p : Nat) : Nat := if s.sharedOdd p then p - 1 else p

/-- The upstream rate code of a port: the odd port of a shared pair receives XGS bursts, its us_rate ignored (R81, R111). -/
def State.usRate (s : State) (p : Nat) : Nat := if s.sharedOdd p then 3 else s.rd F.UB_TREE_CFG_us_rate p

/-- Quanta per frame of a port. -/
def State.qpf (s : State) (p : Nat) : Nat := qpfOf (s.usRate p)

/-- Quanta of 0.1 µs units at a port's rate, rounded up. -/
def State.tenthsToQ (s : State) (p n : Nat) : Nat := ceilDiv (n * s.qpf p) 1250

/-! ### The tables of classification, kinds 2 to 7 (R318): raw words by kind, row and word -/

def rowKey (kind row word : Nat) : Nat := (kind * 131072 + row) * 8 + word

def State.row (s : State) (kind row word : Nat) : Nat := s.rows.get 0 (rowKey kind row word)

/-- An XGEM port context is valid (R308). -/
def State.xgValid (s : State) (x : Nat) : Bool := bit (s.row 3 x 0) 17
def State.xgTerm (s : State) (x : Nat) : Nat := bits (s.row 3 x 0) 13 0
def State.xgEnc (s : State) (x : Nat) : Nat := bits (s.row 3 x 0) 15 14
def State.xgCirc (s : State) (x : Nat) : Bool := bit (s.row 3 x 0) 16
def State.xgGsel (s : State) (x : Nat) : Bool := bit (s.row 3 x 1) 17
def State.xgCircBytes (s : State) (x : Nat) : Nat := bits (s.row 3 x 1) 13 0
def State.xgPortId (s : State) (x : Nat) : Nat := bits (s.row 3 x 2) 15 0
def State.xgCalloc (s : State) (x : Nat) : Nat := bits (s.row 3 x 3) 15 0

/-- The rows of a kind that have been written. -/
def State.rowsOf (s : State) (kind : Nat) : List Nat :=
  ((s.rows.filter (fun e => e.1 / 8 / 131072 == kind)).map (fun e => e.1 / 8 % 131072)).dedup

/-! ### Presets as the map builder and the programs see them (R84, R95, R178, R378) -/

/-- The age of a preset in ms, from the run count (R352). -/
def State.presetAge (s : State) (t : Nat) : Nat :=
  match (s.preset t).last with
  | none => 0
  | some r => (s.ts.run - r) / 2 ^ 40 / 1000000

/-- UB_CTRL.age_limit, 0 acting as 1. -/
def State.ageLimit (s : State) : Nat := max 1 (s.rd F.UB_CTRL_age_limit)

/-- The preset's state with R95 applied, and R378 on an active whose standby is synchronised. -/
def State.pstate (s : State) (t : Nat) : PState :=
  let p := s.preset t
  if !s.feat 2 then .empty
  else if p.st == .trained && (s.presetAge t > s.ageLimit
      || (s.glb.modeIn && s.glb.role == .active && s.pr.sync == 3 && p.peer != .trained)) then .training
  else p.st

def PState.code : PState → Nat
  | .empty => 0 | .training => 1 | .trained => 2

/-! ### Cairns (R378, R379) -/

/-- The message code of a cairn's kind (R378), which is also the instance of its bead class (R494). -/
def Cairn.code : Cairn → Nat
  | .map .. => 0x10 | .ploam .. => 0x11 | .change _ => 0x12 | .command _ => 0x13 | .keep .. => 0x14

/-- The object an absolute cairn or snapshot record names, as a number; 0 for none. -/
def changeObj : StateChange → Nat
  | .context t .. => 1 + t.val * 16
  | .onuHold p o _ => 2 + (p.val * 1024 + o.toNat) * 16
  | .allocHold a .. => 3 + a.toNat * 16
  | .allocContext a _ => 4 + a.toNat * 16
  | .keySwitched t _ => 5 + t.val * 16
  | .preset t _ => 6 + t.val * 16

def cairnObj : Cairn → Nat
  | .map p f _ => 7 + (p.val * 2 ^ 32 + f) * 16
  | .ploam p f _ _ => 8 + (p.val * 2 ^ 32 + f) * 16
  | .keep p _ => 9 + p.val * 16
  | .change c => changeObj c
  | .command _ => 0

/-- The device sends its partner this cairn: an active every one but its preset states, a standby those alone (R378). -/
def State.sends (s : State) (c : Cairn) : Bool :=
  let preset := match c with
    | .change (.preset ..) => true
    | _ => false
  s.glb.modeIn && s.pr.pairLink.isSome && (if preset then s.glb.role == .standby else s.glb.role == .active)

def State.rope (s : State) (p : Nat) : Rope := s.pr.ropes.get {} p
def State.setRope (s : State) (p : Nat) (x : Rope) : State := { s with pr := { s.pr with ropes := s.pr.ropes.set {} p x } }

/-- The lanes of rope port p's stripe whose transmitters carry its frames: no generator or loop has taken them (R442, R443). -/
def State.sendLanes (s : State) (p : Nat) : List Nat := ((s.rope p).lanes.map (fun i => 160 + p * 8 + i))

/-- Symbols leave on rope port p in frames of their own, filled with idles; the idle frames between them are not shown (R396, R398, R432).
(DESIGN CHOICE, safe: log entry 125.) -/
def State.ropeFrames (s : State) (p : Nat) (syms : List Nat) : State :=
  let x := s.rope p
  if x.lanes.isEmpty then s
  else
    let r := (pieces (506 * x.lanes.length) syms.length syms).foldl (RopeTx.frame (s.sendLanes p)) ⟨s.pr.scr, x.tx, []⟩
    { s with
      pr := { s.pr with scr := r.scr, ropes := s.pr.ropes.set {} p { x with tx := r.tx } }
      out := r.outs.filter (fun o => match o with
        | .groups l _ => s.laneTx l == .frames
        | _ => true) ++ s.out }

/-- A cairn as it goes over the pair link. -/
def State.cairnOut (s : State) (cn evseq : Nat) (c : Cairn) : State :=
  let s := s.emit (.cairn cn evseq c)
  match s.pr.pairLink with
  | none => s
  | some p => s.ropeFrames p (messageSymbols c.code (Config.cairnBody cn evseq c))

/-- A cairn sent over the pair link: the next cairn number, which its object holds from now on, and the EVSEQ last committed (R379,
R384). -/
def State.sendCairn (s : State) (c : Cairn) : State :=
  if s.sends c then
    let cn := s.pr.cnSent
    let s := { s with pr := { s.pr with
      cnSent := (cn + 1) % 2 ^ 32, stream := (cn, s.evu.seq, c) :: s.pr.stream, stamps := s.pr.stamps.set 0 (cairnObj c) (cn + 1) } }
    (s.cairnOut cn s.evu.seq c).count 9 1 c.code
  else s

/-- A preset's state has changed: the standby tells its partner (R378). -/
def State.setPState (s : State) (t : Nat) (x : Preset) : State :=
  let was := (s.preset t).st
  let s := s.setPreset t x
  s.when (was != x.st) (·.sendCairn (.change (.preset (Fin.ofNat 16384 t) (BitVec.ofNat 2 x.st.code))))

/-- An owner command accepted by a mirrored block goes to the standby as a command cairn, with the register writes that
gave it and the value the active resolved (R378, R379). A command that itself came in a cairn is not sent on. -/
def State.mirror (s : State) (r : Requester) (ws : List (Nat × Nat)) (resolved : Option Nat) (result : Nat) : State :=
  if r = .cairn then s
  else s.sendCairn (.command ⟨ws.map (fun w => (BitVec.ofNat 22 (w.1 / 4), BitVec.ofNat 32 w.2)), resolved,
    BitVec.ofNat 4 result⟩)

/-! ### Skews of a pair (R385) -/

/-- The partner's port latencies: in, egress. -/
def State.peerLat (s : State) (p : Nat) : Nat × Nat := s.pr.peerLat.get (0, 0) p

/-- skew_in of a tree's port, in 0.1 ns; 0 until the partner has sent its latencies. -/
def State.skewIn (s : State) (p : Nat) : Int :=
  if s.pr.peerLat.any (fun e => e.1 == p) then (s.rd F.TS_PORT_LAT_lat_in p : Int) - (s.peerLat p).1 else 0

/-- skew_rt of a tree's port, in 0.1 ns. -/
def State.skewRt (s : State) (p : Nat) : Int :=
  if s.pr.peerLat.any (fun e => e.1 == p) then
    (s.rd F.TS_PORT_LAT_lat_eg p + s.rd F.TS_PORT_LAT_lat_in p : Int) - (s.peerLat p).2 - (s.peerLat p).1
  else 0

/-- A skew in 1/16 bit at the rate of port p (R386). -/
def State.skew16 (s : State) (p : Nat) (tenths : Int) : Int := tenths * (s.qpf p * 1024 : Nat) / 1250000

/-! ### The rope links (R396 to R401) -/

/-- The link of rope port p is up. -/
def State.ropeUp (s : State) (p : Nat) : Bool := (s.rope p).st == 2

/-- A message sent on rope port p while its link is up (R398). -/
def State.ropeSend (s : State) (p kind : Nat) (body : List Nat) : State :=
  if s.ropeUp p && !s.blkDown 9 then (s.emit (.rope p kind body)).ropeFrames p (messageSymbols kind (Config.ropeBody kind body)) else s

/-- A serial number bound or freed here goes to the members of the cascade (R408). -/
def State.registryNote (s : State) (sn : Nat) (bound : Bool) : State :=
  if s.feat 6 && s.on F.PR_CASC_CFG_casc_en && !s.pr.conflict then
    let b := [1, s.rd F.PR_CASC_CFG_casc_id, sn, b2n bound]
    (s.ropeSend 0 0x40 b).ropeSend 1 0x40 b
  else s

/-! ### Small list tools -/

/-- A 32-bit count has reached another, by signed difference. -/
def reached (now at_ : Nat) : Bool := decide ((now + (2 ^ 32 - at_ % 2 ^ 32)) % 2 ^ 32 < 2 ^ 31)

/-- The lowest number from n on that a rising list does not hold. -/
def lowestFrom : Nat → List Nat → Nat
  | n, [] => n
  | n, a :: t => if a < n then lowestFrom n t else if a = n then lowestFrom (n + 1) t else n

/-- The byte offset of element i of a field's register. -/
def Fld.at_ (f : Fld) (i : Nat) : Nat := f.off + i * f.stride


/-- A rising list with n in it once. -/
def insertNat (n : Nat) : List Nat → List Nat
  | [] => [n]
  | a :: t => if n < a then n :: a :: t else if n = a then a :: t else a :: insertNat n t

/-- The next number for the free values (DESIGN CHOICE, safe: log entry 2), and the counter advanced. -/
def State.tickFresh (s : State) : State := { s with fresh := s.fresh + 1 }

end Sys2Proof.Machine
end

