-- ==== Sys2Proof/Machine/Codes.lean ====
section
/-! DEFINITION. The codes that protect memory (R321, R336 to R338): the two Reed-Solomon codes with their fields, generators and
layouts, the cell header, the tags of deep lines. Symbols are numbers; a codeword lists its symbols, the highest power first. -/

namespace Sys2Proof.Machine

/-! ### Arithmetic in GF(2^m) -/

/-- A field: the degree m, and the polynomial that generates it, its term x^m apart. -/
structure GF where
  m : Nat
  poly : Nat
deriving DecidableEq, Repr

/-- x^9 + x^4 + 1 (R336). -/
def gf9 : GF := ⟨9, 0x11⟩
/-- x^16 + x^12 + x^3 + x + 1 (R337). -/
def gf16 : GF := ⟨16, 0x100B⟩

/-- α·a. -/
def GF.times (f : GF) (a : Nat) : Nat := if 2 ^ f.m ≤ 2 * a then (2 * a - 2 ^ f.m) ^^^ f.poly else 2 * a

/-- α^n. -/
def GF.pow (f : GF) : Nat → Nat
  | 0 => 1
  | n + 1 => f.times (f.pow n)

/-- The lowest n bits of b times a. -/
def GF.mulBits (f : GF) (a b : Nat) : Nat → Nat
  | 0 => 0
  | n + 1 => f.times (f.mulBits a (b / 2) n) ^^^ (if b % 2 = 1 then a else 0)

def GF.mul (f : GF) (a b : Nat) : Nat := f.mulBits a b f.m

/-! ### Codewords -/

/-- A polynomial, highest power first, times x + r. -/
def GF.timesRoot (f : GF) (p : List Nat) (r : Nat) : List Nat :=
  (List.zip (p ++ [0]) (0 :: p)).map (fun e => e.1 ^^^ f.mul r e.2)

/-- The generator polynomial (x + α^0)(x + α^1)(x + α^2)(x + α^3), the same for both codes (R336, R337). -/
def GF.generator (f : GF) : List Nat := ((List.range 4).map f.pow).foldl f.timesRoot [1]

/-- One data symbol into the remainder of the division by the generator. -/
def GF.feed (f : GF) (r : List Nat) (d : Nat) : List Nat :=
  let q := r.headD 0 ^^^ d
  (List.zip (r.drop 1 ++ [0]) (f.generator.drop 1)).map (fun e => e.1 ^^^ f.mul q e.2)

/-- The four check symbols of a list of data symbols. -/
def GF.check (f : GF) (ds : List Nat) : List Nat := ds.foldl f.feed [0, 0, 0, 0]

/-- The codeword of a list of data symbols. -/
def GF.encode (f : GF) (ds : List Nat) : List Nat := ds ++ f.check ds

/-- A codeword's value at α^i. -/
def GF.syndrome (f : GF) (cw : List Nat) (i : Nat) : Nat := cw.foldl (fun v c => f.mul v (f.pow i) ^^^ c) 0

/-- A word has no error: every syndrome is 0. -/
def GF.clean (f : GF) (cw : List Nat) : Bool := (List.range 4).all (fun i => f.syndrome cw i == 0)

/-! ### Rows (R336) -/

/-- The 32 words of a row's data symbols: word w holds symbol 2w in bits [8:0], symbol 2w + 1 in bits [17:9]. -/
def rowWords (ds : List Nat) : List Nat := (List.range 32).map (fun w => ds.getD (2 * w) 0 + ds.getD (2 * w + 1) 0 * 2 ^ 9)

/-- The 64 data symbols of a row's words. -/
def rowSymbols (ws : List Nat) : List Nat := ws.flatMap (fun w => [w % 2 ^ 9, w / 2 ^ 9 % 2 ^ 9])

/-- The codeword of 68 symbols that a row's words make with the check symbols stored beside them. -/
def rowCodeword (ws : List Nat) : List Nat := gf9.encode (rowSymbols ws)

/-! ### Cells (R321) -/

/-- A cell header's fields. -/
structure CellHeader where
  next : Nat
  count : Nat
  cgen : Nat
  sop : Bool
  eop : Bool
  fill : Bool
  de : Bool
  poison : Bool
  length : Nat
deriving DecidableEq, Repr

/-- The header's 64 bits. -/
def CellHeader.word (h : CellHeader) : Nat :=
  h.next % 2 ^ 21 * 2 ^ 43 + h.count % 128 * 2 ^ 36 + h.cgen % 16 * 2 ^ 32 + b2n h.sop * 2 ^ 31 + b2n h.eop * 2 ^ 30
    + b2n h.fill * 2 ^ 29 + b2n h.de * 2 ^ 28 + b2n h.poison * 2 ^ 27 + h.length % 2 ^ 14

/-- The header of cell i of a packet, with the cell's reuse count and poison, and the next cell. -/
def Pkt.header (k : Pkt) (i next cgen : Nat) (poison : Bool) : CellHeader := {
  next := next
  count := min 64 (k.bytes.length - 64 * i)
  cgen := cgen
  sop := i == 0
  eop := decide (k.bytes.length ≤ 64 * (i + 1))
  fill := k.fill
  de := k.de
  poison := poison
  length := if i = 0 then k.bytes.length else 0 }

/-- The header of cell i of a packet on chip, with the cell's own poison. -/
def State.cellHeader (s : State) (k : Pkt) (i : Nat) : CellHeader :=
  let c := k.cells.getD i 0
  k.header i (k.cells.getD (i + 1) 0) (s.bm.cgen.get 0 c) (s.bm.poison.contains c)

/-- The 64 symbols of a cell: symbol j carries byte j and bit j of the header. -/
def cellSymbols (bs : List Byte) (h : CellHeader) : List Nat :=
  (List.range 64).map (fun j => (bs.getD j 0).toNat + b2n (bit h.word j) * 2 ^ 8)

/-- The 32 words of cell i's row. -/
def State.cellRow (s : State) (k : Pkt) (i : Nat) : List Nat :=
  rowWords (cellSymbols ((k.bytes.drop (64 * i)).take 64) (s.cellHeader k i))

/-! ### Deep lines (R337, R338) -/

/-- The 38 data symbols of a line, in codeword order: its address, its 64 bytes, its tag. -/
def lineSymbols (addr : Nat) (bs : List Byte) (tag : Nat) : List Nat :=
  [addr / 2 ^ 16 % 2 ^ 16, addr % 2 ^ 16]
    ++ (List.range 32).map (fun i => (bs.getD (2 * i) 0).toNat * 2 ^ 8 + (bs.getD (2 * i + 1) 0).toNat)
    ++ (List.range 4).map (fun i => tag / 2 ^ (16 * (3 - i)) % 2 ^ 16)

/-- The codeword of 42 symbols: A0, A1, D0 to D31, T0 to T3, K0 to K3. -/
def lineCodeword (addr : Nat) (bs : List Byte) (tag : Nat) : List Nat := gf16.encode (lineSymbols addr bs tag)

/-- The pin that carries symbol i of a line: DQ pins 0 to 31, then pins 0 to 7 of the check lane as 32 to 39; none for the address,
which is not stored. -/
def pinOf (i : Nat) : Option Nat := if i < 2 then none else some (i - 2)

/-- The bit that pin p's symbol has on beat b, beat 0 first. -/
def pinBeat (cw : List Nat) (p b : Nat) : Bool := bit (cw.getD (p + 2) 0) (15 - b)

/-- The symbols that a failed device of w pins touches, its first pin p. -/
def deviceSymbols (p w : Nat) : List Nat := (List.range w).map (fun i => p + i + 2)

/-- The outcome of a read of a codeword with errors in the symbols named (R339): 0 good, 1 corrected, 2 uncorrectable, 3
misaddressed; line tells a deep line, whose symbols 0 and 1 are its address. -/
def readOutcome (line : Bool) (errs : List Nat) : Nat :=
  let e := errs.dedup
  if e.isEmpty then 0
  else if 2 < e.length then 2
  else if line && e.any (· < 2) then 3 else 1

/-- The tag of line i of a spilled packet: its cell's header with next = 0. -/
def Pkt.spillTag (k : Pkt) (i : Nat) : Nat := (k.header i 0 (k.tagGens.getD i 0) (k.lost.contains i)).word

/-- The tag of line 31 of a page. -/
def linkTag : Nat := 0

/-- An exact-match slot's flag and generation. -/
def genField (g : Option Nat) : Nat := match g with
  | some n => 16 + n % 16
  | none => 0

/-- The tag of an exact-match slot. (DESIGN CHOICE, safe: log entry 95.) -/
def Slot.tag (x : Slot) : Nat :=
  x.tbl % 16 * 2 ^ 60 + x.tenant % 256 * 2 ^ 48 + 2 ^ 47 + genField x.added * 2 ^ 42 + genField x.deleted * 2 ^ 37

/-- The tag of a line of the cairn area. -/
def SnapLine.tag (x : SnapLine) : Nat := x.evseq % 2 ^ 32 * 2 ^ 32 + x.gen % 16 * 2 ^ 28

/-- Where the cairn area and the firmware area begin, in lines of the striped regions (R335). -/
def cairnLine : Nat := 2 ^ 28
def firmwareLine : Nat := cairnLine + 2 ^ 25

/-- The tag of line l of the striped regions (R338), wherever it lies: a line in the reserve has the tag of the line relocated. An empty
slot's is 0; what Imhus writes in the firmware area's is its own. (DESIGN CHOICE, safe: log entry 95.) -/
def State.regionTag (s : State) (l : Nat) : Nat :=
  if l < cairnLine then ((s.cl.slots.get none l).map Slot.tag).getD 0
  else if l < firmwareLine then ((s.pr.snap[l - cairnLine]?).map SnapLine.tag).getD 0
  else Config.firmwareTag (l - firmwareLine)

end Sys2Proof.Machine
end

