-- ==== Sys2Proof/Machine/BmOps.lean ====
section
/-! DEFINITION. The operations on cells and the spill area that packets use (R321 to R332): cells taken and returned,
occupancy, whether spill is possible, pages. -/

namespace Sys2Proof.Machine

/-! ### Cells -/

/-- Cells of a packet of n bytes (R322). -/
def cellsFor (n : Nat) : Nat := max 1 (ceilDiv n 64)

/-- Occupancy O: cells in use on chip. -/
def State.occ (s : State) : Nat := s.bm.used.length

/-- Free cells: neither in use nor retired (R323, R343). -/
def State.freeCells (s : State) : Nat := 2 ^ 21 - s.bm.used.length - (s.bm.retired.filter (fun c => !s.bm.used.contains c)).length

/-- arr_floor in cells, below 8 units acting as 8 (R325). -/
def State.arrFloor (s : State) : Nat := max 8 (s.rd F.BM_ADMIT_arr_floor) * 4096

/-- fetch_depth: 0 acts as 1, above 8 as 8. -/
def State.fetchDepth (s : State) : Nat := max 1 (min 8 (s.rd F.BM_ADMIT_fetch_depth))

/-- The thresholds in force. -/
def State.lowMax (s : State) : Nat := s.bm.levels.low * 4096
def State.spillOn (s : State) : Nat := s.bm.levels.on * 4096
def State.spillOff (s : State) : Nat := s.bm.levels.off * 4096

/-- n numbers from k on that a rising list does not hold, lowest first. -/
def pickFree : Nat → Nat → List Nat → List Nat
  | 0, _, _ => []
  | n + 1, k, l => lowestFrom k l :: pickFree n (lowestFrom k l + 1) l

/-- The spilling state follows the occupancy (R327). -/
def State.spillCheck (s : State) : State :=
  let o := s.occ
  if !s.bm.spilling && decide (s.spillOn ≤ o) then { s with bm := { s.bm with spilling := true } }.raise 7 0 0x6001 o
  else if s.bm.spilling && decide (o < s.spillOff) then { s with bm := { s.bm with spilling := false } }.raise 7 0 0x6002 o
  else s

/-- An admission or a placement: the thresholds written last are in force from it on (R332). -/
def State.levelsIn (s : State) : State :=
  { s with bm := { s.bm with
    levels := ⟨s.rd F.BM_SPILL_spill_on, s.rd F.BM_SPILL_spill_off, s.rd F.BM_SPILL_low_max⟩ } }.spillCheck

/-- n cells taken from the free list, lowest first, those being copied apart (R342); their content is new. -/
def State.takeCells (s : State) (n : Nat) : State × List Nat :=
  let waits := (s.bm.copying.filter (fun k => k / 2 ^ 21 == 7)).map (· % 2 ^ 21)
  let busy := (s.bm.retired ++ waits).foldl (fun l c => insertNat c l) s.bm.used
  let cs := pickFree n 0 busy
  ({ s with bm := { s.bm with
    used := cs.foldl (fun l c => insertNat c l) s.bm.used
    poison := s.bm.poison.filter (fun c => !cs.contains c) } }.spillCheck, cs)

/-- Cells returned to the free list, each with its reuse count raised (R323). -/
def State.giveCells (s : State) (cs : List Nat) : State :=
  { s with bm := { s.bm with
    used := s.bm.used.filter (fun c => !cs.contains c)
    draining := s.bm.draining.filter (fun c => !cs.contains c)
    cgen := cs.foldl (fun t c => t.modify 0 c (fun n => (n + 1) % 16)) s.bm.cgen } }.spillCheck

/-- The packet's cells go to its egress, which has still to read them (R323). -/
def State.drainCells (s : State) (cs : List Nat) : State :=
  { s with bm := { s.bm with draining := s.bm.draining ++ cs } }

/-- The event of the first drop in a 1 ms of the run count (R352): whether this is it. -/
def State.msNow (s : State) : Nat := s.ts.run / 2 ^ 40 / 1000000

/-- A packet's first cell carries another reuse count than its descriptor (R324). -/
def State.chainBad (s : State) (k : Pkt) : Bool :=
  match k.cells.head? with
  | some c => s.bm.cgen.get 0 c != k.cgen
  | none => false

/-- A packet with content lost to an uncorrectable error, in its cells or in the cell headers that went to deep memory with it
(R321, R324, R338). -/
def State.poisoned (s : State) (k : Pkt) : Bool := !k.lost.isEmpty || k.cells.any s.bm.poison.contains

/-- A row of macro m of block b, as one number. -/
def rowNo (b m r : Nat) : Nat := (b * 2048 + m) * 1024 + r

/-- The row that holds a cell: the cells are the rows of the BM block's macros, in order. (DEDUCED, safe: log entry 20.) -/
def cellRowNo (c : Nat) : Nat := rowNo 7 (c / 1024) (c % 1024)

/-- An access to the row waits: it is being copied to its spare (R342). -/
def State.rowWaits (s : State) (b m r : Nat) : Bool := s.bm.copying.contains (rowNo b m r)

/-- An access to one of the cells waits. -/
def State.cellsWait (s : State) (cs : List Nat) : Bool := cs.any (fun c => s.bm.copying.contains (cellRowNo c))

/-- A fenced row m, r of block b: copied to a spare of its macro, or, with none free, its cell retired, any other row left in service
under correction (R342, R343). What is reported follows the fence (R39). -/
def State.rowFenced (s : State) (b m r : Nat) : State :=
  let k := rowNo b m r
  if s.bm.spares.get 0 (b * 2048 + m) < 8 then
    { s with bm := { s.bm with copying := insertNat k s.bm.copying, spares := s.bm.spares.modify 0 (b * 2048 + m) (· + 1) } }
  else if b = 7 then
    { s with bm := { s.bm with retired := insertNat (m * 1024 + r) s.bm.retired } }.raiseNext 7 0 0x6012 (m * 1024 + r)
  else if s.bm.bare.contains k then s
  else { s with bm := { s.bm with bare := insertNat k s.bm.bare } }.raiseNext 7 m 0x6011 r

/-- A fault of a row; fenced, it is repaired. -/
def State.rowFault (s : State) (b m r : Nat) (hard : Bool) (cause : Nat) : State :=
  let (s, f) := s.faultAt (.row b m r) hard cause
  if f then s.rowFenced b m r else s

/-- The read of an on-chip row. The answer's second part says that it returned Error (R339, R340): uncorrectable, or redirected to a
spare written as uncorrectable (R342). -/
def State.rowRead (s : State) (b m r : Nat) (errs : List Nat) : State × Bool :=
  if s.bm.gone.contains (rowNo b m r) then (s, true)
  else match readOutcome false errs with
    | 0 => (s, false)
    | 1 => (s.rowFault b m r false 0, false)
    | _ =>
      let s := s.when (b == 7) fun s => { s with bm := { s.bm with poison := insertNat (m * 1024 + r) s.bm.poison } }
      (s.rowFault b m r true 15, true)

/-- The cell chain check has failed: the drop counted, the event, and a soft fault in the tally of the first cell's row (R324, R49).
(DESIGN CHOICE, safe: log entry 96.) -/
def State.chainFault (s : State) (k : Pkt) : State :=
  let c := k.cells.headD 0
  ((s.count 7 5 0).raise 7 0 0x6005 c).rowFault 7 (c / 1024) (c % 1024) false 4

/-! ### The spill area (R328, R335) -/

/-- Capacity in GiB. -/
def State.deepGiB (s : State) : Nat := s.rd F.BM_DEEP_CFG_capacity * 8

/-- Pages of 32 lines on each subchannel: the capacity less 21.5 GiB, over 16 subchannels and 2 KiB. -/
def State.pagesPerSub (s : State) : Nat := (2 * s.deepGiB - 43) * 16384

/-- The subchannel takes no new page (R344, R345). -/
def State.subFenced (s : State) (n : Nat) : Bool := s.fenced (.sub n)

/-- Pages in use on a subchannel. -/
def State.pagesOn (s : State) (n : Nat) : List Nat := s.bm.pages.filter (fun k => k / 2 ^ 24 == n)

/-- Free spill pages, those of fenced subchannels apart. -/
def State.freePages (s : State) : Nat :=
  ((List.range 16).map (fun n => if s.subFenced n then 0 else s.pagesPerSub - (s.pagesOn n).length)).sum

/-- Why no spill is possible, as event 0x6003 codes it (R328). -/
def State.spillCause (s : State) : Option Nat :=
  if !s.feat 11 then some 0
  else if s.domDown 11 || s.pw.dom == some (11, true) then some 1
  else if s.freePages = 0 then some 2
  else if 4096 ≤ s.bm.spills.length then some 3 else none

/-- BM_STATUS.spill_blocked follows, with its event as it sets, after the fence that may have caused it (R39); without feature 11 it stands
from lock on. -/
def State.blockCheck (s : State) : State :=
  match s.spillCause with
  | some 0 => s
  | some c => if s.bm.blocked then s else { s with bm := { s.bm with blocked := true } }.raiseAfter
      (s.lastEvent (fun e => e.block == 7 && e.code == 0xFF03 && e.arg / 2 ^ 28 == 3)) 7 0 0x6003 c
  | none => { s with bm := { s.bm with blocked := false } }

/-- The next subchannel from n on that is not fenced and has a free page. -/
def State.pageSub (s : State) (n : Nat) : Option Nat :=
  ((List.range 16).map (fun i => (n + i) % 16)).find? (fun k =>
    !s.subFenced k && decide ((s.pagesOn k).length < s.pagesPerSub))

/-- Lines of a subchannel by region (R335): 2^24 of the exact-match store, 2^21 of the cairn area, 2^21 of the firmware area, then
1.5 × 2^20 of the reserve, then the pages. (DESIGN CHOICE, safe: log entry 97.) -/
def tableLines : Nat := 20 * 2 ^ 20
def pageLine (no i : Nat) : Nat := tableLines + 3 * 2 ^ 19 + no * 32 + i

/-- Deep memory serves no request: its domain or the BM block is down. -/
def State.deepDown (s : State) : Bool := s.domDown 11 || s.blkDown 7

/-- Line l of subchannel n, as one number. -/
def lineNo (n l : Nat) : Nat := n * 2 ^ 28 + l

/-- Line l of a striped region lies on subchannel l mod 16 (R335), or, of the subchannel whose lines the reserve holds, in the reserve of
one of the other 15, in turn: once the copy is over, or the line has been written since it began (R344). -/
def State.lineHome (s : State) (l : Nat) : Nat × Nat :=
  let n := l % 16
  let i := l / 16
  if s.bm.reserve == some n && (s.bm.relocating.isNone || s.bm.rewritten.contains l) then
    (if i % 15 < n then i % 15 else i % 15 + 1, tableLines + i / 15)
  else (n, i)

/-- Line l of a striped region written whole: good again, at its new place while its subchannel's copy runs (R340, R344). -/
def State.lineWritten (s : State) (l : Nat) : State :=
  let s := s.when (s.bm.relocating == some (l % 16)) fun s => { s with bm := { s.bm with rewritten := insertNat l s.bm.rewritten } }
  let h := s.lineHome l
  { s with bm := { s.bm with bad := s.bm.bad.filter (· != lineNo h.1 h.2) } }

/-- A page taken on the next subchannel in rotation after n, the lowest free one. -/
def State.takePage (s : State) (n : Nat) : Option (State × Page) :=
  match s.pageSub n with
  | none => none
  | some k =>
    let no := lowestFrom 0 ((s.pagesOn k).map (· % 2 ^ 24))
    some ({ s with bm := { s.bm with pages := insertNat (k * 2 ^ 24 + no) s.bm.pages, nextSub := (k + 1) % 16 } }, ⟨k, no, 0, 0⟩)

/-- A page as one number. -/
def Page.key (p : Page) : Nat := p.sub * 2 ^ 24 + p.no

/-- Pages given back. -/
def State.givePages (s : State) (ps : List Page) : State :=
  { s with bm := { s.bm with pages := s.bm.pages.filter (fun k => !ps.any (fun p => p.key == k)) } }.blockCheck

/-- m lines of page p from line i on, written whole. -/
def State.pageWritten (s : State) (p : Page) (i m : Nat) : State :=
  let a := lineNo p.sub (pageLine p.no i)
  { s with bm := { s.bm with bad := s.bm.bad.filter (fun k => !(decide (a ≤ k) && decide (k < a + m))) } }

/-- n more lines written at the end of a queue's pages, 31 to a page, the pages in rotation; a page that another follows gets its number in
line 31 (R332). fuel bounds the pages taken. Also the pages written. None where the spill area runs out. -/
def State.writeLines : Nat → State → List Page → Nat → List Nat → Option (State × List Page × List Nat)
  | 0, _, _, _, _ => none
  | fuel + 1, s, ps, n, ks =>
    if n = 0 then some (s, ps, ks)
    else match ps.getLast? with
      | none => match s.takePage s.bm.nextSub with
        | none => none
        | some (s, p) => s.writeLines fuel [p] n ks
      | some q =>
        if q.used = 31 then
          match s.takePage ((q.sub + 1) % 16) with
          | none => none
          | some (s, p) => (s.pageWritten q 31 1).writeLines fuel (ps ++ [p]) n (insertNat q.key ks)
        else
          let m := min (31 - q.used) n
          (s.pageWritten q q.used m).writeLines fuel (ps.dropLast ++ [{ q with used := q.used + m }]) (n - m) (insertNat q.key ks)

/-- n lines of the oldest pages done with. -/
def markLines : List Page → Nat → List Page
  | [], _ => []
  | p :: ps, n =>
    let m := min n (p.used - p.done)
    { p with done := p.done + m } :: markLines ps (n - m)

/-- The next n lines to read of a queue's pages; with a page's line 30 goes line 31, which names the next (R332). (DEDUCED, safe: log
entry 139.) -/
def nextLines : List Page → Nat → List Nat
  | [], _ => []
  | p :: ps, n =>
    let m := min n (p.used - p.done)
    (List.range m).map (fun i => lineNo p.sub (pageLine p.no (p.done + i)))
      ++ (if m != 0 && p.done + m == 31 && !ps.isEmpty then [lineNo p.sub (pageLine p.no 31)] else [])
      ++ nextLines ps (n - m)

/-- The lines that the fetches in flight of a queue will read, a list for each. -/
def fetchRuns : List Page → List Pkt → List (List Nat)
  | _, [] => []
  | ps, k :: ks => nextLines ps k.cells.length :: fetchRuns (markLines ps k.cells.length) ks

def State.queueAt (s : State) (q : Nat) : Queue := s.qs.queues.get {} q
def State.setQueue (s : State) (q : Nat) (x : Queue) : State := { s with qs := { s.qs with queues := s.qs.queues.set {} q x } }

/-- The pages of queue q that are over are free, those apart to which a write already issued is outstanding (R331). With nothing left
in deep memory, every page is over. -/
def State.pagesOver (s : State) (q : Nat) : State :=
  let x := s.queueAt q
  let ps := if x.deep.isEmpty && x.fetch.isEmpty then x.pages.map (fun p => { p with used := 31, done := 31 }) else x.pages
  let (spent, rest) := ps.partition (fun p => p.done == 31 && !s.bm.spills.any (fun w => w.pages.contains p.key))
  (s.setQueue q { x with pages := rest }).givePages spent

/-! ### Subchannel faults (R344, R345) -/

/-- A fault of a subchannel. Fenced, its table lines are copied into the reserve, or, where the reserve holds another's, are left
as they are. -/
def State.subFault (s : State) (n : Nat) (hard : Bool) (cause : Nat) : State :=
  let (s, f) := s.faultAt (.sub n) hard cause
  if !f then s
  else if s.bm.reserve.isSome then
    { s with bm := { s.bm with degraded := insertNat n s.bm.degraded } }.raiseNext 7 n 0x6022 0
  else { s with bm := { s.bm with reserve := some n, relocating := some n, rewritten := [] } }

/-- An uncorrectable read of a deep line on subchannel n: counted, and a soft fault of the subchannel (R298, R339).
(DEDUCED, unsafe: log entry 52.) -/
def State.deepUncorrectable (s : State) (n : Nat) : State := ((s.bump F.BM_DEEP_ERR_uncorrectable).subFault n false 5).blockCheck

/-- The read of line l of subchannel n, with errors in the symbols named (R339, R340). The answer's second part says that it returned
Error: uncorrectable, misaddressed, or found so before and not written whole since. -/
def State.deepRead (s : State) (n l : Nat) (errs : List Nat) : State × Bool :=
  if s.bm.bad.contains (lineNo n l) then (s.deepUncorrectable n, true)
  else
    let lose := fun (s : State) => { s with bm := { s.bm with bad := insertNat (lineNo n l) s.bm.bad } }
    match readOutcome true errs with
    | 0 => (s, false)
    | 1 => (((s.bump F.BM_DEEP_ERR_corrected).subFault n false 0).blockCheck, false)
    | 2 => ((lose s).deepUncorrectable n, true)
    | _ => ((lose (s.bump F.BM_DEEP_ERR_misaddress)).deepUncorrectable n, true)

/-- The read of table line l, wherever it lies; one left on a subchannel that is not relocated returns Error (R344, R345). -/
def State.regionRead (s : State) (l : Nat) (errs : List Nat) : State × Bool :=
  if s.bm.degraded.contains (l % 16) then (s, true)
  else s.deepRead (s.lineHome l).1 (s.lineHome l).2 errs

/-- Lines read in turn, each with its errors; the second part says that one of them returned Error. -/
def State.readAll (read : State → Nat → List Nat → State × Bool) (s : State) (ls : List Nat) (errs : List (List Nat)) :
    State × Bool :=
  ls.zipIdx.foldl (fun (a : State × Bool) e =>
    let r := read a.1 e.1 (errs.getD e.2 [])
    (r.1, a.2 || r.2)) (s, false)

end Sys2Proof.Machine
end

