-- ==== Sys2Proof/Machine/Flags.lean ====
section
/-! DEFINITION. The flag computations of the two instruction sets: Z, N, C, V of R190 on the 18-bit grant words and of
R269 on the 36-bit parse words. One set of functions, by width. -/

namespace Sys2Proof.Machine

/-- A result with the carry and overflow that its operation gives; none where the operation leaves the flag alone. -/
structure Alu where
  val : Nat
  c : Option Bool := none
  v : Option Bool := none
deriving DecidableEq, Repr

/-- Signed overflow: the exact signed result lies outside w bits. -/
def overflows (w : Nat) (i : Int) : Bool := decide (i < -(2 ^ (w - 1) : Int)) || decide ((2 ^ (w - 1) : Int) ≤ i)

/-- a + b + cin on w bits: C the carry out, V signed overflow. -/
def aluAdd (w a b : Nat) (cin : Bool) : Alu :=
  let t := a + b + b2n cin
  ⟨t % 2 ^ w, some (decide (2 ^ w ≤ t)), some (overflows w (signed w a + signed w b + b2n cin))⟩

/-- a − b − (1 − cin) on w bits: C the carry out of a + ¬b + cin, that is NOT borrow; V signed overflow. -/
def aluSub (w a b : Nat) (cin : Bool) : Alu :=
  let t := a + (2 ^ w - 1 - b) + b2n cin
  ⟨t % 2 ^ w, some (decide (2 ^ w ≤ t)), some (overflows w (signed w a - signed w b - 1 + b2n cin))⟩

/-- A left shift by n: C the last bit shifted out; a shift by 0 leaves C. -/
def aluShl (w a n : Nat) : Alu :=
  ⟨a * 2 ^ n % 2 ^ w, if n = 0 then none else some (bit (a * 2 ^ n) w), none⟩

/-- A logical right shift. -/
def aluShr (a n : Nat) : Alu := ⟨a / 2 ^ n, if n = 0 then none else some (bit a (n - 1)), none⟩

/-- An arithmetic right shift on w bits. -/
def aluSra (w a n : Nat) : Alu :=
  let x := signed w a
  ⟨wrapTo w (x / (2 ^ n : Int)), if n = 0 then none else some (bit (wrapTo (w + n) x) (n - 1)), none⟩

end Sys2Proof.Machine
end

