-- ==== Sys2Proof/Machine/Operands.lean ====
section
/-! DEFINITION. The operand forms of the grant instructions (R186 to R191): register reads and writes, the encoding of
the five forms, conditions, special registers; and the rows a pitch may read (R196, R197). -/

namespace Sys2Proof.Machine

/-! ### Grant registers and flags -/

/-- Register x of a pitch; g0 reads 0 (R186). -/
def Pitch.g (x : Pitch) (r : G4) : Nat := if r = 0 then 0 else x.regs.getD r.toNat 0

/-- Register number n (already known to be below 16) set to v; g0 discards it (R186). -/
def Pitch.putN (x : Pitch) (n v : Nat) : Pitch :=
  if n = 0 then x else { x with regs := x.regs.set n (v % 2 ^ 18) }

def Pitch.put (x : Pitch) (r : G4) (v : Nat) : Pitch := x.putN r.toNat v

/-- Z and N of an 18-bit result (R190). -/
def Pitch.zn (x : Pitch) (v : Nat) : Pitch := { x with z := v % 2 ^ 18 == 0, n := bit v 17 }

/-- C and V, where the operation gives them. -/
def Pitch.cv (x : Pitch) (a : Alu) : Pitch := { x with c := a.c.getD x.c, v := a.v.getD x.v }

/-- A result with Z, N and the C and V its operation gives, written to d. -/
def Pitch.alu (x : Pitch) (d : G4) (a : Alu) : Pitch := ((x.put d a.val).zn a.val).cv a

/-- Whether a condition holds (R191); none for the reserved code 15. -/
def Pitch.cond (x : Pitch) (c : G4) : Option Bool :=
  match c.toNat with
  | 0 => some true
  | 1 => some x.z
  | 2 => some !x.z
  | 3 => some x.c
  | 4 => some !x.c
  | 5 => some x.n
  | 6 => some !x.n
  | 7 => some x.v
  | 8 => some !x.v
  | 9 => some (x.c && !x.z)
  | 10 => some (!x.c || x.z)
  | 11 => some (x.n == x.v)
  | 12 => some (x.n != x.v)
  | 13 => some (!x.z && x.n == x.v)
  | 14 => some (x.z || x.n != x.v)
  | _ => none

/-! ### Grant encodings (R188) -/

/-- A base word: opcode in [17:12] and three fields of four bits. -/
def gWord (op : Nat) (d a b : Nat) : Nat := op * 4096 + d * 256 + a * 16 + b

def gR (op : Nat) (d a b : G4) : List Nat := [gWord op d.toNat a.toNat b.toNat]
def gX (op : Nat) (d a : G4) (imm : GWord) : List Nat := [gWord op d.toNat a.toNat 0, imm.toNat]
def gS (op : Nat) (d : G4) (sel : BitVec 8) : List Nat := [op * 4096 + d.toNat * 256 + sel.toNat]
def gB (op : Nat) (c : G4) (off : BitVec 8) : List Nat := [op * 4096 + c.toNat * 256 + off.toNat]
def gL (op : Nat) (c : G4) (t : BitVec 14) : List Nat := [gWord op c.toNat 0 0, t.toNat]

/-- A field of four bits, sign-extended to 18 bits (addq). -/
def sext4 (k : G4) : Nat := wrapTo 18 (signed 4 k.toNat)

/-! ### The data partition (R187) -/

/-- Word a of the partition: as written in this pitch, else the keep region as the opening set it (R185), else a free value (R157). -/
def Pitch.dsRead (x : Pitch) (a : Nat) : Nat :=
  match x.ds.get none a with
  | some v => v
  | none => if a < 512 then x.keep.get 0 a else Config.scratch x.scratch a % 2 ^ 18

/-- A data-store address, modulo 2^18; fault 2 outside the partition. -/
def dsAddr (a : Nat) : Except Nat Nat := if a % 2 ^ 18 < 4096 then .ok (a % 2 ^ 18) else .error 2

def Pitch.store (x : Pitch) (a v : Nat) : Pitch := { x with ds := x.ds.set none a (some v) }

/-! ### Rows (R178, R196, R197) -/

/-- Whose row it is at the opening: of no tree, of this tree, or of another. -/
inductive RowOf where
  | none | tree | other
deriving DecidableEq, Repr

def Pitch.termRowOf (x : Pitch) (t : Nat) : RowOf :=
  let c := x.ctxs.get {} t
  if c.st == .free then .none else if x.ports.contains c.port then .tree else .other

def Pitch.allocRowOf (x : Pitch) (a : Nat) : RowOf :=
  let al := x.allocs.get {} a
  if !al.valid then .none else x.termRowOf al.term

/-- The pitch builds both maps of a shared pair (R161, R210). -/
def Pitch.shared (x : Pitch) : Bool := bit (x.mfs.getD 0x0F 0) 1

def ActSt.code : ActSt → Nat
  | .free => 0 | .waiting => 1 | .assigned => 2 | .operating => 3 | .lost => 4 | .disabled => 5 | .leaving => 6
  | .allocated => 7

/-- Words of a terminal row (R178). -/
def termWord (c : Ctx) (pstate : Nat) (lobi : Bool) (w : Nat) : Nat :=
  match w with
  | 0 => c.st.code * 2 ^ 15 + pstate * 2 ^ 13 + b2n lobi * 2 ^ 12 + c.onu
  | 1 => c.port * 2 ^ 12 + c.tenant * 2 ^ 4
  | 2 => c.prog0
  | 3 => c.prog1
  | _ => 0

/-- Words of an allocation row (R178); without feature 5 the history fields read 0 (R199). -/
def allocWord (hist : Bool) (a : Alloc) (w : Nat) : Nat :=
  match w with
  | 0 => b2n a.valid * 2 ^ 17 + b2n a.shadowOk * 2 ^ 15 + b2n (hist && a.histValid) * 2 ^ 14 + a.allocId
  | 1 => (if hist then a.histCount else 0) * 2 ^ 14 + a.term
  | w => a.words.getD (w - 2) 0

/-- Words of a report row (R178). -/
def reportWord (a : Alloc) (w : Nat) : Nat :=
  match w with
  | 0 => a.occ
  | _ => a.seq * 2 ^ 12 + a.age * 2 ^ 6 + b2n a.crcSeen * 2 ^ 5

/-- A word of a history row: k = 0 the newest entry (R178, R179). -/
def histWord (a : Alloc) (k : Nat) : Nat := let e := a.hist.getD k (0, 0); e.1 * 2 ^ 9 + e.2

/-- Reading a row of a table (R197): fault 3 for another tree's, 0 for a row of no tree. -/
def readRow (o : RowOf) (v : Nat) : Except Nat Nat :=
  match o with
  | .none => .ok 0
  | .tree => .ok v
  | .other => .error 3

/-- The lowest of the fault codes that apply (R211). -/
def lowest (l : List Nat) : Option Nat := l.foldl (fun m c => some (match m with
  | none => c
  | some d => min c d)) none

/-! ### Overhead (R83, R204, R205) -/

/-- UB_TREE_PROF.delim_q, 0 acting as 1. -/
def State.delimQ (s : State) (p : Nat) : Nat := max 1 (s.rd F.UB_TREE_PROF_delim_q p)

/-- The guard before a burst, in quanta of the receiving port: with new_guard_q where the profile is long (R83, R111). -/
def State.guardQ (s : State) (p : Nat) (short : Bool) : Nat :=
  let r := s.rxPort p
  s.rd F.UB_TREE_CFG_guard_q r + (if short then 0 else s.rd F.UB_TREE_CFG_new_guard_q r)

/-- From a burst's first preamble quantum to its first data quantum, in quanta of its own port (R83). -/
def State.leadQ (s : State) (p : Nat) (short : Bool) : Nat :=
  (if short then s.rd F.UB_TREE_PROF_short_pre_q p else s.rd F.UB_TREE_PROF_long_pre_q p) + s.delimQ p

/-- The same in quanta of the time line of port p, for a burst of port q, rounded up (R111, R205). -/
def State.leadOn (s : State) (p q : Nat) (short : Bool) : Nat :=
  if p = q then s.leadQ p short else ceilDiv (s.leadQ q short * s.qpf p) (s.qpf q)

/-- The overhead of a burst of a context on port q, in quanta of the tree's time line p, rounded up: short profile, or long with the
extra guard (R83, R205). -/
def State.overheadOn (s : State) (p q : Nat) (short : Bool) : Nat := s.guardQ q short + s.leadOn p q short

/-- The overhead of a burst on a port that is its own time line. -/
def State.overhead (s : State) (p : Nat) (short : Bool) : Nat := s.overheadOn p p short

/-- The frames since the start of the upstream frame whose quantum q, less lead quanta, comes to the receiver of port p now: data at
quantum q of upstream frame m arrives at frame instant m + T_eq + q (R223). (DEDUCED, unsafe: log entry 79.) -/
def State.upAge (s : State) (p q lead : Nat) : Nat :=
  (s.rd F.GE_DISC_DIST_teq (s.treeNo p) * s.qpf p / 1250 + q - lead) / s.qpf p

/-- The map whose bursts an upstream frame k frames old carries on port i. -/
def State.hintK (s : State) (i k : Nat) : Option MapRec := ((s.rx i).hintq[k]?).bind (·.1)

/-- The hints of port i's map for that upstream frame of the time line of port p, and whether the map was held (R85). -/
def State.hintAt (s : State) (p i q lead : Nat) : Option (MapRec × Bool) :=
  match (s.rx i).hintq[s.upAge p q lead]? with
  | some (some m, held) => some (m, held)
  | _ => none

/-- The map of the frame that starts goes to the receiver, which arms from its hints when the upstream frame arrives (R85). -/
def UbPort.hint (x : UbPort) (m : Option MapRec) (held : Bool) : UbPort :=
  { x with hintq := if m.isNone && x.hintq.all (·.1.isNone) then [] else ((m, held) :: x.hintq).take 64 }

/-- The receiver of port p takes bursts: rx_en, in RUN or BIVOUAC, not the odd port of a shared pair. -/
def State.receiving (s : State) (p : Nat) : Bool :=
  s.on F.UB_TREE_CFG_rx_en p && s.live && !s.portDown 2 p && !s.sharedOdd p

/-- Port p's receiver has tree defect d (R112). -/
def State.treeHas (s : State) (p d : Nat) : Bool := bit (s.rd F.UB_TREE_STATUS_defects p) d

/-- An armed burst as it stands now, in place of the one with its first quantum. -/
def State.putBurst (s : State) (p : Nat) (b : Burst) : State :=
  s.setRx p { s.rx p with armed := (s.rx p).armed.map (fun c => if c.first == b.first then b else c) }

/-- Whether a burst of terminal t gets the short profile under the recalls of the pitch (R204): mode of the recall in
force for it, the pstate now, the terminals whose pstate at the opening was trained. -/
def State.profile (s : State) (recalls : List (Nat × Nat)) (short : List Nat) (t : Nat) : Bool :=
  match (recalls.find? (fun r => r.1 == t)).map (·.2) with
  | some 1 => false
  | some 2 => short.contains t
  | _ => s.pstate t == .trained

end Sys2Proof.Machine
end

