-- ==== Sys2Proof/Machine/GrantOps.lean ====
section
/-! DEFINITION. What every grant instruction shares: the end of a pitch (R156), program faults (R211 to R213), the fetch
of a word from the image a pitch runs (R188), the test of an illegal word (R189), the
fencing of an engine (R170, R172). -/

namespace Sys2Proof.Machine

/-- The word at address a of the bank a pitch runs. -/
def State.imageWord (s : State) (bank : Bool) (a : Nat) : Nat :=
  (if bank then s.ge.bank1 else s.ge.bank0).get 0 a

/-- The program word of a terminal or allocation row set (R156, R178). -/
def State.commitWrite (s : State) (p : Nat) (w : BufWrite) : State :=
  if w.alloc then
    let a := s.alloc w.row
    if a.valid && s.onTree a.term p && a.frees == w.frees then
      s.setAlloc w.row { a with words := a.words.set (w.word - 2) w.val }
    else s
  else
    let c := s.ctx w.row
    if s.onTree w.row p && c.frees == w.frees then
      s.setCtx w.row (if w.word = 2 then { c with prog0 := w.val } else { c with prog1 := w.val })
    else s

/-- The tree's keep region as the keep store holds it. -/
def State.keepWords (s : State) (p : Nat) : List GWord :=
  (List.range 512).map (fun i => BitVec.ofNat 18 (s.ge.keep.get 0 (p * 512 + i)))

/-- The keep region of a tree at 0. -/
def State.keepZero (s : State) (p : Nat) : State :=
  { s with ge := { s.ge with keep := s.ge.keep.filter (fun e => decide (e.1 < p * 512) || decide (p * 512 + 512 ≤ e.1)) } }

/-- The keep region of a tree, by word. -/
def State.keepOf (s : State) (p : Nat) : Tab Nat :=
  (s.ge.keep.filter (fun e => decide (p * 512 ≤ e.1) && decide (e.1 < p * 512 + 512))).map (fun e => (e.1 - p * 512, e.2))

/-- The keep region of a sealed pitch copied to the keep store, whole: what the opening set and the pitch has written since (R156, R185).
What a keep_clr or a write of the keep table does to a pitch still open the spec does not say: the pitch keeps its own region.
(DESIGN CHOICE, unsafe: log entry 91.) -/
def State.keepCopy (s : State) (p : Nat) (x : Pitch) : State :=
  let put := fun (k : Tab Nat) (e : Nat × Option Nat) =>
    if e.1 < 512 then k.set 0 (p * 512 + e.1) (e.2.getD 0) else k
  let k := x.keep.foldl (fun (k : Tab Nat) e => k.set 0 (p * 512 + e.1) e.2) (s.keepZero p).ge.keep
  { s with ge := { s.ge with keep := x.ds.foldl put k } }

/-- A window slice that was not kept counts as skipped (R136): 0x1020, and 0x1021 at the 64th skip of a run. A skipped open-discovery
slice stays due, and the next pitch offers it again: the spec does not say which frame the next window frame is.
(DESIGN CHOICE, unsafe: log entry 92.) -/
def State.skipSlice (s : State) (p slice : Nat) : State :=
  let n := s.treeNo p
  let t := s.actTree n
  let s := ((s.setActTree n { t with skipRun := t.skipRun + 1 }).bump F.GE_DISC_STATUS_skips 1 n).raise 3 n 0x1020 slice
  s.when (t.skipRun + 1 == 64) (·.raiseNext 3 n 0x1021 0)

/-- The windows offered to a pitch that did not seal are skipped (R165). -/
def State.skipOffered (s : State) (p : Nat) (l : List Desc) : State :=
  l.zipIdx.foldl (fun s e => if e.1.kind = 0 then s else s.skipSlice (if e.2 < 2 then p else p + 1) e.1.slice) s

/-- How a pitch of tree p ended, or did not open (R163, R210). -/
def State.pitchReason (s : State) (p r : Nat) : State :=
  (s.setTree p { s.tree p with lastReason := r }).wr F.GE_TREE_STATUS_last_reason r p

/-- The end of a pitch (R156): a sealed one commits its keep region and its buffered writes in order, an unsealed one
leaves no trace but its reason (R163). -/
def State.endPitch (s : State) (p : Nat) (reason : Nat) : State :=
  match (s.tree p).pitch with
  | none => s
  | some x =>
    if x.sealed then
      let s := s.setTree p { s.tree p with pitch := none }
      let s := x.wbuf.foldl (fun s w => s.commitWrite p w) (s.keepCopy p x)
      (s.pitchReason p 0).sendCairn (.keep (Fin.ofNat 64 p) (s.keepWords p))
    else
      let t := s.tree p
      ((s.setTree p { t with pitch := none, due := t.due.set none x.draft.frame (some reason) }).pitchReason p reason).skipOffered
        p x.draft.descs

/-- A program fault ends the pitch (R212, R213). -/
def State.grantFault (s : State) (p code pc : Nat) : State :=
  ((((s.raise 3 p 0x2030 (code * 2 ^ 16 + pc)).bump F.GE_TREE_FAULT_faults 1 p).wr F.GE_TREE_FAULT_code code p).wr
    F.GE_TREE_FAULT_pc pc p).endPitch p 2

/-- pc set to an address inside the image, or fault 8 (R188). -/
def Pitch.goto (x : Pitch) (t : Nat) : Except Nat Pitch := if t < x.len then .ok { x with pc := t } else .error 8

/-- The tree's open pitch stands at the words ws, inside its image and before its deadline. -/
def State.standsAt (s : State) (p : Nat) (ws : List Nat) : Bool :=
  match (s.tree p).pitch with
  | none => false
  | some x => decide (s.ts.run < x.deadline) && (List.range ws.length).all (fun i => s.imageWord x.bank (x.pc + i) == ws.getD i 0)
      && decide (x.pc + ws.length ≤ x.len)

/-- The tree's open pitch has sealed. -/
def State.pitchSealed (s : State) (p : Nat) : Bool :=
  match (s.tree p).pitch with
  | none => false
  | some x => x.sealed

/-- One grant instruction of tree p, whose words are ws. It retires only where the tree's open pitch stands at exactly
these words, before the deadline (R193); f gets the pitch with pc already past the instruction, and answers the new pitch or a fault
code. An extension word beyond the image is fault 8, or the lower code that the instruction meets besides (R211). -/
def State.grant (s : State) (p : Port) (ws : List Nat) (f : Pitch → Except Nat Pitch) : State :=
  match (s.tree p).pitch with
  | none => s
  | some x =>
    if !((List.range ws.length).all (fun i => s.imageWord x.bank (x.pc + i) == ws.getD i 0)) then s
    else if x.deadline ≤ s.ts.run then s
    else if x.len ≤ x.pc then s.grantFault p 8 x.pc
    else match f { x with pc := x.pc + ws.length } with
      | .error c => s.grantFault p (if x.len < x.pc + ws.length then min c 8 else c) x.pc
      | .ok y => if x.len < x.pc + ws.length then s.grantFault p 8 x.pc else (s.setTree p { s.tree p with pitch := some { y with count := y.count + 1 } }).count 3 2 p

/-! ### Fencing and takeover (R168 to R172) -/

/-- The spare is e from now on, 0x1F for none; its self-test passes are counted from 0 (GE_ENG_BIST). -/
def State.setSpare (s : State) (e : Nat) : State := (s.wr F.GE_ENG_STATUS_spare e).wr F.GE_ENG_BIST_passes 0

/-- A spare, sp, begins to load quad q (R170). -/
def State.startTakeover (s : State) (q sp : Nat) : State :=
  { s with ge := { s.ge with takeover := s.ge.takeover ++ [(q, sp)], idle := s.ge.idle.filter (· != sp) } }.wr F.GE_ENG_STATUS_takeover 1

/-- The load of quad q is over, or given up. -/
def State.endTakeover (s : State) (q : Nat) : State :=
  let l := s.ge.takeover.filter (fun x => x.1 != q)
  { s with ge := { s.ge with takeover := l } }.wr F.GE_ENG_STATUS_takeover (b2n !l.isEmpty)

/-- A spare that nothing keeps busy: the one that GE_ENG_STATUS shows unless it loads a quad or a rotation has taken it, or another repaired
engine (R172, R173). -/
def State.freeSpare (s : State) : Option Nat :=
  let sp := s.rd F.GE_ENG_STATUS_spare
  if sp != 0x1F && s.ge.rotation.isNone && s.ge.takeover.all (fun x => x.2 != sp) then some sp else s.ge.idle.head?

/-- Some quad has no engine. -/
def State.orphaned (s : State) : Option Nat := (List.range 16).find? (fun q => s.rd F.GE_QUAD_MAP_engine q == 0x1F)

/-- The quad that engine e serves. -/
def State.quadOf (s : State) (e : Nat) : Option Nat := (List.range 16).find? (fun q => s.rd F.GE_QUAD_MAP_engine q == e)

/-- A quad loses its engine with no spare to take it: orphaned, with the no-spare and orphaned-quad events (R172).
(DEDUCED, unsafe: log entry 38.) -/
def State.orphan (s : State) (q e : Nat) : State :=
  let c := s.ge.fenceEv.get none q
  (((s.wr F.GE_QUAD_MAP_engine 0x1F q).wr F.GE_ENG_STATUS_orphaned 1).raiseAfter c 3 e 0x2012 0).raiseNext 3 e 0x2013 q

/-- A quad without an engine that no spare is loading. -/
def State.needy (s : State) : Option Nat :=
  (List.range 16).find? (fun q => s.rd F.GE_QUAD_MAP_engine q == 0x1F && s.ge.takeover.all (fun x => x.1 != q))

/-- A spare that nothing keeps busy takes over an orphaned quad at once (R172). -/
def State.takeOrphan (s : State) : State :=
  match s.needy, s.freeSpare with
  | some q, some sp => s.startTakeover q sp
  | _, _ => s

/-- The spare's duty is free: the engine repaired first takes it, or there is no spare (R172, R173). -/
def State.nextSpare (s : State) : State :=
  ({ s with ge := { s.ge with idle := s.ge.idle.drop 1 } }.setSpare (s.ge.idle.headD 0x1F)).takeOrphan

/-- The pitch of tree p ends unsealed with reason 3 as its engine is fenced (R170), SEAL retired or not: what it has sealed is held back,
its windows are skipped. (DEDUCED, unsafe: log entry 38.) -/
def State.fencePitch (s : State) (p : Nat) (x : Pitch) : State :=
  let m := x.draft.frame
  let drop := fun (s : State) q => s.setPort q { s.port q with maps := (s.port q).maps.set none m none }
  let s := (if x.shared then [p, p + 1] else [p]).foldl drop s
  let t := s.tree p
  let draft := match t.draft with
    | some d => if d.frame = m then none else some d
    | none => none
  let s := s.setTree p { t with pitch := some { x with sealed := false }, draft := draft }
  s.endPitch p 3

/-- Quad q has lost its engine to the fence of e: a spare takes it over, or it is orphaned (R170, R172). -/
def State.quadLost (s : State) (q e : Nat) : State :=
  match s.freeSpare with
  | some sp => s.startTakeover q sp
  | none => s.orphan q e

/-- Engine e has been fenced (R46, R170, R172): its pitches end with reason 3, and a spare takes its quad or the quad is
orphaned. A rotation that involved it is abandoned: the spare has then to load the quad's keep regions as in any takeover. A spare that is
fenced is no spare any more. While a rotation of another quad has taken the spare there is none; the engine that the rotation relieves takes
the quad over as it becomes the spare. (DESIGN CHOICE, unsafe: log entry 123.) -/
def State.engineFenced (s : State) (e : Nat) : State :=
  let cause := s.evu.last
  let s := State.each 64 (fun s p => match (s.tree p).pitch with
    | some x => if x.engine == e then s.fencePitch p x else s
    | none => s) s
  let s := match s.ge.rotation with
    | some (q, old, new) => if e = old || e = new then
        let s := State.each 4 (fun s i => s.setTree (q * 4 + i) { s.tree (q * 4 + i) with moved := false }) s
        { s with ge := { s.ge with rotation := none } }
      else s
    | none => s
  let s := { s with ge := { s.ge with idle := s.ge.idle.filter (· != e) } }
  let load := s.ge.takeover.find? (fun x => x.2 == e)
  let lost := (s.quadOf e).bind (fun q => if s.ge.takeover.any (fun x => x.1 == q) then none else some q)
  let s := match load.map (·.1), lost with
    | some q, _ | none, some q => { s with ge := { s.ge with fenceEv := s.ge.fenceEv.set none q cause } }
    | none, none => s
  let s := if s.rd F.GE_ENG_STATUS_spare = e then
      { s with ge := { s.ge with idle := s.ge.idle.drop 1 } }.setSpare (s.ge.idle.headD 0x1F) else s
  match load, lost with
  | some (q, _), _ => (s.endTakeover q).quadLost q e
  | none, some q => s.quadLost q e
  | none, none => s

/-- A fault of a grant engine with its consequent action (R45, R46). -/
def State.engineFault (s : State) (e : Nat) (hard : Bool) (cause : Nat) : State :=
  let (s', f) := s.faultAt (.engine e) hard cause
  if f then s'.engineFenced e else s'

/-- A load of tree p's pitch from a data-store row that does not read clean. A corrected row counts its fault and the load goes on;
an uncorrectable one is a hard fault of the row and, as its own state is lost, of the engine: the load has no effect, and the
fence ends the pitch (R44, R170, R339, R340). A load that does not retire reads no row. -/
def State.grantLoad (s : State) (p : Port) (ws : List Nat) (mem : Option RowRead) (f : Pitch → Except Nat Pitch) : State :=
  match mem, (s.tree p).pitch with
  | some r, some x =>
    if s.standsAt p ws && (f { x with pc := x.pc + ws.length }).toBool then
      let (t, bad) := s.rowRead 3 r.macroNo.toNat r.row.toNat r.errs
      if s.rowWaits 3 r.macroNo.toNat r.row.toNat then s
      else if bad then t.engineFault x.engine true 15 else t.grant p ws f
    else s.grant p ws f
  | _, _ => s.grant p ws f

/-- The mfs selectors of R210. -/
def mfsLast : Nat := 0x11

/-- A word is illegal under R189: a reserved opcode, a field marked 0 that is not 0, an immediate outside its range,
condition 15, a reserved selector, or gate without feature 4. ext is the word after it. -/
def State.illegalWord (s : State) (w ext : Nat) : Bool :=
  let op := bits w 17 12
  let d := bits w 11 8
  let a := bits w 7 4
  let b := bits w 3 0
  match op with
  | 0x00 | 0x3E | 0x3F => true
  | 0x01 | 0x36 | 0x37 | 0x3C => d != 0 || a != 0 || b != 0
  | 0x11 | 0x35 => d != 0
  | 0x16 | 0x17 | 0x18 | 0x19 | 0x20 | 0x21 => b != 0
  | 0x1A => a != 0 || b != 0
  | 0x1B => d != 0 || b != 0
  | 0x1E | 0x1F => b != 0
  | 0x2E => d == 0 || d > 12 || a != 0 || b != 0
  | 0x2F => b > 1
  | 0x31 => !s.feat 4
  | 0x32 => d != 0 || b > 2
  | 0x33 => d == 0 || d > 12 || a != 0 || b > 3
  | 0x34 => d != 0 || b > 3
  | 0x38 => bits w 7 0 > mfsLast
  | 0x39 => d == 15
  | 0x3A => d == 15 || a != 0 || b != 0 || ext / 2 ^ 14 != 0
  | 0x3B => d != 0 || a != 0 || b != 0 || ext / 2 ^ 14 != 0
  | 0x3D => d != 0 || b != 0
  | _ => false

end Sys2Proof.Machine
end

