-- ==== Sys2Proof/Machine/GrantIsa.lean ====
section
/-! DEFINITION. The grant instruction set (R194 to R210), one meaning per instruction. p is the tree whose open pitch
retires the instruction. -/

namespace Sys2Proof.Machine

/-! ### Arithmetic, logic and shifts -/

def execGrantNop (p : Port) (s : State) : Res := act s fun s => s.grant p (gR 0x01 0 0 0) .ok

/-- A register instruction whose result and flags an ALU function gives. -/
def State.grantAlu (s : State) (p : Port) (op : Nat) (d a b : G4) (f : Pitch → Nat → Nat → Alu) : State :=
  s.grant p (gR op d a b) fun x => .ok (x.alu d (f x (x.g a) (x.g b)))

/-- The same with the extension word as its second operand. -/
def State.grantImm (s : State) (p : Port) (op : Nat) (d a : G4) (imm : GWord) (f : Nat → Nat → Alu) : State :=
  s.grant p (gX op d a imm) fun x => .ok (x.alu d (f (x.g a) imm.toNat))

def execGrantAdd (p : Port) (d a b : G4) (s : State) : Res :=
  act s (·.grantAlu p 0x02 d a b fun _ u v => aluAdd 18 u v false)
def execGrantSub (p : Port) (d a b : G4) (s : State) : Res :=
  act s (·.grantAlu p 0x03 d a b fun _ u v => aluSub 18 u v true)
def execGrantAdc (p : Port) (d a b : G4) (s : State) : Res :=
  act s (·.grantAlu p 0x04 d a b fun x u v => aluAdd 18 u v x.c)
def execGrantSbc (p : Port) (d a b : G4) (s : State) : Res :=
  act s (·.grantAlu p 0x05 d a b fun x u v => aluSub 18 u v x.c)
def execGrantAnd (p : Port) (d a b : G4) (s : State) : Res :=
  act s (·.grantAlu p 0x06 d a b fun _ u v => ⟨u &&& v, none, none⟩)
def execGrantOr (p : Port) (d a b : G4) (s : State) : Res :=
  act s (·.grantAlu p 0x07 d a b fun _ u v => ⟨u ||| v, none, none⟩)
def execGrantXor (p : Port) (d a b : G4) (s : State) : Res :=
  act s (·.grantAlu p 0x08 d a b fun _ u v => ⟨u ^^^ v, none, none⟩)
def execGrantShl (p : Port) (d a b : G4) (s : State) : Res :=
  act s (·.grantAlu p 0x09 d a b fun _ u v => aluShl 18 u (v % 32))
def execGrantShr (p : Port) (d a b : G4) (s : State) : Res :=
  act s (·.grantAlu p 0x0A d a b fun _ u v => aluShr u (v % 32))
def execGrantSra (p : Port) (d a b : G4) (s : State) : Res :=
  act s (·.grantAlu p 0x0B d a b fun _ u v => aluSra 18 u (v % 32))
def execGrantMul (p : Port) (d a b : G4) (s : State) : Res :=
  act s (·.grantAlu p 0x0C d a b fun _ u v => ⟨u * v % 2 ^ 18, none, none⟩)
def execGrantMulh (p : Port) (d a b : G4) (s : State) : Res :=
  act s (·.grantAlu p 0x0D d a b fun _ u v => ⟨u * v / 2 ^ 18, none, none⟩)
def execGrantDivu (p : Port) (d a b : G4) (s : State) : Res :=
  act s (·.grantAlu p 0x0E d a b fun _ u v =>
    if v = 0 then ⟨0x3FFFF, none, some true⟩ else ⟨u / v, none, some false⟩)
def execGrantMinu (p : Port) (d a b : G4) (s : State) : Res :=
  act s (·.grantAlu p 0x0F d a b fun _ u v => ⟨min u v, none, none⟩)
def execGrantMaxu (p : Port) (d a b : G4) (s : State) : Res :=
  act s (·.grantAlu p 0x10 d a b fun _ u v => ⟨max u v, none, none⟩)
def execGrantCmp (p : Port) (a b : G4) (s : State) : Res :=
  act s (·.grantAlu p 0x11 0 a b fun _ u v => aluSub 18 u v true)
def execGrantShlq (p : Port) (d a n : G4) (s : State) : Res :=
  act s (·.grant p (gR 0x12 d a n) fun x => .ok (x.alu d (aluShl 18 (x.g a) n.toNat)))
def execGrantShrq (p : Port) (d a n : G4) (s : State) : Res :=
  act s (·.grant p (gR 0x13 d a n) fun x => .ok (x.alu d (aluShr (x.g a) n.toNat)))
def execGrantSraq (p : Port) (d a n : G4) (s : State) : Res :=
  act s (·.grant p (gR 0x14 d a n) fun x => .ok (x.alu d (aluSra 18 (x.g a) n.toNat)))
def execGrantAddq (p : Port) (d a k : G4) (s : State) : Res :=
  act s (·.grant p (gR 0x15 d a k) fun x => .ok (x.alu d (aluAdd 18 (x.g a) (sext4 k) false)))
def execGrantAddi (p : Port) (d a : G4) (imm : GWord) (s : State) : Res :=
  act s (·.grantImm p 0x16 d a imm fun u v => aluAdd 18 u v false)
def execGrantAndi (p : Port) (d a : G4) (imm : GWord) (s : State) : Res :=
  act s (·.grantImm p 0x17 d a imm fun u v => ⟨u &&& v, none, none⟩)
def execGrantOri (p : Port) (d a : G4) (imm : GWord) (s : State) : Res :=
  act s (·.grantImm p 0x18 d a imm fun u v => ⟨u ||| v, none, none⟩)
def execGrantXori (p : Port) (d a : G4) (imm : GWord) (s : State) : Res :=
  act s (·.grantImm p 0x19 d a imm fun u v => ⟨u ^^^ v, none, none⟩)
def execGrantLdi (p : Port) (d : G4) (imm : GWord) (s : State) : Res :=
  act s (·.grantImm p 0x1A d 0 imm fun _ v => ⟨v, none, none⟩)
def execGrantCmpi (p : Port) (a : G4) (imm : GWord) (s : State) : Res :=
  act s (·.grantImm p 0x1B 0 a imm fun u v => aluSub 18 u v true)

/-! ### Time arithmetic (R209) -/

/-- QPF of the pitch's tree, as its mfs reads it. -/
def Pitch.qpf (x : Pitch) : Nat := x.mfs.getD 2 0

def execGrantQadd (p : Port) (d a b : G4) (s : State) : Res :=
  act s (·.grantAlu p 0x1C d a b fun x u v =>
    let t := u + v
    let w := if x.qpf ≤ t then t - x.qpf else t
    ⟨w % 2 ^ 18, some (decide (x.qpf ≤ t)), some (decide (x.qpf ≤ w))⟩)
def execGrantQsub (p : Port) (d a b : G4) (s : State) : Res :=
  act s (·.grantAlu p 0x1D d a b fun x u v =>
    let t : Int := (u : Int) - v
    let w : Int := if t < 0 then t + x.qpf else t
    ⟨wrapTo 18 w, some (decide (t < 0)), some (decide (w < 0) || decide ((x.qpf : Int) ≤ w))⟩)
def execGrantNsq (p : Port) (d a : G4) (s : State) : Res :=
  act s (·.grantAlu p 0x1E d a 0 fun x u _ => ⟨u * x.qpf / 125000, none, none⟩)
def execGrantQns (p : Port) (d a : G4) (s : State) : Res :=
  act s (·.grantAlu p 0x1F d a 0 fun x u _ =>
    let t := u * 125000 / x.qpf
    if 0x3FFFF < t then ⟨0x3FFFF, none, some true⟩ else ⟨t, none, some false⟩)

/-! ### Data store -/

def execGrantLd (p : Port) (d a : G4) (imm : GWord) (mem : Option RowRead) (s : State) : Res :=
  act s fun s => s.grantLoad p (gX 0x20 d a imm) mem fun x => do
    let i ← dsAddr (x.g a + imm.toNat)
    return x.put d (x.dsRead i)
def execGrantSt (p : Port) (d a : G4) (imm : GWord) (s : State) : Res :=
  act s fun s => s.grant p (gX 0x21 d a imm) fun x => do
    let i ← dsAddr (x.g a + imm.toNat)
    return x.store i (x.g d)
def execGrantLdx (p : Port) (d a b : G4) (mem : Option RowRead) (s : State) : Res :=
  act s fun s => s.grantLoad p (gR 0x22 d a b) mem fun x => do
    let i ← dsAddr (x.g a + x.g b)
    return x.put d (x.dsRead i)
def execGrantStx (p : Port) (d a b : G4) (s : State) : Res :=
  act s fun s => s.grant p (gR 0x23 d a b) fun x => do
    let i ← dsAddr (x.g a + x.g b)
    return x.store i (x.g d)

/-! ### Shared tables (R196 to R199) -/

/-- A read of word w of a row: fault 3 before fault 4, the lower code (R211). hiBits are the bits of the row index that
must be 0. -/
def tableRead (idx hi : Nat) (o : RowOf) (wOk : Bool) (v : Nat) : Except Nat Nat :=
  if hi ≤ idx then .error 3
  else match o with
    | .other => .error 3
    | .none => if wOk then .ok 0 else .error 4
    | .tree => if wOk then .ok v else .error 4

def execGrantTrm (p : Port) (d a w : G4) (s : State) : Res :=
  act s fun s => s.grant p (gR 0x24 d a w) fun x => do
    let t := x.g a
    let v ← tableRead t 16384 (x.termRowOf (t % 16384)) (w.toNat ≤ 3)
      (termWord (x.ctxs.get {} t) (x.pstates.get 0 t) (x.lobis.contains t) w.toNat)
    return x.put d v
def execGrantAlc (p : Port) (d a w : G4) (s : State) : Res :=
  act s fun s => s.grant p (gR 0x25 d a w) fun x => do
    let i := x.g a
    let v ← tableRead i 65536 (x.allocRowOf (i % 65536)) (w.toNat ≤ 7)
      (allocWord (s.feat 5) (x.allocs.get {} i) w.toNat)
    return x.put d v
def execGrantRpt (p : Port) (d a w : G4) (s : State) : Res :=
  act s fun s => s.grant p (gR 0x26 d a w) fun x => do
    let i := x.g a
    let v ← tableRead i 65536 (x.allocRowOf (i % 65536)) (w.toNat ≤ 1)
      (reportWord (x.allocs.get {} i) w.toNat)
    return x.put d v
def execGrantHst (p : Port) (d a k : G4) (s : State) : Res :=
  act s fun s => s.grant p (gR 0x27 d a k) fun x => do
    let i := x.g a
    let v ← tableRead i 65536 (x.allocRowOf (i % 65536)) true
      (if s.feat 5 then histWord (x.allocs.get {} i) k.toNat else 0)
    return x.put d v

/-- A reduction over history words 0 to n of a row. -/
def State.grantHist (s : State) (p : Port) (op : Nat) (d a n : G4) (f : List (Nat × Nat) → Nat) : State :=
  s.grant p (gR op d a n) fun x => do
    let i := x.g a
    let v ← tableRead i 65536 (x.allocRowOf (i % 65536)) true
      (if s.feat 5 then f ((x.allocs.get {} i).hist.take (n.toNat + 1)) else 0)
    return x.alu d ⟨v, none, none⟩

def execGrantHsum (p : Port) (d a n : G4) (s : State) : Res :=
  act s (·.grantHist p 0x28 d a n fun l => (l.map (·.2)).sum)
def execGrantHpeak (p : Port) (d a n : G4) (s : State) : Res :=
  act s (·.grantHist p 0x29 d a n fun l => (l.map (·.2)).foldl max 0)
def execGrantHrsum (p : Port) (d a n : G4) (s : State) : Res :=
  act s (·.grantHist p 0x2A d a n fun l => (l.map (·.1)).sum)

/-- A buffered write (R197, R198): fault 3, 4 or 5, the lowest first. -/
def Pitch.buffer (x : Pitch) (o : RowOf) (inRange wOk : Bool) (w : BufWrite) : Except Nat Pitch :=
  if o != .tree || !inRange then .error 3
  else if !wOk then .error 4
  else if x.wbuf.length ≥ 1024 then .error 5
  else .ok { x with wbuf := x.wbuf ++ [w] }

def execGrantTwt (p : Port) (d a w : G4) (s : State) : Res :=
  act s fun s => s.grant p (gR 0x2B d a w) fun x =>
    let t := x.g a
    x.buffer (x.termRowOf t) (t < 16384) (w.toNat == 2 || w.toNat == 3)
      ⟨false, t, w.toNat, x.g d, (x.ctxs.get {} t).frees⟩
def execGrantAwt (p : Port) (d a w : G4) (s : State) : Res :=
  act s fun s => s.grant p (gR 0x2C d a w) fun x =>
    let i := x.g a
    x.buffer (x.allocRowOf i) (i < 65536) (w.toNat == 6 || w.toNat == 7)
      ⟨true, i, w.toNat, x.g d, (x.allocs.get {} i).frees⟩

/-! ### Sweeping (R180, R200) -/

/-- The tree's sweep list at the opening: allocation contexts whose owner is on the tree, rising. -/
def Pitch.sweepList (x : Pitch) : List Nat :=
  (x.allocs.map (·.1)).filter (fun a => x.allocRowOf a == .tree)

/-- A row that the filter passes over (R200). -/
def Pitch.filtered (x : Pitch) (a mode plim : Nat) : Bool :=
  let al := x.allocs.get {} a
  let st := (x.ctxs.get {} al.term).st
  (bit mode 0 && al.occ == 0) || (bit mode 1 && st != .operating && st != .lost)
    || (bit mode 2 && bits (al.words.getD 3 0) 13 11 > plim) || (bit mode 3 && al.age != 0)

def execGrantSweep (p : Port) (d a m : G4) (s : State) : Res :=
  act s fun s => s.grant p (gR 0x2D d a m) fun x =>
    .ok ({ x with sweep := some (m.toNat, x.g a % 8, 0) }.put d x.sweepList.length)

def execGrantNext (p : Port) (d : G4) (s : State) : Res :=
  act s fun s => s.grant p (gR 0x2E d 0 0) fun x =>
    let n := d.toNat
    if n = 0 || 12 < n then .error 1
    else match x.sweep with
      | none => .error 10
      | some (mode, plim, cur) =>
        let rest := x.sweepList.drop cur
        let passed := rest.takeWhile (fun a => x.filtered a mode plim)
        match rest.drop passed.length with
        | [] => .ok { ((((x.putN n 0x3FFFF).putN (n + 1) 0).putN (n + 2) 0).putN (n + 3) 0) with
            sweep := some (mode, plim, cur + passed.length), z := true }
        | a :: _ =>
          let al := x.allocs.get {} a
          .ok { ((((x.putN n a).putN (n + 1) (reportWord al 0)).putN (n + 2) (reportWord al 1)).putN (n + 3)
              (allocWord (s.feat 5) al 1)) with
            sweep := some (mode, plim, cur + passed.length + 1), z := false }

/-! ### Building the map (R201 to R207) -/

/-- OVH (R205). A terminal from 16,384 on is taken modulo 16,384. (DESIGN CHOICE, unsafe: log entry 124.) -/
def execGrantOvh (p : Port) (d a m : G4) (s : State) : Res :=
  act s fun s => s.grant p (gR 0x2F d a m) fun x =>
    if 1 < m.toNat then .error 1
    else
      let t := x.g a % 16384
      let recalled := x.draft.recalls.any (fun r => r.1 == t && r.2 == 1)
      let short := m.toNat = 0 && !recalled && x.pstates.get 0 t == 2 && s.feat 2
      let q := (x.ctxs.get {} t).port
      let q := if x.shared && x.ports.contains q then q else p
      .ok (x.put d (s.overheadOn p q short))

/-- Structures written to a port map so far: the even port's, or the odd port's (R210). -/
def Draft.count (m : Draft) (odd : Bool) : Nat := (m.structs.filter (fun e => e.2.2.2.2.2 == odd)).length

/-- Structures and windows that count toward the 1,024 of a port map (R202): the even port's, or the odd port's. -/
def Draft.filled (m : Draft) (odd : Bool) : Nat :=
  m.count odd + (m.wins.filter (fun w => decide (2 ≤ w.1) == odd)).length

/-- emit and gate (R201, R203). -/
def State.place (s : State) (p : Port) (op : Nat) (gated : Bool) (d a b : G4) : State :=
  s.grant p (gR op d a b) fun x =>
    let w := x.g d
    let c := w % 65536
    let o := x.allocRowOf c
    match lowest ((if gated && !s.feat 4 then [1] else []) ++ (if o == .other then [3] else [])
        ++ (if x.sealed then [6] else [])) with
    | some f => .error f
    | none =>
      let odd := o == .tree && x.shared && (x.ctxs.get {} (x.allocs.get {} c).term).port != p.val
      if x.g b = 0 then .ok { x with z := true, v := false }
      else if x.draft.filled odd ≥ 1024 then .ok { x with v := true, z := false }
      else .ok { x with
        draft := { x.draft with structs := x.draft.structs ++ [(c, x.g a, x.g b, w / 65536, gated, odd)] },
        z := false, v := false }

def execGrantEmit (p : Port) (d a b : G4) (s : State) : Res := act s (·.place p 0x30 false d a b)
def execGrantGate (p : Port) (d a b : G4) (s : State) : Res := act s (·.place p 0x31 true d a b)

/-- RECALL (R204). A terminal from 16,384 on is taken modulo 16,384. (DESIGN CHOICE, unsafe: log entry 124.) -/
def execGrantRecall (p : Port) (a m : G4) (s : State) : Res :=
  act s fun s => s.grant p (gR 0x32 0 a m) fun x =>
    if 2 < m.toNat then .error 1
    else if x.sealed then .error 6
    else
      let t := x.g a % 16384
      .ok { x with draft := { x.draft with
        recalls := x.draft.recalls.filter (fun r => r.1 != t) ++ [(t, m.toNat)] } }

def execGrantDdesc (p : Port) (d i : G4) (s : State) : Res :=
  act s fun s => s.grant p (gR 0x33 d 0 i) fun x =>
    let n := d.toNat
    if n = 0 || 12 < n || 3 < i.toNat then .error 1
    else
      let e := x.draft.descs.getD i.toNat {}
      .ok { (((x.putN n e.kind).putN (n + 1) e.span).putN (n + 2) e.off).putN (n + 3) e.width with
        z := e.kind == 0 }

def execGrantWin (p : Port) (a i : G4) (s : State) : Res :=
  act s fun s => s.grant p (gR 0x34 0 a i) fun x =>
    if 3 < i.toNat then .error 1
    else if x.sealed then .error 6
    else if (x.draft.descs.getD i.toNat {}).kind = 0 then .ok { x with z := true }
    else .ok { x with z := false, draft := { x.draft with
      wins := x.draft.wins.filter (fun w => w.1 != i.toNat) ++ [(i.toNat, x.g a)] } }

def execGrantCal (p : Port) (a b : G4) (s : State) : Res :=
  act s fun s => s.grant p (gR 0x35 0 a b) fun x =>
    if x.sealed then .error 6
    else if x.draft.cals.length ≥ 4 then .ok { x with v := true }
    else .ok { x with v := false, draft := { x.draft with cals := x.draft.cals ++ [(x.g a, x.g b)] } }

/-! ### seal, yield, mfs, control -/

/-- A span of the run count in whole units of 10 ns (R155, R210). -/
def tens (n : Nat) : Nat := n / (10 * 2 ^ 40)

/-- The draft of a sealed pitch goes to the map builder, and GE_TREE_BUDGET takes its figures (R208). -/
def State.handOver (s : State) (p : Nat) : State :=
  match (s.tree p).pitch with
  | none => s
  | some x =>
    ((s.setTree p { s.tree p with draft := some x.draft }).wr F.GE_TREE_BUDGET_instr (sat 0xFFFF x.count) p).wr
      F.GE_TREE_BUDGET_seal_t (sat 0xFFFF (tens (s.ts.run - x.opened))) p |>.count 3 1 p

def execGrantSeal (p : Port) (s : State) : Res :=
  act s fun s =>
    let first := s.standsAt p (gR 0x36 0 0 0) && !s.pitchSealed p
    (s.grant p (gR 0x36 0 0 0) fun x => if x.sealed then .error 6 else .ok { x with sealed := true }).when first
      (·.handOver p)

/-- yield: fault 7 before SEAL, else the pitch ends (R208). -/
def execGrantYield (p : Port) (s : State) : Res :=
  act s fun s =>
    let done := s.standsAt p (gR 0x37 0 0 0) && s.pitchSealed p
    (s.grant p (gR 0x37 0 0 0) fun x => if x.sealed then .ok x else .error 7).when done (·.endPitch p 0)

def execGrantMfs (p : Port) (d : G4) (sel : BitVec 8) (s : State) : Res :=
  act s fun s => s.grant p (gS 0x38 d sel) fun x =>
    if mfsLast < sel.toNat then .error 1
    else .ok (x.put d (match sel.toNat with
      | 0x08 => sat 0x3FFFF (tens (x.deadline - s.ts.run))
      | 0x0A => x.draft.count false
      | 0x0B => x.draft.count true
      | n => x.mfs.getD n 0))

def execGrantBrs (p : Port) (c : G4) (off : BitVec 8) (s : State) : Res :=
  act s (·.grant p (gB 0x39 c off) fun x =>
    match x.cond c with
    | none => .error 1
    | some false => .ok x
    | some true =>
      let t : Int := x.pc + signed 8 off.toNat
      if t < 0 then .error 8 else x.goto t.toNat)

def execGrantBr (p : Port) (c : G4) (target : BitVec 14) (s : State) : Res :=
  act s (·.grant p (gL 0x3A c target) fun x =>
    match x.cond c with
    | none => .error 1
    | some false => .ok x
    | some true => x.goto target.toNat)

def execGrantCall (p : Port) (target : BitVec 14) (s : State) : Res :=
  act s (·.grant p (gL 0x3B 0 target) fun x =>
    match lowest ((if x.len ≤ target.toNat then [8] else []) ++ (if x.stack.length ≥ 16 then [9] else [])) with
    | some f => .error f
    | none => .ok { x with stack := x.pc :: x.stack, pc := target.toNat })

def execGrantRet (p : Port) (s : State) : Res :=
  act s (·.grant p (gR 0x3C 0 0 0) fun x =>
    match x.stack with
    | [] => .error 9
    | t :: r => ({ x with stack := r } : Pitch).goto t)

def execGrantJr (p : Port) (a : G4) (s : State) : Res :=
  act s (·.grant p (gR 0x3D 0 a 0) fun x => if x.g a / 2 ^ 14 != 0 then .error 8 else x.goto (x.g a))

/-- A word that R189 makes illegal faults with code 1; a pc, or an extension word, at or beyond the image length faults
with code 8 (R188). Codes that apply together report the lowest. Once the deadline has fallen nothing faults (R193, R212). -/
def execGrantIllegalInstruction (p : Port) (s : State) : Res :=
  act s fun s => match (s.tree p).pitch with
    | none => s
    | some x =>
      if x.deadline ≤ s.ts.run then s
      else if x.len ≤ x.pc then s.grantFault p 8 x.pc
      else if s.illegalWord (s.imageWord x.bank x.pc) (s.imageWord x.bank (x.pc + 1)) then s.grantFault p 1 x.pc
      else s

end Sys2Proof.Machine
end

