-- ==== Sys2Proof/Machine/MapPipe.lean ====
section
/-! DEFINITION. The map pipeline (R129 to R136, R154 to R166): what a pitch sees at its opening, the opening and the
deadline, and the map builder's seal checks. -/

namespace Sys2Proof.Machine

/-! ### Windows for terminals of unknown distance (R129 to R135) -/

/-- The class span in 0.1 µs (R129). -/
def classSpan (c : Nat) : Nat :=
  match c with
  | 0 => 80 | 1 => 160 | 2 => 320 | 3 => 640 | 4 => 1280 | 5 => 2560 | _ => 4000

/-- sn_q, 0 acting as 1. -/
def State.snQ (s : State) (p : Nat) : Nat := max 1 (s.rd F.GE_DISC_RAND_sn_q (s.treeNo p))

/-- Units of 0.1 µs in quanta of the time line that port p's maps are built on: the even port's for a shared pair (R161, R206). -/
def State.lineQ (s : State) (p n : Nat) : Nat := s.tenthsToQ (s.pitchTree p) n

/-- The quiet budget in quanta, at least sn_q plus 0.1 µs (GE_DISC_CFG). -/
def State.quietQ (s : State) (p : Nat) : Nat :=
  max (s.lineQ p (s.rd F.GE_DISC_CFG_quiet_budget (s.treeNo p))) (s.snQ p + s.lineQ p 1)

/-- The span of RTD in 0.1 µs that the tree declares. -/
def State.spanTenths (s : State) (p : Nat) : Nat := classSpan (s.rd F.GE_DISC_CFG_dist_class (s.treeNo p))

/-- x_max in quanta: the class span, for open discovery with rand_span (R129). -/
def State.xMax (s : State) (p : Nat) (disc : Bool) : Nat :=
  s.lineQ p (s.spanTenths p + if disc then 10 * s.rd F.GE_DISC_RAND_rand_span (s.treeNo p) else 0)

/-- The slices' step (R131). -/
def State.stepQ (s : State) (p : Nat) : Nat := s.quietQ p - s.snQ p

/-- K (R131). -/
def State.slicesOf (s : State) (p : Nat) (disc : Bool) : Nat := max 1 (ceilDiv (s.xMax p disc) (s.stepQ p))

/-- The tree's windows can be used (R130), and none are held back by unexpected light (R138): of the port's own receiver, where the
two ports of a pair have receivers of their own. (DESIGN CHOICE, unsafe: log entry 93.) -/
def State.windowsOk (s : State) (p : Nat) : Bool :=
  decide (s.rd F.GE_DISC_DIST_rtd_min (s.treeNo p) + s.spanTenths p ≤ s.rd F.GE_DISC_DIST_teq (s.treeNo p))
    && !bit (s.rd F.UB_TREE_STATUS_defects p) 2

/-- The tree opens its windows in slices: gated, or staggered (R131). -/
def State.sliced (s : State) (p : Nat) : Bool :=
  s.on F.GE_DISC_STATUS_gated (s.treeNo p) || s.on F.GE_DISC_CFG_stagger (s.treeNo p)

/-- The x in 0.1 µs at which a context with a kept EqD is expected (R130). -/
def State.keptX (s : State) (p : Nat) (k : Int) : Int :=
  let bitsPerTenth : Int := (64 * s.qpf p : Nat)
  s.rd F.GE_DISC_DIST_teq (s.treeNo p) - s.rd F.GE_DISC_DIST_rtd_min (s.treeNo p) - k * 1250 / (16 * bitsPerTenth)

/-- The slices a ranging cycle offers, as offsets in quanta: all K, narrowed by the found list's bounds, and led by one
centred at a kept EqD (R130, R131). -/
def State.rangeOffsets (s : State) (p : Nat) (c : Ctx) : List Nat :=
  let step := s.stepQ p
  let k := s.slicesOf p false
  let all := (List.range k).map (· * step)
  let all := match c.x with
    | some (lo, hi) => all.filter (fun o =>
        decide (s.lineQ p lo < o + step) && decide (o ≤ s.lineQ p hi))
    | none => all
  match c.kept with
  | some e => (s.lineQ p (s.keptX p e).toNat - s.quietQ p / 2) :: all
  | none => all

/-- The open-discovery descriptor of port p (R135, R138). -/
def State.discDesc (s : State) (p : Nat) : Desc :=
  let t := s.actTree p
  let x := s.xMax p true
  if !(t.due && s.on F.GE_DISC_CFG_disc_en (s.treeNo p) && s.windowsOk p) then {}
  else if s.sliced p && s.slicesOf p true > 1 then
    ⟨1, x + s.snQ p, t.slice % s.slicesOf p true * s.stepQ p, s.quietQ p, t.slice % s.slicesOf p true, none⟩
  else ⟨1, x + s.snQ p, 0, x + s.snQ p, 0, none⟩

/-- The ranging descriptor of port p: the next slice of the context in its ranging cycle (R135). -/
def State.rangeDesc (s : State) (p : Nat) : Desc :=
  let t := s.actTree (s.treeNo p)
  match t.ranging with
  | none => {}
  | some i =>
    let c := s.ctx i
    let x := s.xMax p false
    if c.st != .assigned || c.port != p || t.rDone.isSome || !s.windowsOk p then {}
    else if s.sliced p && s.slicesOf p false > 1 then
      match (s.rangeOffsets p c)[t.rSlice]? with
      | some o => ⟨2, x + s.snQ p, o, s.quietQ p, t.rSlice, some i⟩
      | none => {}
    else ⟨2, x + s.snQ p, 0, x + s.snQ p, 0, some i⟩

/-- The four descriptors of R206. -/
def State.allDescs (s : State) (p : Nat) : List Desc :=
  [s.discDesc p, s.rangeDesc p] ++ if s.sharedUs p then [s.discDesc (p + 1), s.rangeDesc (p + 1)] else [{}, {}]

/-- The descriptors in the order in which a gated tree prefers them: ranging before open discovery, the even port before the odd. -/
def descOrder : List Nat := [1, 3, 0, 2]

/-- The descriptors offered to a pitch: on a gated tree at most one slice in a frame (R132). -/
def State.descsOf (s : State) (p : Nat) : List Desc :=
  let l := s.allDescs p
  if !s.on F.GE_DISC_STATUS_gated (s.treeNo p) then l
  else match descOrder.find? (fun i => (l.getD i {}).kind != 0) with
    | some i => (List.range 4).map (fun j => if j = i then l.getD i {} else {})
    | none => l

/-! ### The opening of a pitch (R154, R185, R196, R210) -/

/-- The special registers as the opening reads them (R210). -/
def State.mfsList (s : State) (p : Nat) : List Nat :=
  let st := s.ts.frameStamp / 2 ^ 32
  let odd := s.sharedUs p
  [if s.paired p then evenOf p else p, p % 4, s.qpf p, s.usRate p, (s.ts.frame + 2) % 2 ^ 18, st % 2 ^ 18, st / 2 ^ 18,
   (s.gen .grant).cur, 0, if s.on F.GLB_FEAT_LOCK_lock then s.rd F.GLB_FEAT_ACCEPT_accept else 0, 0, 0,
   (s.tree p).lastReason, s.rd F.GE_TREE_STATUS_consec_holds p, (s.tree p).lastChk,
   b2n (s.paired p) + 2 * b2n odd, if odd then s.usRate (p + 1) else 0, 0]

/-- The time from a pitch's opening to its deadline, 31.25 µs, in 2^-40 ns (R154). -/
def pitchSpan : Nat := 31250 * 2 ^ 40

/-- The reference cycle of the frame at which the pitch of tree p opens: 31.25 µs a position (R154). -/
def pitchCycle (p : Nat) : Nat := p % 4 * 4860

/-- The frame stands in the pitch of tree p, from its offset to the next position's (R154). -/
def State.inPitch (s : State) (p : Nat) : Bool := decide (pitchCycle p ≤ s.ts.phase) && decide (s.ts.phase < pitchCycle p + 4860)

/-- The run count at the offset of the pitch of tree p in this frame (R154). -/
def State.pitchStart (s : State) (p : Nat) : Nat := s.ts.run - (s.ts.phase - pitchCycle p) * s.ts.incr

/-- A clean pitch of tree p for frame target, on engine e (R185). The pstates, LOBi flags, tables, the tree's ports and its keep region are
those of the opening (R196). One that opens late on the spare keeps its deadline (R170). -/
def State.newPitch (s : State) (p e : Nat) (late : Bool) (target pc : Nat) : Pitch :=
  let ts := s.ctxs.map (·.1)
  let ps := ts.map (fun t => (t, (s.pstate t).code))
  let x : Pitch := {
    engine := e, late := late, gen := (s.gen .grant).cur, bank := s.ge.cur, len := s.ge.len,
    regs := List.replicate 16 0, pc := pc, scratch := s.fresh,
    draft := { frame := target, descs := s.descsOf p, short := (ps.filter (·.2 == 2)).map (·.1) },
    allocs := s.allocs, ctxs := s.ctxs, pstates := ps.filter (·.2 != 0),
    lobis := ts.filter (fun t => bit (s.trx t).defects 0), mfs := s.mfsList p, ports := s.treePorts p, keep := s.keepOf p,
    opened := if late then s.ts.run else s.pitchStart p
    deadline := (if late then (s.tree p).waitFrom else s.pitchStart p) + pitchSpan }
  { x with mfs := x.mfs.set 0x11 x.sweepList.length }

/-- The engine that serves a port: in a rotation, the new one once the tree has moved (R169). -/
def State.engineOf (s : State) (p : Nat) : Nat :=
  match s.ge.rotation with
  | some (q, _, new) => if q = p / 4 && (s.tree p).moved then new else s.rd F.GE_QUAD_MAP_engine (p / 4)
  | none => s.rd F.GE_QUAD_MAP_engine (p / 4)

/-- The pitch opens now: from the tree's entry, or as a program fault where the entry is absent (R177, code 11). -/
def State.openNow (s : State) (p : Nat) (late : Bool) (target : Nat) : State :=
  let e := s.ge.entries.get 0 p
  let pc := s.imageWord s.ge.cur e
  let x := s.newPitch p (s.engineOf p) late target (pc % 2 ^ 14)
  let s := (s.setTree p { s.tree p with pitch := some x, waits := false }).tickFresh
  if e ≥ s.ge.len || pc = 0 then s.grantFault p 11 0 else s

/-- A rotation is over when all four trees of its quad have moved (R169); the engine relieved takes over an orphaned quad (R172). -/
def State.rotationDone (s : State) : State :=
  match s.ge.rotation with
  | none => s
  | some (q, old, new) =>
    if (List.range 4).all (fun i => (s.tree (q * 4 + i)).moved) then
      let s := State.each 4 (fun s i => s.setTree (q * 4 + i) { s.tree (q * 4 + i) with moved := false }) s
      ((({ s with ge := { s.ge with rotation := none } }.wr F.GE_QUAD_MAP_engine new q).setSpare old).raise 3 old 0x2011
        (q * 2 ^ 16 + old)).takeOrphan
    else s

/-- At its own pitch boundary a tree of the rotating quad moves to the new engine (R169). -/
def State.rotateTree (s : State) (p : Nat) : State :=
  match s.ge.rotation with
  | some (q, _, _) => if q = p / 4 && (s.tree p).pitch.isNone
      then (s.setTree p { s.tree p with moved := true }) else s
  | none => s

/-- No pitch opens: the device is not running, stands by, or yields from this frame on
(R154, R182, R393); the odd port of a shared pair has no pitch of its own (R161). -/
def State.noPitch (s : State) (p : Nat) : Bool :=
  !s.live || s.isStandby || !s.ts.started || (s.sharedUs p && p % 2 == 1)
    || (match s.pr.yieldAt with
        | some (m, _) => decide (m ≤ s.ts.frame)
        | none => false)

/-- PITCH_OPEN. The opening of a tree's pitch in frame n, for frame n + 2, at its offset (R154); due for it even when its quad has no engine
(R164, R172), and kept waiting while the spare loads the quad (R170). A notice that comes within the tree's position counts from its
offset; one that comes at another time does nothing. -/
def execPitchOpen (p : Port) (s : State) : Res :=
  act s fun s => if !s.inPitch p then s else
    let s := s.rotateTree p
    let target := (s.ts.frame + 2) % 2 ^ 32
    let t := s.tree p
    let s := if s.noPitch p || !s.on F.GE_TREE_CFG_gp_en p || t.pitch.isSome || (t.due.get none target).isSome then s
      else
        let e := s.engineOf p
        let loading := s.ge.takeover.any (fun x => x.1 == p.val / 4)
        let s := s.setTree p { t with due := t.due.set none target (some 0) }
        if loading then
          s.setTree p { s.tree p with waits := true, waitFrom := s.pitchStart p, due := t.due.set none target (some 3) }
        else if e = 0x1F then
          ((s.setTree p { s.tree p with due := t.due.set none target (some 4) }).pitchReason p 4).skipOffered p (s.descsOf p)
        else s.openNow p false target
    s.rotationDone

/-- The pitch that waits for the spare is lost (R165, R170). -/
def State.waitLost (s : State) (p : Nat) : State :=
  ((s.setTree p { s.tree p with waits := false }).pitchReason p 3).skipOffered p (s.descsOf p)

/-- PITCH_DEADLINE. The deadline, 31.25 µs after the opening, ends the open pitch (R154, R163, R166): a sealed one commits and counts a
late yield; an unsealed one is an overrun, or reason 3 where it opened late on the spare. A pitch still waiting for the spare is
lost with reason 3, its windows skipped (R165). -/
def execPitchDeadline (p : Port) (s : State) : Res :=
  act s fun s =>
    let t := s.tree p
    if t.waits then
      if s.ts.run < t.waitFrom + pitchSpan then s else s.waitLost p
    else match t.pitch with
      | none => s
      | some x =>
        if s.ts.run < x.deadline then s
        else if x.sealed then (s.bump F.GE_TREE_STATUS_late_yields 1 p).endPitch p 0
        else s.endPitch p (if x.late then 3 else 1)

/-! ### The map builder (R83, R160, R161) -/

/-- A structure as the checks see it, on the tree's quantum line. -/
structure Cand where
  alloc : Nat
  owner : Nat
  port : Nat
  start : Nat
  stop : Nat
  ovh : Nat
  gated : Bool
  flags : Nat
  short : Bool
  units : Nat × Nat
deriving DecidableEq, Repr

/-- An odd-port structure of the even port's quantum line in bits at its own port's rate, outward to whole units of its port's
standard (R161). -/
def State.oddBits (s : State) (p start stop : Nat) : Nat × Nat :=
  let u := max 1 (Config.mapUnit true)
  (start * 64 * s.qpf (p + 1) / s.qpf p / u * u, ceilDiv (ceilDiv (stop * 64 * s.qpf (p + 1)) (s.qpf p)) u * u)

/-- The same on the even port's quantum line (R161). -/
def State.oddRound (s : State) (p start stop : Nat) : Nat × Nat :=
  let b := s.oddBits p start stop
  (b.1 * s.qpf p / (64 * s.qpf (p + 1)), ceilDiv (b.2 * s.qpf p) (64 * s.qpf (p + 1)))

/-- Where a structure starts and stops in the units of its port's standard (R201). -/
def State.unitsOf (s : State) (p start stop : Nat) (odd : Bool) : Nat × Nat :=
  let b := if odd then s.oddBits p start stop else (start * 64, stop * 64)
  let u := max 1 (Config.mapUnit (odd || s.on F.TP_CTRL_ds_mode p))
  (b.1 / u, b.2 / u)

/-- A written structure with its owner, overhead and profile (R83, R84, R204). -/
def State.cand (s : State) (p : Nat) (m : Draft) (e : Nat × Nat × Nat × Nat × Bool × Bool) : Cand :=
  let (a, st, len, fl, g, odd) := e
  let t := (s.alloc a).term
  let q := if odd then p + 1 else p
  let short := s.profile m.recalls m.short t
  let (lo, hi) := if odd then s.oddRound p st (st + len) else (st, st + len)
  ⟨a, t, q, lo, hi, s.overheadOn p q short, g, fl, short, s.unitsOf p st (st + len) odd⟩

/-- The accepted structure that ends last before position n. -/
def before (l : List Cand) (n : Nat) : Option Cand :=
  l.foldl (fun m c => if c.stop ≤ n then (match m with
    | some b => if b.stop < c.stop then some c else m
    | none => some c) else m) none

/-- Checks 1 to 4 of R160 for a structure against those accepted: inside the frame, owner able to transmit, clear of
every accepted structure, its overhead clear of the burst before it, and, written by EMIT, clear of the overhead of every
gated grant after it. (DEDUCED, unsafe: log entry 39.) -/
def State.sealOk (s : State) (p : Nat) (acc : List Cand) (c : Cand) : Bool :=
  let st := (s.ctx c.owner).st
  decide (c.stop ≤ s.qpf p) && (s.alloc c.alloc).valid && (st == .operating || st == .lost)
    && acc.all (fun b => decide (b.stop ≤ c.start) || decide (c.stop ≤ b.start))
    && (match before acc c.start with
        | some b => (b.owner == c.owner && b.stop == c.start) || decide (b.stop + c.ovh ≤ c.start)
        | none => true)
    && (c.gated || acc.all (fun b => !b.gated || decide (b.start < c.stop)
          || (b.owner == c.owner && b.start == c.stop) || decide (c.stop + b.ovh ≤ b.start)))

/-- A structure put before the first that starts after it. -/
def insertCand (c : Cand) : List Cand → List Cand
  | [] => [c]
  | b :: t => if c.start < b.start then c :: b :: t else b :: insertCand c t

/-- Structures in the order of their first data quantum. -/
def sortCands (l : List Cand) : List Cand := l.foldl (fun t c => insertCand c t) []

/-- The structures that the checks keep: gated grants first, among themselves (R160). -/
def State.sealKeep (s : State) (p : Nat) (l : List Cand) : List Cand :=
  let f := fun acc c => if s.sealOk p acc c then acc ++ [c] else acc
  let g := (sortCands (l.filter (·.gated))).foldl f []
  sortCands ((sortCands (l.filter (fun c => !c.gated))).foldl f g)

/-- The first quantum of a structure with what precedes it: its burst's overhead, none where it follows on directly from a structure of
its terminal (R160). -/
def Cand.from_ (acc : List Cand) (c : Cand) : Nat :=
  if acc.any (fun b => b.owner == c.owner && b.stop == c.start) then c.start else c.start - c.ovh

/-- A placed window passes the check of R136: its quiet slice holds no allocation, the rest of its arrival range only
shadow-eligible ones that are not gated (R133); in a map with a gated grant it is no wider than quiet_budget (R132, R203). -/
def State.windowOk (s : State) (p : Nat) (acc : List Cand) (d : Desc) (at_ : Nat) : Bool :=
  acc.all (fun c =>
    let lo := c.from_ acc
    (decide (c.stop ≤ at_ + d.off) || decide (at_ + d.off + d.width ≤ lo))
    && (decide (c.stop ≤ at_) || decide (at_ + d.span ≤ lo) || ((s.alloc c.alloc).shadowOk && !c.gated)))
  && (!acc.any (·.gated) || decide (d.width ≤ s.quietQ p))

/-- The structures of the even or of the odd port's map. -/
def portCands (p : Nat) (acc : List Cand) (odd : Bool) : List Cand := acc.filter (fun c => c.port == (if odd then p + 1 else p))

/-- The windows (descriptor, position) that the maps of a tree's draft keep: those that pass, one alone in a map with a gated grant
(R132, R203), and no more than each port's map has room for beside its structures (R202). -/
def State.keptWins (s : State) (p : Nat) (m : Draft) (acc : List Cand) : List (Nat × Nat) :=
  let placed := descOrder.filterMap (fun i => m.wins.find? (fun w => w.1 == i))
  placed.foldl (fun l w =>
    let odd := decide (2 ≤ w.1)
    let n := (portCands p acc odd).length + (l.filter (fun v => decide (2 ≤ v.1) == odd)).length
    if s.windowOk p acc (m.descs.getD w.1 {}) w.2 && decide (n < 1024) && (!acc.any (·.gated) || l.isEmpty) then l ++ [w] else l) []

/-- The window slice that the map of a frame keeps ends the run of skips; open discovery moves to its next slice, ranging to its
next; where its last one ends is noted (R136, R138, R141). -/
def State.keepSlice (s : State) (p frame : Nat) (d : Desc) (w : MapWin) : State :=
  let n := s.treeNo p
  let s := s.setActTree n { s.actTree n with skipRun := 0 }
  if d.kind = 1 then
    let t := s.actTree p
    s.setActTree p { t with due := false, slice := (t.slice + 1) % s.slicesOf p true }
  else
    let t := s.actTree n
    let k := if s.sliced p && s.slicesOf p false > 1 then (match t.ranging with
      | some i => (s.rangeOffsets p (s.ctx i)).length
      | none => 1) else 1
    s.setActTree n { t with
      rSlice := t.rSlice + 1, rDone := if k ≤ t.rSlice + 1 then some (frame, w.s + w.off + w.width) else none }

/-- The XGEM port contexts whose calloc names a structure's allocation at the seal (R115, R308): circ is asked for at the loss. -/
def State.circuits (s : State) (a : Nat) : List Nat :=
  if (s.alloc a).valid then (s.rowsOf 3).filter (fun x => s.xgValid x && s.xgCalloc x == a
    && s.xgTerm x == (s.alloc a).term) else []

/-- The structure with its hint (R84) and with what its port's BWmap says of it (R56, R201). -/
def State.hint (s : State) (c : Cand) : MapStruct :=
  { alloc := c.alloc, start := c.start, len := c.stop - c.start, dbru := bit c.flags 0, ploamu := bit c.flags 1, gated := c.gated
    owner := some c.owner, short := c.short, circ := s.circuits c.alloc, allocId := (s.alloc c.alloc).allocId
    unitStart := c.units.1, unitLen := c.units.2 - c.units.1 }

/-- One port's sealed map of a draft (R160, R136, R207). -/
def State.portMap (s : State) (p : Nat) (m : Draft) (acc : List Cand) (odd : Bool) : MapRec :=
  let all := (s.keptWins p m acc).map (fun w =>
      let d := m.descs.getD w.1 {}
      (⟨w.1, d.kind, w.2, d.span, d.off, d.width, d.term, d.slice⟩ : MapWin))
  let cals := if odd then [] else m.cals.filter (fun k =>
    acc.all (fun c => decide (c.stop ≤ k.1) || decide (k.1 + k.2 ≤ c.from_ acc))
    && all.all (fun w => decide (w.s + w.span ≤ k.1) || decide (k.1 + k.2 ≤ w.s)))
  ⟨(portCands p acc odd).map s.hint, all.filter (fun w => decide (2 ≤ w.desc) == odd), cals⟩

/-- A sealed map is queued for its frame and mirrored (R162, R378). -/
def State.queueMap (s : State) (q frame : Nat) (r : MapRec) : State :=
  let x := s.port q
  (s.setPort q { x with maps := x.maps.set none frame (some r) }).sendCairn
    (.map (Fin.ofNat 64 q) frame r)

/-- Each offered window is kept or skipped (R136). -/
def State.judgeWindows (s : State) (p : Nat) (m : Draft) (kept : List MapWin) : State :=
  m.descs.zipIdx.foldl (fun s e =>
    let q := if e.2 < 2 then p else p + 1
    if e.1.kind = 0 then s
    else match kept.find? (fun w => w.desc == e.2) with
      | some w => s.keepSlice q m.frame e.1 w
      | none => s.skipSlice q e.1.slice) s

/-- MAP_BUILD_COMPLETE. The map builder finishes the seal checks of the draft that SEAL handed over: removals are counted
and reported once, those of both maps of a shared pair under the even port, which the spec does not say (DESIGN CHOICE, unsafe: log
entry 120), the windows judged, the map or both maps of a shared pair queued for their frame (R160 to R162). -/
def execMapBuildComplete (p : Port) (s : State) : Res :=
  act s fun s =>
    match (s.tree p).draft with
    | none => s
    | some m =>
      let all := m.structs.map (s.cand p m)
      let acc := s.sealKeep p all
      let gone := all.length - acc.length
      let even := s.portMap p m acc false
      let t := s.tree p
      let s' := s.setTree p { t with draft := none, everSealed := true, lastChk := gone }
      let s' := s'.queueMap p m.frame even
      let s' := if s.sharedUs p then
          (s'.queueMap (p + 1) m.frame (s.portMap p m acc true)).setTree (p + 1)
            { s'.tree (p + 1) with everSealed := true }
        else s'
      let s' := s'.wr F.GE_DISC_STATUS_gated (b2n (acc.any (·.gated))) (s.treeNo p)
      let s' := s'.wr F.GE_DISC_STATUS_staggered (b2n (s'.sliced p)) (s.treeNo p)
      let s' := s'.when (gone != 0) fun s =>
        ((s.bump F.GE_TREE_CHECK_removed gone p).raise 3 p 0x2003 gone).count 3 3 p gone
      s'.judgeWindows p m (even.wins ++ if s.sharedUs p then (s.portMap p m acc true).wins else [])

end Sys2Proof.Machine
end

