-- ==== Sys2Proof/Machine/Ge.lean ====
section
/-! DEFINITION. The grant engines and their tables (R153, R167 to R184, R536): self-test, rotation, takeover, repair,
images, the table commands. -/

namespace Sys2Proof.Machine

/-! ### Fencing and takeover (R170 to R172) -/

/-- A waiting pitch of the quad opens late on the spare (R170), before its deadline and while gp_en is still 1 (R154). -/
def State.openWaiting (s : State) (p : Nat) : State :=
  let t := s.tree p
  if !t.waits then s
  else if s.on F.GE_TREE_CFG_gp_en p && decide (s.ts.run < t.waitFrom + pitchSpan) then s.openNow p true ((s.ts.frame + 2) % 2 ^ 32)
  else s.waitLost p

/-- TAKEOVER_LOAD_COMPLETE. The spare whose load began first has loaded the quad's keep regions: it serves the quad, with the takeover event behind the fence
event that caused it (R39, R49), and pitches that waited open on it with their deadline unchanged (R170). -/
def execTakeoverLoadComplete (s : State) : Res :=
  act s fun s =>
    match s.ge.takeover with
    | [] => s
    | (q, sp) :: _ =>
      let s := (s.endTakeover q).wr F.GE_QUAD_MAP_engine sp q
      let s := s.wr F.GE_ENG_STATUS_orphaned (b2n s.orphaned.isSome)
      let s := s.raiseAfter (s.ge.fenceEv.get none q) 3 sp 0x2010 (q * 2 ^ 16 + sp)
      let s := State.each 4 (fun s i => s.openWaiting (q * 4 + i)) s
      if s.rd F.GE_ENG_STATUS_spare = sp then s.nextSpare else s.takeOrphan

/-! ### Self-test and rotation (R167 to R169, R182) -/

/-- A self-test pass of engine e runs: of the spare, of every engine on a standby, unless a takeover or a rotation needs the spare
(R167, R182). (DEDUCED, safe: log entry 94.) -/
def State.bistRuns (s : State) (e : Nat) : Bool :=
  s.glb.dev != .boot && !s.fenced (.engine e) && s.ge.takeover.isEmpty && s.ge.rotation.isNone
    && (s.isStandby || s.rd F.GE_ENG_STATUS_spare == e)

/-- BIST_PASS_COMPLETE. A self-test pass of a spare engine ends; on a standby every engine tests itself (R167, R182). A
failed pass is a soft fault, a second in a row a hard one. A pass that a takeover or a rotation abandons completes nothing. -/
def execBistPassComplete (e : Eng) (ok : Bool) (unit : BitVec 8) (s : State) : Res :=
  act s fun s =>
    let n := e.val
    if !s.bistRuns n || s.blkDown 3 then s
    else
      let s := (s.bump F.GE_ENG_BIST_passes).wr F.GE_ENG_BIST_last_fail (b2n !ok)
      if ok then { s with ge := { s.ge with bistFailed := s.ge.bistFailed.filter (· != n) } }
      else
        let again := s.ge.bistFailed.contains n
        let s := { s with
          ge := { s.ge with bistFailed := insertNat n s.ge.bistFailed }, pr := { s.pr with testFailAt := some s.ts.run } }
        (s.raise 3 n 0x2015 unit.toNat).engineFault n again 1

/-- The engine after sp, upward modulo 17, that is not fenced and has a quad to hand over (R168). -/
def State.nextEngine (s : State) (sp : Nat) : Option Nat :=
  ((List.range 16).map (fun i => (sp + 1 + i) % 17)).find? (fun e => !s.fenced (.engine e) && (s.quadOf e).isSome)

/-- A rotation is due at this frame instant, and has not been yet: rot_en and a count that is a multiple of 2^20, or one asked for or
deferred in an earlier frame (R168). -/
def State.rotationDue (s : State) : Bool :=
  s.ts.started && decide (s.ts.phase = 0) && s.ge.rotAt != some s.ts.frame
    && (s.ge.rotAsked.any (· != s.ts.frame) || (s.on F.GE_CTRL_rot_en && s.ts.frame % 2 ^ 20 == 0))

/-- SPARE_ROTATION. At a frame instant at which one is due the next engine after the spare begins to hand over its quad (R168). Skipped
without a spare and on a standby; deferred to the next instant during a takeover. -/
def execSpareRotation (s : State) : Res :=
  act s fun s =>
    let sp := s.rd F.GE_ENG_STATUS_spare
    let s' := { s with ge := { s.ge with rotAsked := none, rotAt := some s.ts.frame } }
    if !s.rotationDue || s.isStandby || s.ge.rotation.isSome then s
    else if !s.ge.takeover.isEmpty then { s' with ge := { s'.ge with rotAsked := some s.ts.frame } }
    else if sp = 0x1F then s'
    else match s.nextEngine sp with
      | none => s'
      | some e => match s.quadOf e with
        | none => s'
        | some q => { s' with ge := { s'.ge with rotation := some (q, e, sp) } }

/-! ### Engine commands (R173) -/

def State.engResult (s : State) (res e : Nat) : State :=
  (s.wr F.GE_ENG_CMD_STATUS_result res).wr F.GE_ENG_CMD_STATUS_eng e

/-- A GE_ENG_CMD command: 6 on a standby (R377), 1 while busy, else f. -/
def State.engCmd (s : State) (r : Requester) (e : Nat) (f : State → State) : State :=
  if s.shut 3 F.GE_ENG_CMD_op then s
  else if !s.reach r 3 then (match r with
    | .vf _ => s
    | _ => s.wr F.GE_ENG_CMD_STATUS_result 6)
  else if s.on F.GE_ENG_CMD_STATUS_busy then s.wr F.GE_ENG_CMD_STATUS_result 1
  else f (s.engResult 0 e)

/-- ENGINE_QUERY. -/
def execEngineQuery (r : Requester) (e : BitVec 5) (s : State) : Res :=
  act s fun s => match r with
    | .vf _ => s
    | _ => if s.shut 3 F.GE_ENG_CMD_op then s
      else if s.on F.GE_ENG_CMD_STATUS_busy then s.wr F.GE_ENG_CMD_STATUS_result 1 else s.engResult 0 e.toNat

/-- ENGINE_REPAIR. Only a fenced engine; two self-test passes run (R173). -/
def execEngineRepair (r : Requester) (e : BitVec 5) (s : State) : Res :=
  act s fun s => s.engCmd r e.toNat fun s =>
    if !s.fenced (.engine e.toNat) then s.engResult 2 e.toNat
    else { s with ge := { s.ge with repair := some e.toNat } }.wr F.GE_ENG_CMD_STATUS_busy 1

/-- ENGINE_REPAIR_DONE. Both passes good: the engine leaves the fence, becomes a spare, and takes
over an orphaned quad at once; otherwise it stays fenced with result 4. Its tally is cleared either way (R172, R173). -/
def execEngineRepairDone (ok : Bool) (s : State) : Res :=
  act s fun s =>
    match s.ge.repair with
    | none => s
    | some e =>
      let s := { s with ge := { s.ge with repair := none } }.wr F.GE_ENG_CMD_STATUS_busy 0
      if !ok then { s with tal := s.tal.set {} (Elem.engine e).key { fenced := true } }.engResult 4 e
      else
        let s := (s.fenceClear (.engine e)).engResult 0 e
        let s := { s with ge := { s.ge with
          bistFailed := s.ge.bistFailed.filter (· != e), idle := s.ge.idle ++ [e] } }.raiseNext 3 e 0x2014 0
        if s.rd F.GE_ENG_STATUS_spare = 0x1F then s.nextSpare else s.takeOrphan

/-- ENGINE_ROTATE. A rotation at the next frame instant, or 5 without a spare. -/
def execEngineRotate (r : Requester) (s : State) : Res :=
  act s fun s => s.engCmd r 0 fun s =>
    if s.rd F.GE_ENG_STATUS_spare = 0x1F then s.engResult 5 0
    else { s with ge := { s.ge with rotAsked := some s.ts.frame } }

/-! ### Program images (R174 to R177, R517) -/

/-- The bytes of a signature trailer as a list of image words holds them, hi bytes first (R517). -/
def trailerBytes (per : Nat) (ws : List Nat) : List Nat :=
  ws.flatMap (fun w => (List.range per).map (fun i => w / 2 ^ (8 * (per - 1 - i)) % 256))

/-- The trailer's own checks (R517): magic, kind, key slot established, length covered. -/
def trailerOk (kind keys covered : Nat) (b : List Nat) : Bool :=
  b.take 4 == [0x7E, 0x51, 0xA3, 0x5C]
    && (b.drop 4).take 4 == (List.range 4).map (fun i => covered / 2 ^ (8 * (3 - i)) % 256)
    && b.getD 8 0 == kind && decide (b.getD 9 0 < 4) && bit keys (b.getD 9 0)

/-- A staged image of n words verifies: its last t words are a trailer of per bytes a word whose checks hold and whose
signature does. -/
def State.imageSigned (s : State) (kind per t : Nat) (ws : List Nat) : Bool :=
  let n := ws.length
  decide (t ≤ n) && trailerOk kind s.pw.keys (n - t) (trailerBytes per (ws.drop (n - t))) && Config.signatureOk kind ws

/-- The words staged in the second grant bank. -/
def State.stagedGrant (s : State) : List Nat :=
  (List.range (s.rd F.GE_PROG_STATUS_staged_words)).map (fun a => s.imageWord (!s.ge.cur) a)

/-- GE_PROG_DATA (R174): a word to the staging bank, or stage_err while a generation is retiring. at_ is the address. -/
def State.progData (s : State) (v : Nat) : State :=
  if (s.gen .grant).ret.isSome then s.wr F.GE_PROG_STATUS_stage_err 1
  else
    let a := s.rd F.GE_PROG_ADDR_addr
    let g := s.ge
    let g := if g.cur then { g with bank0 := g.bank0.set 0 a (v % 2 ^ 18) }
      else { g with bank1 := g.bank1.set 0 a (v % 2 ^ 18) }
    (({ s with ge := g }.wr F.GE_PROG_STATUS_staged_words (max (a + 1) (s.rd F.GE_PROG_STATUS_staged_words))).wr
      F.GE_PROG_ADDR_addr (a + 1)).stage .grant

def execGeProgDataWrite (r : Requester) (v : Word) (s : State) : Res :=
  act s fun s => if !s.reach r 3 || s.shut 3 F.GE_PROG_DATA_word then s
    else
      let a := s.rd F.GE_PROG_ADDR_addr
      (s.progData v.toNat).mirror r [(F.GE_PROG_ADDR_addr.off, a), (F.GE_PROG_DATA_word.off, v.toNat)] (some a) 0

/-- GE_PROG_COMMIT (R175, R176, R188): the staged image and entry fields, or the entry fields alone. -/
def State.grantCommit (s : State) : State :=
  let n := s.rd F.GE_PROG_STATUS_staged_words
  let auth := n == 0 || !s.feat 12 || s.imageSigned 1 2 56 s.stagedGrant
  let (s, ok) := s.commit .grant auth
  if !ok then s
  else
    let g := s.ge
    let es := (List.range 64).foldl (fun t p => t.set 0 p (s.rd F.GE_TREE_CFG_entry p)) g.entries
    let g := { g with entries := es }
    let g := if n = 0 then g else { g with cur := !g.cur, len := n }
    { s with ge := g }.wr F.GE_PROG_STATUS_staged_words 0

def execGeProgCommit (r : Requester) (v : Word) (s : State) : Res :=
  act s fun s => if !s.reach r 3 || s.shut 3 F.GE_PROG_COMMIT_commit || v.toNat % 2 = 0 then s
    else
      let s := s.grantCommit
      s.mirror r [(F.GE_PROG_COMMIT_commit.off, v.toNat)] (some (s.gen .grant).cur) (s.gen .grant).status

/-! ### Table commands (R178 to R184, R536) -/

/-- GE_TBL_STATUS after a command: its result and its index. -/
def State.tblResult (s : State) (res idx : Nat) : State :=
  (s.wr F.GE_TBL_STATUS_result res).wr F.GE_TBL_STATUS_index idx

/-- GE_TBL_DATA0 to 7 set to eight words. -/
def State.tblData (s : State) (ws : List Nat) : State :=
  State.each 8 (fun s i => s.wr F.GE_TBL_DATA_word (ws.getD i 0) i) s

/-- Any command but a read of the held row discards the held words (R184). -/
def State.dropHeld (s : State) : State := { s with ge := { s.ge with histHeld := none } }

/-- The eight words of a history row from word k (R178), 0 without feature 5 (R199). -/
def State.histWords (s : State) (a k : Nat) : List Nat :=
  (List.range 8).map (fun i => if s.feat 5 then histWord (s.alloc a) (k + i) else 0)

/-- GE_TABLE_READ (R536). A terminal row from 16,384 on ends as one whose context is in Free, a keep index from 32,768 on names the word that
many lower. (DESIGN CHOICE, unsafe: log entry 132.) -/
def execGeTableRead (r : Requester) (table : BitVec 3) (upper : Bool) (idx : BitVec 16) (s : State) : Res :=
  act s fun s =>
    let i := idx.toNat
    match r with
    | .vf _ => s
    | _ =>
      if s.shut 3 F.GE_TBL_CMD_op then s
      else if s.on F.GE_TBL_STATUS_busy then s.wr F.GE_TBL_STATUS_result 1
      else if 4 < table.toNat || (upper && table.toNat != 3) then s.dropHeld.tblResult 7 i
      else match table.toNat with
        | 0 =>
          if 16384 ≤ i || (s.ctx i).st == .free then (s.dropHeld.tblData []).tblResult 5 i
          else (s.dropHeld.tblData ((List.range 4).map
            (termWord (s.ctx i) (s.pstate i).code (bit (s.trx i).defects 0)))).tblResult 0 i
        | 1 =>
          if !(s.alloc i).valid then (s.dropHeld.tblData []).tblResult 5 i
          else (s.dropHeld.tblData ((List.range 8).map (allocWord (s.feat 5) (s.alloc i)))).tblResult 0 i
        | 2 =>
          if !(s.alloc i).valid then (s.dropHeld.tblData []).tblResult 5 i
          else (s.dropHeld.tblData ((List.range 2).map (reportWord (s.alloc i)))).tblResult 0 i
        | 3 =>
          let held := match s.ge.histHeld with
            | some (j, ws) => if upper && j == i then some ws else none
            | none => none
          match held with
          | some ws => (s.tblData ws).tblResult 0 i
          | none =>
            if !(s.alloc i).valid then (s.dropHeld.tblData []).tblResult 5 i
            else
              let s' := { s with ge := { s.ge with histHeld := some (i, s.histWords i 8) } }
              (s'.tblData (s.histWords i (if upper then 8 else 0))).tblResult 0 i
        | _ => (s.dropHeld.tblData [s.ge.keep.get 0 (i % 32768)]).tblResult 0 i

/-- Writable bits of allocation words 2 to 7: word 5 holds hist_shift and prio (R178). -/
def allocMask (k v : Nat) : Nat := if k = 5 then v % 2 ^ 18 / 2 ^ 11 * 2 ^ 11 else v % 2 ^ 18

/-- An allocation row with its history empty (R179). -/
def Alloc.noHistory (a : Alloc) : Alloc := { a with hist := [], histCount := 0, histValid := false }

/-- The keep-region index of a keep-table row names a tree (R178). -/
def keepTree (i : Nat) : Nat := i % 32768 / 512

/-- GE_TABLE_WRITE. -/
def execGeTableWrite (r : Requester) (table : BitVec 3) (upper : Bool) (idx : BitVec 16) (s : State) : Res :=
  act s fun s =>
    let i := idx.toNat
    if s.shut 3 F.GE_TBL_CMD_op then s
    else if !s.reach r 3 then (match r with
      | .vf _ => s
      | _ => s.wr F.GE_TBL_STATUS_result 6)
    else if s.on F.GE_TBL_STATUS_busy then s.wr F.GE_TBL_STATUS_result 1
    else
      let s := s.dropHeld
      let d := fun k => s.rd F.GE_TBL_DATA_word k
      let (s, ok) := if 4 < table.toNat || upper then (s.tblResult 7 i, false)
        else match table.toNat with
        | 0 =>
          if 16384 ≤ i || (s.ctx i).st == .free then (s.tblResult 5 i, false)
          else ((s.setCtx i { s.ctx i with prog0 := d 2, prog1 := d 3 }).tblResult 0 i, true)
        | 1 =>
          let a := s.alloc i
          if !a.valid then (s.tblResult 5 i, false)
          else
            let ws := (List.range 6).map (fun k => allocMask (k + 2) (d (k + 2)))
            let a' := { a with shadowOk := bit (d 0) 15, words := ws }
            let a' := if ws.getD 3 0 / 2 ^ 14 != a.words.getD 3 0 / 2 ^ 14 then a'.noHistory else a'
            ((s.setAlloc i a').tblResult 0 i, true)
        | 4 =>
          if s.on F.GE_TREE_CFG_gp_en (keepTree i) then (s.tblResult 9 i, false)
          else ({ s with ge := { s.ge with keep := s.ge.keep.set 0 (i % 32768) (d 0) } }.tblResult 0 i, true)
        | _ => (s.tblResult (if (s.alloc i).valid then 8 else 5) i, false)
      s.when ok fun s => s.mirror r ((List.range 8).map (fun k => (F.GE_TBL_DATA_word.at_ k, d k))
        ++ [(F.GE_TBL_CMD_op.off, 2 ^ 28 + table.toNat * 2 ^ 25 + i)]) none 0

/-- Allocation contexts that a tree holds. -/
def State.allocsOn (s : State) (p : Nat) : List Nat :=
  (s.allocs.filter (fun e => e.2.valid && s.onTree e.2.term p)).map (·.1)

/-- An alloc_id is in use or held on the tree of port p (R181). -/
def State.allocIdTaken (s : State) (p id : Nat) : Bool :=
  (s.allocsOn p).any (fun a => (s.alloc a).allocId == id)
    || s.allocHolds.any (fun h => h.2.1 == id && (s.treePorts p).contains h.2.2.1)

/-- The lowest allocation context that is neither valid nor held (R181, R536). -/
def State.freeAllocNo (s : State) : Option Nat :=
  let used := (s.allocs.filter (·.2.valid)).map (·.1)
  let n := lowestFrom 0 (s.allocHolds.foldl (fun l h => insertNat h.1 l) used)
  if n < 65536 then some n else none

/-- The words of an allocation context that its state cairn carries (R378). -/
def State.allocWords (s : State) (a : Nat) : List GWord :=
  (List.range 8).map (fun k => BitVec.ofNat 18 (allocWord true (s.alloc a) k))

/-- ALLOC_CONTEXT_ALLOCATE (R181, R536): refusals in the order 6, 1, 7, 5, 3, 4, 2. -/
def execAllocContextAllocate (r : Requester) (table : BitVec 3) (upper : Bool) (s : State) : Res :=
  act s fun s =>
    if s.shut 3 F.GE_TBL_CMD_op then s
    else if !s.may r 3 then (match r with
      | .vf _ => s
      | _ => s.wr F.GE_TBL_STATUS_result 6)
    else if s.on F.GE_TBL_STATUS_busy then s.wr F.GE_TBL_STATUS_result 1
    else
      let s := s.dropHeld
      let d := fun k => s.rd F.GE_TBL_DATA_word k
      let t := d 1 % 16384
      let p := (s.ctx t).port
      let id := d 0 % 16384
      if table.toNat != 1 || upper then s.tblResult 7 0
      else if (s.ctx t).st == .free then s.tblResult 5 0
      else if (s.allocsOn p).length ≥ 4096 then s.tblResult 3 0
      else if s.allocIdTaken p id then s.tblResult 4 0
      else match s.freeAllocNo with
        | none => s.tblResult 2 0
        | some a =>
          let x : Alloc := {
            valid := true, shadowOk := bit (d 0) 15, allocId := id, term := t, words := (List.range 6).map (fun k => allocMask (k + 2) (d (k + 2))), frees := (s.alloc a).frees }
          let s := (s.setAlloc a x).tblResult 0 a
          (s.mirror r ((List.range 8).map (fun k => (F.GE_TBL_DATA_word.at_ k, d k))
            ++ [(F.GE_TBL_CMD_op.off, 2 * 2 ^ 28 + 2 ^ 25)]) (some a) 0).sendCairn
              (.change (.allocContext (BitVec.ofNat 16 a) (s.allocWords a)))

/-- A map's structures for allocation context a note that it has been freed (R181). -/
def MapRec.dropAlloc (a : Nat) (m : MapRec) : MapRec :=
  { m with structs := m.structs.map (fun c => if c.alloc == a then { c with freed := true } else c) }

/-- Every burst sealed for allocation context a on the tree of port p is one of a freed context (R181). -/
def State.allocGone (s : State) (p a : Nat) : State :=
  (s.treePorts p).foldl (fun s i =>
    let q := s.port i
    let r := s.rx i
    let s := s.setPort i { q with
      map := q.map.map (MapRec.dropAlloc a), maps := q.maps.mapAll none (fun _ m => m.map (MapRec.dropAlloc a)) }
    s.setRx i { r with
      hintq := r.hintq.map (fun e => (e.1.map (MapRec.dropAlloc a), e.2))
      armed := r.armed.map (fun b => { b with
        structs := b.structs.map (fun c => if c.alloc == a then { c with freed := true } else c) }) }) s

/-- An allocation context freed: its number and alloc_id are held for 4 frames; bursts sealed for it yield no report (R181). -/
def State.freeAlloc (s : State) (a : Nat) : State :=
  let x := s.alloc a
  let p := (s.ctx x.term).port
  let until_ := (s.ts.frame + 4) % 2 ^ 32
  let s := (s.setAlloc a { frees := x.frees + 1 }).allocGone p a
  { s with allocHolds := (a, x.allocId, p, until_) :: s.allocHolds }.sendCairn
    (.change (.allocHold (BitVec.ofNat 16 a) (BitVec.ofNat 14 x.allocId) (Fin.ofNat 64 p) (BitVec.ofNat 32 until_)))

/-- ALLOC_CONTEXT_FREE (R181, R536). -/
def execAllocContextFree (r : Requester) (table : BitVec 3) (upper : Bool) (idx : BitVec 16) (s : State) : Res :=
  act s fun s =>
    let i := idx.toNat
    if s.shut 3 F.GE_TBL_CMD_op then s
    else if !s.may r 3 then (match r with
      | .vf _ => s
      | _ => s.wr F.GE_TBL_STATUS_result 6)
    else if s.on F.GE_TBL_STATUS_busy then s.wr F.GE_TBL_STATUS_result 1
    else
      let s := s.dropHeld
      if table.toNat != 1 || upper then s.tblResult 7 i
      else if !(s.alloc i).valid then s.tblResult 5 i
      else ((s.freeAlloc i).tblResult 0 i).mirror r [(F.GE_TBL_CMD_op.off, 3 * 2 ^ 28 + 2 ^ 25 + i)] none 0

/-- ALLOC_HOLD_EXPIRE. The hold of an allocation context's number and alloc_id ends after its 4 frames (R181). -/
def execAllocHoldExpire (a : BitVec 16) (s : State) : Res :=
  act s fun s =>
    { s with allocHolds := s.allocHolds.filter (fun h => !(h.1 == a.toNat && reached s.ts.frame h.2.2.2)) }

/-- KEEP_CLEAR. keep_clr zeroes a tree's keep region, and is ignored while gp_en = 1. -/
def execKeepClear (r : Requester) (p : Port) (s : State) : Res :=
  act s fun s => if !s.reach r 3 || s.shut 3 F.GE_TREE_CFG_entry p || s.on F.GE_TREE_CFG_gp_en p then s
    else (s.keepZero p).mirror r [(F.GE_TREE_CFG_gp_en.at_ p, s.rd F.GE_TREE_CFG_entry p * 256 + 2)] none 0

end Sys2Proof.Machine
end

