-- ==== Sys2Proof/Machine/Act.lean ====
section
/-! DEFINITION. Activation and ranging (R118 to R152): the terminal pool, the activation states, discovery, directed
activation, ranging, drift tracking. -/

namespace Sys2Proof.Machine

/-! ### Shared operations -/

/-- The record of a context that its state cairn carries (R378). -/
def State.ctxRecord (s : State) (t : Nat) : StateChange :=
  let c := s.ctx t
  .context (Fin.ofNat 16384 t) (BitVec.ofNat 3 c.st.code) (Fin.ofNat 64 c.port) (BitVec.ofNat 10 c.onu)
    (c.sn.map (BitVec.ofNat 64)) c.eqd c.corr

/-- A change of activation state: the state-changed event and the state cairn (R124, R152, R378). -/
def State.setActState (s : State) (t : Nat) (st : ActSt) : State :=
  let c := s.ctx t
  let s := (s.setCtx t { c with st := st, since := s.ts.run }).raise 3 (s.treeNo c.port) 0x1010 (t + st.code * 2 ^ 16)
  s.sendCairn (s.ctxRecord t |> .change)

/-- A PLOAM message queued for port p. A standby sends none (R149). -/
def State.sendPloam (s : State) (p : Nat) (m : Ploam) : State :=
  if s.isStandby then s else s.setPort p { s.port p with ploam := (s.port p).ploam ++ [m] }

/-- A message that goes in the first frame with room, before those queued (R142). -/
def State.sendFirst (s : State) (p : Nat) (m : Ploam) : State :=
  if s.isStandby then s else s.setPort p { s.port p with ploam := m :: (s.port p).ploam }

/-- Ranging_Time for a terminal of port p: the EqD, rounded to the unit of the mode's standard (R142). -/
def State.rangingMsg (s : State) (p onu : Nat) (eqd : Int) : Ploam :=
  let u := max 1 (Config.rangingUnit (s.on F.TP_CTRL_ds_mode p))
  .rangingTime onu (roundDiv eqd u * u)

/-- Tenths of a microsecond in 1/16 bit at the rate of port p. -/
def State.tenths16 (s : State) (p n : Nat) : Nat := n * s.qpf p * 1024 / 1250

/-- Contexts in any state but Free, by number (R125). -/
def State.taken (s : State) : List Nat := (s.ctxs.filter (fun e => e.2.st != .free)).map (·.1)

/-- The contexts of the tree of port p (R123, R125). -/
def State.onTreeList (s : State) (p : Nat) : List Nat := s.taken.filter (fun t => s.onTree t p)

/-- GE_POOL_TREE.reserve that the tree of port p has not used. -/
def State.unusedReserve (s : State) (p : Nat) : Nat := s.rd F.GE_POOL_TREE_reserve p - (s.onTreeList p).length

/-- GE_POOL_STATUS.unreserved_free: free contexts outside all unused reserves (R119, R125). -/
def State.unreservedFree (s : State) : Nat :=
  (16384 - s.taken.length) - (((List.range 64).filter (fun p => s.treeNo p == p)).map s.unusedReserve).sum

/-- An ONU-ID is in use or held on the tree of port p, or is the broadcast ID (R119, R122). -/
def State.onuTaken (s : State) (p onu : Nat) : Bool :=
  onu == 1023 || (s.onTreeList p).any (fun t => (s.ctx t).onu == onu)
    || s.onuHolds.any (fun h => h.1 == s.treeNo p && h.2.1 == onu)

/-- The context, of any tree, bound to a serial number. -/
def State.boundTo (s : State) (sn : Nat) : Option Nat := s.taken.find? (fun t => (s.ctx t).sn == some sn)

/-- Frames since frame f. -/
def State.framesSince (s : State) (f : Nat) : Nat := (s.ts.frame + (2 ^ 32 - f % 2 ^ 32)) % 2 ^ 32

/-- Tree n begins the ranging cycle of context t; one at a time (R141). -/
def State.startRanging (s : State) (n t : Nat) : State :=
  let a := s.actTree n
  if a.ranging.isSome then s
  else s.setActTree n { a with ranging := some t, rSlice := 0, rDone := none }

/-- The ranging cycle of context t ends; a context that waited its turn is next (R141). -/
def State.endRanging (s : State) (n t : Nat) : State :=
  let a := s.actTree n
  if a.ranging != some t then s
  else
    let s := s.setActTree n { a with ranging := none, rSlice := 0, rDone := none }
    match (s.onTreeList n).find? (fun u => u != t && (s.ctx u).st == .assigned && !(s.ctx u).measured) with
    | some u => s.startRanging n u
    | none => s

/-- Assign_ONU-ID is sent to a context, which enters Assigned; x bounds its answer (R124, R130). -/
def State.assign (s : State) (t : Nat) (x : Option (Nat × Nat)) : State :=
  let c := s.ctx t
  let s := s.setCtx t { c with x := x, cycles := 0, measured := false, corr := none, corrSent := false }
  ((s.sendPloam c.port (.assignOnuId c.onu (c.sn.getD 0))).setActState t .assigned).startRanging (s.treeNo c.port) t

/-- An owner hint of context t in a map turned off: its bursts are not armed (R87). -/
def MapRec.drop (t : Nat) (m : MapRec) : MapRec :=
  { m with structs := m.structs.map (fun c => if c.owner == some t then { c with owner := none } else c) }

/-- What the free command takes from the context at once (R122, R87): keys, preset, XGEM ports, allocations, program words;
sealed bursts of it are not armed and armed ones yield nothing. What reception knows of its terminal, its defects among it, stays.
(DESIGN CHOICE, unsafe: log entry 121.) -/
def State.freeResources (s : State) (t : Nat) : State :=
  let c := s.ctx t
  let s := (s.setKeyCtx t {}).setPState t {}
  let xs := (s.rowsOf 3).filter (fun x => s.xgValid x && s.xgTerm x == t)
  let s := { s with rows := xs.foldl (fun r x => r.modify 0 (rowKey 3 x 0) (fun w => w - 2 ^ 17)) s.rows }
  let as_ := (s.allocs.filter (fun e => e.2.valid && e.2.term == t)).map (·.1)
  let s := as_.foldl State.freeAlloc s
  let s := s.setCtx t { s.ctx t with prog0 := 0, prog1 := 0, frees := c.frees + 1 }
  (s.treePorts c.port).foldl (fun s i =>
    let q := s.port i
    let r := s.rx i
    let s := s.setPort i { q with map := q.map.map (MapRec.drop t), maps := q.maps.mapAll none (fun _ m => m.map (MapRec.drop t)) }
    s.setRx i { r with
      hintq := r.hintq.map (fun e => (e.1.map (MapRec.drop t), e.2))
      armed := r.armed.map (fun b => if b.owner == some t then { b with freed := true } else b) }) s

/-- A context returned to Free, its count of free commands kept (R156). -/
def State.toFree (s : State) (t : Nat) : State :=
  let sn := (s.ctx t).sn
  let s := s.setActState t .free
  let s := match sn with
    | some n => s.registryNote n false
    | none => s
  s.setCtx t { frees := (s.ctx t).frees }

/-! ### Context commands (R118 to R125) -/

/-- GE_CTX_STATUS and GE_CTX_ARG after a command of context t. -/
def State.ctxReply (s : State) (res t : Nat) : State :=
  let c := s.ctx t
  let s := ((s.wr F.GE_CTX_STATUS_result res).wr F.GE_CTX_STATUS_term t).wr F.GE_CTX_ARG_term t
  let f := c.st == .free
  ((s.wr F.GE_CTX_ARG_port (if f then 0 else c.port)).wr F.GE_CTX_ARG_onu_id (if f then 0 else c.onu)).wr
    F.GE_CTX_TENANT_tenant (if f then 0 else c.tenant)

/-- The value of GE_CTX_ARG. -/
def State.ctxArg (s : State) : Nat :=
  s.rd F.GE_CTX_ARG_port * 2 ^ 24 + s.rd F.GE_CTX_ARG_onu_id * 2 ^ 14 + s.rd F.GE_CTX_ARG_term

/-- The register writes that gave a context command (R379). -/
def State.ctxWrites (s : State) (op : Nat) : List (Nat × Nat) :=
  [(F.GE_CTX_ARG_term.off, s.ctxArg), (F.GE_CTX_SN_vssn.off, s.rd F.GE_CTX_SN_vssn),
   (F.GE_CTX_SN_vssn.off + 4, s.rd F.GE_CTX_SN_vendor_id), (F.GE_CTX_TENANT_tenant.off, s.rd F.GE_CTX_TENANT_tenant),
   (F.GE_CTX_CMD_op.off, op)]

/-- A GE_CTX_CMD command: 6 for any requester but the owner of activation and, on a standby, the cairns (R118, R377),
1 while busy. f gets the context that GE_CTX_ARG names and answers its result and its context, none where it has none; a command with
result 0 is mirrored. -/
def State.ctxCmd (s : State) (r : Requester) (op : Nat) (f : State → Nat → State × Nat × Option Nat) : State :=
  if s.shut 3 F.GE_CTX_CMD_op then s
  else if !(if op = 0 then s.owns r else s.may r 3) then (match r with
    | .vf _ => s
    | _ => s.wr F.GE_CTX_STATUS_result 6)
  else if s.on F.GE_CTX_STATUS_busy then s.wr F.GE_CTX_STATUS_result 1
  else
    let ws := s.ctxWrites op
    let (s', res, t) := f s (s.rd F.GE_CTX_ARG_term)
    match t with
    | none => s'.wr F.GE_CTX_STATUS_result res
    | some t =>
      let s' := s'.ctxReply res t
      if res = 0 && op / 2 ^ 28 != 0 then s'.mirror r ws (some t) 0 else s'

/-- The same, on a context that is not Free (5) and stands in one of the states given (8). -/
def State.ctxOp (s : State) (r : Requester) (op : Nat) (ok : ActSt → Bool) (f : State → Nat → State × Nat) : State :=
  s.ctxCmd r (op * 2 ^ 28) fun s t =>
    if (s.ctx t).st == .free then (s, 5, some t)
    else if !ok (s.ctx t).st then (s, 8, some t)
    else
      let (s', res) := f s t
      (s', res, some t)

/-- CONTEXT_QUERY (R125). -/
def execContextQuery (r : Requester) (s : State) : Res := act s fun s => s.ctxCmd r 0 fun s t => (s, 0, some t)

/-- The lowest ONU-ID that is free and not held on the tree of port p (R119). -/
def State.anyOnu (s : State) (p : Nat) : Option Nat :=
  let used := (s.onTreeList p).foldl (fun l t => insertNat (s.ctx t).onu l) []
  let used := (s.onuHolds.filter (fun h => h.1 == s.treeNo p)).foldl (fun l h => insertNat h.2.1 l) used
  let n := lowestFrom 0 used
  if n < 1023 then some n else none

/-- CONTEXT_ALLOCATE (R119, R121, R123): refusals 3, 2, 4 in that order, which have no context; the term field is not read. -/
def execContextAllocate (r : Requester) (anyId : Bool) (s : State) : Res :=
  act s fun s => s.ctxCmd r (2 ^ 28 + b2n anyId * 2 ^ 27) fun s _ =>
    let p := s.rd F.GE_CTX_ARG_port
    let n := (s.onTreeList p).length
    let free := lowestFrom 0 s.taken
    let onu := s.rd F.GE_CTX_ARG_onu_id
    let id := if anyId then s.anyOnu p else if s.onuTaken p onu then none else some onu
    if s.rd F.GE_POOL_TREE_limit (s.treeNo p) ≤ n then (s, 3, none)
    else if 16384 ≤ free || (decide (s.rd F.GE_POOL_TREE_reserve (s.treeNo p) ≤ n) && s.unreservedFree == 0) then (s, 2, none)
    else match id with
      | none => (s, 4, none)
      | some id =>
        let s := s.setCtx free { port := p, onu := id, tenant := s.rd F.GE_CTX_TENANT_tenant, frees := (s.ctx free).frees }
        (s.setActState free .allocated, 0, some free)

/-- CONTEXT_FREE (R122). -/
def execContextFree (r : Requester) (s : State) : Res :=
  act s fun s => s.ctxOp r 2 (· != .leaving) fun s t =>
    let c := s.ctx t
    let s := s.freeResources t
    if c.st == .allocated then (s.toFree t, 0)
    else
      let s := s.setCtx t { s.ctx t with due := c.due ++ List.replicate 3 (.deactivate c.onu), corr := none }
      ((s.setActState t .leaving).endRanging (s.treeNo c.port) t, 0)

/-- CONTEXT_BIND (R124): legal in Allocated and Waiting; 9 where another context has the serial number. -/
def execContextBind (r : Requester) (s : State) : Res :=
  act s fun s => s.ctxOp r 3 (fun st => st == .allocated || st == .waiting) fun s t =>
    let sn := s.rd F.GE_CTX_SN_vendor_id * 2 ^ 32 + s.rd F.GE_CTX_SN_vssn
    match s.boundTo sn with
    | some u => if u = t then (s, 0) else (s, 9)
    | none =>
      let s := (s.setCtx t { s.ctx t with sn := some sn }).registryNote sn true
      if (s.ctx t).st == .allocated then (s.setActState t .waiting, 0) else (s.sendCairn (.change (s.ctxRecord t)), 0)

/-- CONTEXT_DISABLE (R124). -/
def execContextDisable (r : Requester) (s : State) : Res :=
  act s fun s => s.ctxOp r 4 (fun st => st == .waiting || st == .assigned || st == .operating || st == .lost) fun s t =>
    let c := s.ctx t
    let s := s.setCtx t { c with due := c.due ++ List.replicate 3 (.disable (c.sn.getD 0)), corr := none }
    ((s.setActState t .disabled).endRanging (s.treeNo c.port) t, 0)

/-- CONTEXT_ENABLE (R124). -/
def execContextEnable (r : Requester) (s : State) : Res :=
  act s fun s => s.ctxOp r 5 (· == .disabled) fun s t =>
    let c := s.ctx t
    ((s.setCtx t { c with due := c.due ++ List.replicate 3 (.enable (c.sn.getD 0)) }).setActState t .waiting, 0)

/-- ACTIVATE_NOW (R140): Waiting to Assigned at once, with the bounds on x of the found entry taken for its serial
number. -/
def execActivateNow (r : Requester) (s : State) : Res :=
  act s fun s => s.ctxOp r 6 (· == .waiting) fun s t =>
    let c := s.ctx t
    let x := match (s.actTree (s.treeNo c.port)).taken with
      | some e => if some e.sn = c.sn then some (e.lo, e.hi) else none
      | none => none
    (s.assign t x, 0)

/-- LEAVING_COMPLETE. At the end of the frame of its third deactivation the context returns to Free and its ONU-ID is held 1 s, 8,000
frames (R122). -/
def execLeavingComplete (t : Term) (s : State) : Res :=
  act s fun s =>
    let c := s.ctx t
    if c.st != .leaving || c.due != [] || s.framesSince c.dueAt = 0 then s
    else
      let until_ := (s.ts.frame + 8000) % 2 ^ 32
      let n := s.treeNo c.port
      let s := (s.freeResources t).toFree t
      { s with onuHolds := (n, c.onu, until_) :: s.onuHolds }.sendCairn
        (.change (.onuHold (Fin.ofNat 64 n) (BitVec.ofNat 10 c.onu) (BitVec.ofNat 32 until_)))

/-- ONU_ID_HOLD_EXPIRE (R122). -/
def execOnuIdHoldExpire (p : Port) (onu : BitVec 10) (s : State) : Res :=
  act s fun s =>
    { s with onuHolds := s.onuHolds.filter (fun h =>
      !(h.1 == s.treeNo p && h.2.1 == onu.toNat && reached s.ts.frame h.2.2)) }

/-- POOL_TREE_WRITE (R120): the limit stands, the reserve only where all reserves fit the pool. -/
def execPoolTreeWrite (r : Requester) (p : Port) (v : Word) (s : State) : Res :=
  act s fun s => if !s.reach r 3 || s.shut 3 F.GE_POOL_TREE_limit p then s
    else
      let w := bits v.toNat 9 0
      let others := (((List.range 64).filter (· != p.val)).map (fun q => s.rd F.GE_POOL_TREE_reserve q)).sum
      let s := s.wr F.GE_POOL_TREE_limit (bits v.toNat 25 16) p
      let s := if others + w ≤ 16384 then s.wr F.GE_POOL_TREE_reserve w p else s.raise 3 (s.treeNo p) 0x1023 w
      s.mirror r [(F.GE_POOL_TREE_reserve.at_ p, v.toNat)] none 0

/-! ### Open discovery (R137 to R140) -/

/-- The windows of port p's map that its receiver searches now, each armed and not yet closed (R88, R137): none while the receiver is off
or has lost its lane, none of a held map (R165). -/
def State.searches (s : State) (p : Nat) : List (Burst × MapWin) :=
  let r := s.rxPort p
  if !s.receiving r || s.treeHas r 1 then []
  else (s.rx r).armed.filterMap (fun b => if b.port == p && !b.held then b.win.map (fun w => (b, w)) else none)

/-- The whole of an answer that begins at a, in 1/16 bit, lies in the quiet slice of a window, past where its search stands: the search
resumes from the end of a burst found (R88, R129). -/
def State.fits (s : State) (p a : Nat) (x : Burst × MapWin) : Bool :=
  decide ((x.2.s + x.2.off) * 1024 ≤ a) && decide (x.1.searched ≤ a) && decide (a + s.snQ p * 1024 ≤ (x.2.s + x.2.off + x.2.width) * 1024)

/-- The open-discovery window in reception in which an answer that begins at quantum a is found. -/
def State.discWin (s : State) (p a : Nat) : Option (Burst × MapWin) :=
  (s.searches p).find? (fun x => x.2.kind == 1 && s.fits p (a * 1024) x)

/-- The ranging window in reception, with its context, in which an answer is found that begins where at_ tells of a window, in 1/16 bit
(R137). -/
def State.rangeWin (s : State) (p : Nat) (at_ : MapWin → Nat) : Option ((Burst × MapWin) × Nat) :=
  (s.searches p).findSome? (fun x => if x.2.kind == 2 && s.fits p (at_ x.2) x then x.2.term.map (fun t => (x, t)) else none)

/-- A window's search goes on from the end of the burst found at a (R88). -/
def State.foundAt (s : State) (p a : Nat) (b : Burst) : State :=
  s.putBurst (s.rxPort p) { b with searched := a + s.snQ p * 1024 }

/-- An answer found in a ranging slice that is not the context's is discarded and counted (R137). -/
def State.discardAnswer (s : State) (p : Nat) : State :=
  let n := s.treeNo p
  s.setActTree n { s.actTree n with discarded := (s.actTree n).discarded + 1 }

/-- The bounds on x of an answer at quantum a of a window at S, in 0.1 µs (R130). -/
def State.xBounds (s : State) (p a : Nat) (w : MapWin) : Nat × Nat :=
  let d := (a - w.s) * 1250 / s.qpf p
  (d - 10 * s.rd F.GE_DISC_RAND_rand_span (s.treeNo p), min (s.spanTenths p) (ceilDiv ((a - w.s) * 1250) (s.qpf p)))

/-- A serial number enters the found list of tree n, or is dropped when 16 stand there (R139). The slot that 0x1001 names is its place in
the list, the oldest entry's 0. (DESIGN CHOICE, unsafe: log entry 122.) -/
def State.findSn (s : State) (n : Nat) (e : Found) : State :=
  let a := s.actTree n
  if 16 ≤ a.found.length then s.raise 3 n 0x1003 0
  else (s.setActTree n { a with found := a.found ++ [e] }).raise 3 n 0x1001 a.found.length

/-- SERIAL_NUMBER_ONU. An answer found in an open-discovery slice (R128, R137, R139, R408); in a ranging slice it is discarded and
counted. A refreshed entry keeps the time at which it entered. (DESIGN CHOICE, unsafe: log entry 122.) -/
def execSerialNumberOnu (p : Port) (sn : BitVec 64) (a : Nat) (s : State) : Res :=
  act s fun s =>
    let k := sn.toNat
    let n := s.treeNo p
    match s.discWin p a with
    | none => match s.rangeWin p (fun _ => a * 1024) with
      | some ((b, _), _) => (s.foundAt p (a * 1024) b).discardAnswer p
      | none => s
    | some (b, w) =>
      let s := s.foundAt p (a * 1024) b
      if s.isStandby then s
      else
        let (lo, hi) := s.xBounds p a w
        let t := s.actTree n
        if t.found.any (fun e => e.sn == k) then
          s.setActTree n { t with found := t.found.map (fun e => if e.sn == k then { e with lo := lo, hi := hi } else e) }
        else match s.boundTo k with
          | some u =>
            if s.onTree u p then (match (s.ctx u).st with
              | .waiting => s.assign u (some (lo, hi))
              | .operating | .lost => s.assign u none
              | _ => s)
            else (s.findSn n ⟨k, lo, hi, true, s.ts.run⟩).raiseNext 3 n 0x1002 u
          | none => match s.pr.registry.find? (fun e => e.2 == k) with
            | some (m, _) => (s.findSn n ⟨k, lo, hi, true, s.ts.run⟩).raiseNext 3 n 0x1002 (2 ^ 31 + m % 4 * 2 ^ 16)
            | none => s.findSn n ⟨k, lo, hi, false, s.ts.run⟩

/-- FOUND_INFO_READ. The read takes the oldest entry into GE_FOUND_SN and answers its bounds; 0 while the list is empty
(R140) or the block is down (R52). -/
def execFoundInfoRead (r : Requester) (p : Port) (s : State) : Res :=
  act s fun s => match r with
    | .vf _ => s
    | _ =>
      let n := p.val
      let t := s.actTree n
      match if s.shut 3 F.GE_FOUND_INFO_valid p then [] else t.found with
      | [] => { s with rdata := 0 }
      | e :: rest =>
        let s := s.setActTree n { t with found := rest, taken := some e }
        let s := (s.wr F.GE_FOUND_SN_vendor_id (e.sn / 2 ^ 32) n).wr F.GE_FOUND_SN_vssn e.sn n
        { s with rdata := 2 ^ 31 + b2n e.dup * 2 ^ 30 + e.hi % 2 ^ 15 * 2 ^ 15 + e.lo % 2 ^ 15 }

/-- FOUND_ENTRY_EXPIRE. An entry not taken within 10 s, by the run count, is removed (R139). -/
def execFoundEntryExpire (p : Port) (sn : BitVec 64) (s : State) : Res :=
  act s fun s =>
    let n := s.treeNo p
    let t := s.actTree n
    s.setActTree n { t with found := t.found.filter (fun e => e.sn != sn.toNat || decide (s.ts.run < e.at_ + 10 * second)) }

/-- DISCOVERY_SLICE_DUE (R138). -/
def execDiscoverySliceDue (p : Port) (s : State) : Res :=
  act s fun s =>
    let t := s.actTree p
    let period := max 1 (s.rd F.GE_DISC_CFG_disc_period (s.treeNo p))
    let ready := match t.dueAt with
      | none => true
      | some f => decide (period ≤ s.framesSince f)
    if s.live && !s.isStandby && s.on F.GE_DISC_CFG_disc_en (s.treeNo p) && !bit (s.rd F.UB_TREE_STATUS_defects p) 2
        && ready then
      s.setActTree p { t with due := true, dueAt := some s.ts.frame }
    else s

/-- PRE_ASSIGNED_DELAY_SEND. T_eq − rtd_min is broadcast when it is asked for anew and every 8,000 frames (R129).
(DESIGN CHOICE, safe: log entry 76.) -/
def execPreAssignedDelaySend (p : Port) (s : State) : Res :=
  act s fun s =>
    let n := s.treeNo p
    let t := s.actTree n
    let ready := match t.padAt with
      | none => true
      | some f => decide (8000 ≤ s.framesSince f)
    if s.live && !s.isStandby && (s.on F.GE_DISC_CFG_disc_en n || s.on F.GE_DISC_CFG_dir_en n) && ready then
      let teq := s.rd F.GE_DISC_DIST_teq n
      let lo := s.rd F.GE_DISC_DIST_rtd_min n
      let d := if lo ≤ teq then teq - lo else Config.free 1 s.fresh
      (s.treePorts p).foldl (fun s q => s.sendPloam q (.preAssignedDelay d))
        ((s.setActTree n { t with padAt := some s.ts.frame }).when (decide (teq < lo)) State.tickFresh)
    else s

/-! ### Directed activation and ranging (R141, R142) -/

/-- The next Waiting context above the one last attempted, wrapping (R141). -/
def nextAfter (last : Option Nat) (l : List Nat) : Option Nat :=
  match last with
  | none => l.head?
  | some k => (l.find? (fun t => decide (k < t))).orElse (fun _ => l.head?)

/-- DIRECTED_ATTEMPT (R141). -/
def execDirectedAttempt (p : Port) (s : State) : Res :=
  act s fun s =>
    let n := s.treeNo p
    let a := s.actTree n
    let ready := match a.attemptAt with
      | none => true
      | some f => decide (max 1 (s.rd F.GE_ACT_CTRL_dir_period) ≤ s.framesSince f)
    if s.live && !s.isStandby && s.on F.GE_DISC_CFG_dir_en n && a.ranging.isNone && ready then
      match nextAfter a.lastTried ((s.onTreeList p).filter (fun t => (s.ctx t).st == .waiting)) with
      | none => s
      | some t =>
        (s.setActTree n { a with lastTried := some t, attemptAt := some s.ts.frame }).assign t (s.ctx t).x
    else s

/-- REGISTRATION. An answer in a ranging slice that carries the context's ONU-ID gives RTD = rtd_min + x and
EqD = T_eq − RTD, both kept in 1/16 bit; Ranging_Time goes out with the next frame, in which the context enters Operating (R127, R142).
Anything else in the slice is discarded and counted (R137). x16 is the Registration's start less the window's, in 1/16 bit. -/
def execRegistration (p : Port) (onu : BitVec 10) (x16 : Nat) (s : State) : Res :=
  act s fun s =>
    match s.rangeWin p (fun w => w.s * 1024 + x16) with
    | none => s
    | some ((b, w), t) =>
      let c := s.ctx t
      let n := s.treeNo p
      let s := s.foundAt p (w.s * 1024 + x16) b
      if s.isStandby then s
      else if c.st != .assigned || c.measured || c.onu != onu.toNat || c.port != p.val then s.discardAnswer p
      else
        let rtd := s.tenths16 p (s.rd F.GE_DISC_DIST_rtd_min n) + x16
        let eqd : Int := (s.tenths16 p (s.rd F.GE_DISC_DIST_teq n) : Int) - rtd
        let s := s.setCtx t { c with eqd := eqd, rtd := rtd, measured := true, inherited := false }
        (s.sendFirst p (s.rangingMsg p c.onu eqd)).endRanging n t

/-- The upstream frame m has come to port p up to its quantum q: data at q arrives at frame instant m + T_eq + q (R223). -/
def State.passed (s : State) (p m q : Nat) : Bool :=
  let n := s.pitchTree p
  reached s.ts.frame m
    && decide (s.rd F.GE_DISC_DIST_teq (s.treeNo p) * 19440 * s.qpf n + q * 19440 * 1250 ≤ (s.framesSince m * 19440 + s.ts.phase) * 1250 * s.qpf n)

/-- RANGING_CYCLE_END. Every slice has passed with no response; the second time the context returns to Waiting
(R124). A notice before the last slice has passed does nothing. -/
def execRangingCycleEnd (p : Port) (s : State) : Res :=
  act s fun s =>
    let n := s.treeNo p
    let a := s.actTree n
    match a.ranging with
    | none => s
    | some t =>
      let c := s.ctx t
      if !a.rDone.any (fun e => s.passed p e.1 e.2) || c.st != .assigned then s
      else if c.cycles = 0 then
        (s.setCtx t { c with cycles := 1 }).setActTree n { a with rSlice := 0, rDone := none }
      else (((s.setCtx t { c with cycles := 0 }).setActTree n { a with unanswered := a.unanswered + 1 }).setActState t
        .waiting).endRanging n t

/-! ### Drift tracking and lost terminals (R143 to R150) -/

/-- A confirmed correction: the burst whose offset lies closer to −Δ than to 0 confirms it (R145). The answer is the
context, the offset that R143 takes, and Δ if it was confirmed. On a standby only the drift offset follows: EqD and correction are its
partner's (R149). -/
def Ctx.confirm (standby : Bool) (c : Ctx) (offset : Int) : Ctx × Int × Option Int :=
  match c.corr with
  | none => (c, offset, none)
  | some d =>
    if (offset + 16 * d).natAbs < offset.natAbs then
      if standby then ({ c with c := c.c - 16 * d }, offset + 16 * d, none)
      else ({ c with c := c.c - 16 * d, eqd := c.eqd - 16 * d, corr := none, corrSent := false }, offset + 16 * d, some d)
    else (c, offset, none)

/-- An owned burst with a good header updates the drift offset of its context (R143 to R146). Δ of a tie goes away from 0.
(DESIGN CHOICE, unsafe: log entry 111.) -/
def State.driftUpdate (s : State) (t : Nat) (offset : Int) : State :=
  let (c, off, done) := (s.ctx t).confirm s.isStandby offset
  let n := s.treeNo c.port
  let c := { c with c := c.c + off / 2 ^ min 8 (s.rd F.GE_ACT_CTRL_drift_shift) }
  let beyond := decide (s.rd F.GE_ACT_DRIFT_drift_max < c.c.natAbs)
  let was := c.overMax
  let s := s.setCtx t { c with overMax := beyond }
  let s := match done with
    | some d => (s.raise 3 n 0x1030 (t + wrapTo 16 d * 2 ^ 16)).sendCairn (.change (s.ctxRecord t))
    | none => s
  let s := s.when (beyond && !was) (·.raise 3 n 0x1032 t)
  let step := min 0x200 (s.rd F.GE_ACT_DRIFT_eqd_step)
  if !s.isStandby && c.corr.isNone && decide (step ≤ c.c.natAbs) then
    let d := roundDiv c.c 16
    let s := (s.setCtx t { s.ctx t with corr := some d, corrAt := s.ts.frame, corrSent := false }).sendPloam c.port
      (s.rangingMsg c.port c.onu (c.eqd - 16 * d))
    s.sendCairn (.change (s.ctxRecord t))
  else s

/-- GE_TERM_RTD: T_eq − EqD + c in Operating and Lost (R148), with skew_rt for an inherited terminal (R386). -/
def State.rtd (s : State) (t : Nat) : Int :=
  let c := s.ctx t
  if c.st == .operating || c.st == .lost then
    (s.tenths16 c.port (s.rd F.GE_DISC_DIST_teq (s.treeNo c.port)) : Int) - c.eqd + c.c
      + (if c.inherited then s.skew16 c.port (s.skewRt c.port) else 0)
  else 0

/-- EQD_CONFIRM_TIMEOUT. A correction not confirmed within eqd_confirm frames is sent again once, then cancelled (R145). -/
def execEqdConfirmTimeout (t : Term) (s : State) : Res :=
  act s fun s =>
    let c := s.ctx t
    match c.corr with
    | none => s
    | some d =>
      if s.isStandby || s.framesSince c.corrAt < max 1 (s.rd F.GE_ACT_CTRL_eqd_confirm) then s
      else if !c.corrSent then
        (s.setCtx t { c with corrSent := true, corrAt := s.ts.frame }).sendPloam c.port (s.rangingMsg c.port c.onu (c.eqd - 16 * d))
      else
        let s := (s.setCtx t { c with corr := none, corrSent := false }).raise 3 (s.treeNo c.port) 0x1031 t
        s.sendCairn (.change (s.ctxRecord t))

/-- LOST_TIMEOUT. A context in Lost for lost_t goes to Waiting with its EqD kept as a hint, and is deactivated three times
(R124). -/
def execLostTimeout (t : Term) (s : State) : Res :=
  act s fun s =>
    let c := s.ctx t
    if c.st != .lost || s.isStandby || s.ts.run < c.since + max 1 (s.rd F.GE_ACT_CTRL_lost_t) * (second / 10) then s
    else
      let c := { c with kept := some c.eqd, due := c.due ++ List.replicate 3 (Ploam.deactivate c.onu), corr := none }
      (s.setCtx t { c with corrSent := false, x := none }).setActState t .waiting

end Sys2Proof.Machine
end

