-- ==== Sys2Proof/Machine/Ic.lean ====
section
/-! DEFINITION. The interrupt collector (R471 to R487): pending sources, claims, delivery to guide cores and host vectors,
watch latches. -/

namespace Sys2Proof.Machine

/-! ### Sources and targets -/

/-- The target that a source names. -/
def State.icTarget (s : State) (src : Nat) : Nat := s.rd F.IC_SRC_CFG_target src
def State.icPrio (s : State) (src : Nat) : Nat := s.rd F.IC_SRC_CFG_prio src

/-- The claims of a target not yet completed, newest first, each with the priority it was claimed at. -/
def State.icStack (s : State) (t : Nat) : List (Nat × Nat) := s.ic.stack.get [] t

/-- The target's current threshold: the priority claimed last, else the base threshold (R474). -/
def State.icThresh (s : State) (t : Nat) : Nat :=
  match s.icStack t with
  | (_, p) :: _ => p
  | [] => s.rd F.IC_TGT_THRESH_thresh t

/-- The source is claimed and not completed, at whatever target (R474, R481). -/
def State.icActive (s : State) (src : Nat) : Bool := s.ic.stack.any (fun e => e.2.any (fun c => c.1 == src))

/-- The source is deliverable to its target (R472, R473). -/
def State.icDeliverable (s : State) (src : Nat) : Bool :=
  s.ic.pend.contains src && s.on F.IC_SRC_CFG_en src && !s.icActive src && s.icPrio src != 0
    && decide (s.icThresh (s.icTarget src) < s.icPrio src)

/-- The sources deliverable to target t, in rising number. -/
def State.icReady (s : State) (t : Nat) : List Nat :=
  s.ic.pend.filter (fun src => s.icTarget src == t && s.icDeliverable src)

/-- The choice of R474: the highest priority, among equals the lowest number. -/
def State.icBest (s : State) (t : Nat) : Option Nat :=
  (s.icReady t).foldl (fun m src => match m with
    | none => some src
    | some b => if s.icPrio b < s.icPrio src then some src else m) none

def isGuide (t : Nat) : Bool := decide (t < 4)

/-- The function of a host vector's target: none unless HD_VEC_MAP has valid = 1 (R451). -/
def State.icFn (s : State) (t : Nat) : Option Nat :=
  if isGuide t || !s.on F.HD_VEC_MAP_valid (t - 4) then none else some (s.rd F.HD_VEC_MAP_fn (t - 4))

/-- The target is a host vector of the physical function, which claims and completes (R479). -/
def State.icExplicit (s : State) (t : Nat) : Bool := s.icFn t == some 0

/-- The target is a host vector of a virtual function, in auto-complete (R480). -/
def State.icAuto (s : State) (t : Nat) : Bool :=
  match s.icFn t with
  | some f => f != 0
  | none => false

def State.icAsleep (s : State) (t : Nat) : Bool := s.ic.sleep.contains t

/-- The watch entry that names a source (R483). -/
def State.watchOf (s : State) (src : Nat) : Option Nat :=
  (List.range 64).find? (fun w => s.on F.IC_WATCH_valid w && s.rd F.IC_WATCH_source w == src)

/-- The collector's own logic is down (R484). -/
def State.icDown (s : State) : Bool := s.blkDown 12

/-! ### Claims and delivery -/

/-- A claim of source src at target t: pending cleared, the threshold pushed and raised (R474). -/
def State.icClaim (s : State) (t src : Nat) : State :=
  let p := s.icPrio src
  { s with ic := { s.ic with
    pend := s.ic.pend.filter (· != src)
    stack := s.ic.stack.set [] t ((src, p) :: s.icStack t) } }.count 12 1 t

/-- An awake guide core enters: the claim belongs to the entry sequence (R477). -/
def State.icEnter (s : State) (t : Nat) : State :=
  if !isGuide t || s.icAsleep t || s.icDown then s
  else match s.icBest t with
    | none => s
    | some src =>
      let s := s.icClaim t src
      { s with ic := { s.ic with entry := s.ic.entry.set none t (some (src, s.ts.run)) } }.emit (.coreEntry t src)

/-- Source src, now pending, pre-empts the entry sequence of its target in progress: the entry's claim is undone and src
enters (R478). The sequence lasts 60 ns of run count. -/
def State.icPreempt (s : State) (src : Nat) : State :=
  let t := s.icTarget src
  match s.ic.entry.get none t, s.icStack t with
  | some (a, at_), (b, p) :: rest =>
    if isGuide t && a == b && decide (s.ts.run < at_ + 60 * 2 ^ 40) && s.icDeliverable src && decide (p < s.icPrio src) then
      { s with ic := { s.ic with
        pend := insertNat a s.ic.pend
        stack := s.ic.stack.set [] t rest } }.icEnter t
    else s
  | _, _ => s

/-- The MSI-X entry through which host vector v is delivered: entry v of the physical function's table, the single entry of a virtual
function (R451). -/
def State.msixAt (s : State) (v : Nat) : Msix :=
  match s.icFn (v + 4) with
  | none => {}
  | some 0 => match s.hd.table with
    | none => {}
    | some n =>
      let e := Config.msixEntry n v
      ⟨e.1, e.2.1, e.2.2, s.hd.pba.contains v⟩
  | some f => s.hd.vtab.get {} (f - 1)

/-- The message of vector v's entry leaves; a masked entry keeps it pending. (PRESUMED, unsafe: log entry 25.) -/
def State.msixSend (s : State) (v : Nat) : State :=
  let e := s.msixAt v
  let f := (s.icFn (v + 4)).getD 0
  if !e.masked then s.emit (.msix v f e.addr e.data)
  else if f = 0 then { s with hd := { s.hd with pba := insertNat v s.hd.pba } }
  else { s with hd := { s.hd with vtab := s.hd.vtab.set {} (f - 1) { e with pend := true } } }

/-- One MSI-X message of a vector. A sleeping target gets none (R482). -/
def State.icMsix (s : State) (t : Nat) : State :=
  if s.icAsleep t || s.icDown then s else s.msixSend (t - 4)

/-- A message to every vector of the physical function that has come from no deliverable source in s to one in s' (R479);
only the targets named can have changed. -/
def State.icEdge (s s' : State) (ts : List Nat) : State :=
  ts.foldl (fun x t => if s'.icExplicit t && (s.icBest t).isNone && (s'.icBest t).isSome then x.icMsix t else x) s'

/-- A source set pending (R473). -/
def State.icSet (s : State) (src : Nat) : State := { s with ic := { s.ic with pend := insertNat src s.ic.pend } }

/-- A doorbell that the collector takes: pending, then the entry pre-empted or the message sent; a collector that is down
leaves it with the watch domain or its requester until it comes up (R484). -/
def State.icPend (s : State) (src : Nat) : State :=
  if s.icDown then { s with ic := { s.ic with latch := insertNat src s.ic.latch } }
  else s.icEdge ((s.icSet src).icPreempt src) [s.icTarget src]

/-- The collector comes up: every stack empty, every source that was active pending again, latched doorbells pending
(R484). -/
def State.icUp (s : State) : State :=
  let acts := s.ic.stack.flatMap (fun e => e.2.map (·.1))
  let pend := (acts ++ s.ic.latch).foldl (fun l n => insertNat n l) s.ic.pend
  { s with ic := { s.ic with pend := pend, stack := [], entry := [], latch := [] } }

/-- The host vectors' state cleared for the targets given (R486). -/
def State.icClearHost (s : State) (ts : List Nat) : State :=
  let s := ts.foldl (fun s t => s.wr F.IC_TGT_THRESH_thresh 0 t) s
  { s with ic := { s.ic with
    pend := s.ic.pend.filter (fun src => !ts.contains (s.icTarget src))
    stack := s.ic.stack.filter (fun e => !ts.contains e.1) } }

/-! ### Ownership (R485) -/

/-- The guide cores always, the physical function in READY and at host-directed level; above it the physical function
only where the targets concerned are host vectors. -/
def State.icMay (s : State) (r : Requester) (host : Bool) : Bool :=
  match r with
  | .guide => true
  | .pf => !s.live || s.glb.level == 0 || host
  | _ => false

/-- A register write of the collector: ignored with not_owner where the requester may not make it. -/
def State.icWrite (s : State) (r : Requester) (host : Bool) (f : State → State) : State :=
  match r with
  | .vf _ => s
  | _ => if s.regsOff 12 then s else if s.icMay r host then f s else s.wr F.IC_STATUS_not_owner 1

/-! ### Commands that move no device state -/

/-- GUIDE_CORE_ENTRY (R477). (DESIGN CHOICE, unsafe: log entry 42.) -/
def execGuideCoreEntry (t : Fin 4) (s : State) : Res := act s fun s => s.icEnter t

/-- CLAIM_READ (R477, R479). -/
def execClaimRead (r : Requester) (t : Fin 68) (s : State) : Res :=
  act s fun s => match r with
    | .vf _ => s
    | _ =>
      if s.icDown || !s.icExplicit t then { s with rdata := 0 }
      else match s.icBest t with
        | none => { s with rdata := 0 }
        | some src => { s.icClaim t src with rdata := 2 ^ 31 + s.icPrio src * 2 ^ 16 + src }

/-- COMPLETE_WRITE (R474, R475, R478, R479). A guide core left with a deliverable source enters it at once; a vector of the
physical function sends a message. -/
def execCompleteWrite (r : Requester) (t : Fin 68) (src : BitVec 13) (s : State) : Res :=
  act s fun s => s.icWrite r (!isGuide t) fun s =>
    let bad := (s.wr F.IC_TGT_STATUS_order_err 1 t).raise 12 t 0xB001 src.toNat
    match s.icStack t with
    | [] => bad
    | (a, _) :: rest =>
      if a != src.toNat then bad
      else
        let s := { s with ic := { s.ic with
          stack := s.ic.stack.set [] t rest, entry := s.ic.entry.set none t none } }
        if s.icExplicit t && (s.icBest t).isSome then s.icMsix t else s.icEnter t

/-- MSIX_AUTO_COMPLETE (R480). -/
def execMsixAutoComplete (t : Fin 68) (s : State) : Res :=
  act s fun s =>
    let l := s.icReady t
    if !s.icAuto t || s.icAsleep t || s.icDown || l.isEmpty then s
    else { s with ic := { s.ic with pend := s.ic.pend.filter (fun x => !l.contains x) } }.icMsix t
      |>.count 12 1 t l.length

/-- SRC_CFG_WRITE (R473, R481). -/
def execSrcCfgWrite (r : Requester) (src : BitVec 13) (v : Word) (s : State) : Res :=
  act s fun s =>
    let n := src.toNat
    let old := s.icTarget n
    let new := bits v.toNat 14 8
    s.icWrite r (!isGuide old && !isGuide new) fun s =>
      if 67 < new then s.wr F.IC_STATUS_cfg_err 1
      else
        let x := ((s.wr F.IC_SRC_CFG_en (bits v.toNat 31 31) n).wr F.IC_SRC_CFG_target new n).wr F.IC_SRC_CFG_prio
          (bits v.toNat 3 0) n
        let x := if bit v.toNat 30 then { x with ic := { x.ic with pend := x.ic.pend.filter (· != n) } } else x
        s.icEdge (x.icPreempt n) [new]

/-- THRESH_WRITE (R479): the base threshold, and a message where it leaves the vector a deliverable source. -/
def execThreshWrite (r : Requester) (t : Fin 68) (v : Word) (s : State) : Res :=
  act s fun s => s.icWrite r (!isGuide t) fun s =>
    let s := s.wr F.IC_TGT_THRESH_thresh v.toNat t
    if s.icExplicit t && (s.icBest t).isSome then s.icMsix t else s

/-- WATCH_WRITE (R483). -/
def execWatchWrite (r : Requester) (w : Fin 64) (v : Word) (s : State) : Res :=
  act s fun s =>
    let src := bits v.toNat 12 0
    let host := !isGuide (s.icTarget src) && !isGuide (s.icTarget (s.rd F.IC_WATCH_source w))
    s.icWrite r host fun s =>
      let dup := bit v.toNat 31 && (match s.watchOf src with
        | some u => u != w.val
        | none => false)
      if dup then s.wr F.IC_STATUS_cfg_err 1
      else ((s.wr F.IC_WATCH_valid (bits v.toNat 31 31) w).wr F.IC_WATCH_wake_run (bits v.toNat 30 30) w).wr
        F.IC_WATCH_source src w

/-- WATCH_WAKE. The watch domain wakes the sleeping target of a deliverable watched source (R482). -/
def execWatchWake (src : BitVec 13) (s : State) : Res :=
  act s fun s =>
    let n := src.toNat
    let t := s.icTarget n
    if !s.icAsleep t || !s.icDeliverable n || (s.watchOf n).isNone then s
    else
      let s := s.raise 12 t 0xB002 n
      if isGuide t then
        { s with ic := { s.ic with sleep := s.ic.sleep.filter (· != t) } }.emit (.coreWake t) |>.icEnter t
      else s.emit (.pme ((s.icFn t).getD 0))

/-- TARGET_WAKE. A sleeping target wakes for another reason, and its deliverable sources are delivered at once (R482). -/
def execTargetWake (t : Fin 68) (s : State) : Res :=
  act s fun s =>
    if !s.icAsleep t then s
    else
      let s := { s with ic := { s.ic with sleep := s.ic.sleep.filter (· != t.val) } }
      if isGuide t then s.icEnter t
      else if s.icExplicit t && (s.icBest t).isSome then s.icMsix t
      else
        let l := s.icReady t
        if !s.icAuto t || l.isEmpty then s
        else { s with ic := { s.ic with pend := s.ic.pend.filter (fun x => !l.contains x) } }.icMsix t
          |>.count 12 1 t l.length

end Sys2Proof.Machine
end

