-- ==== Sys2Proof/Machine/Link.lean ====
section
/-! DEFINITION. What the links to partner and cascade carry along when they come or go (R382, R395, R401, R404 to R407, R409):
the sync state, protection, the election of the anchor. -/

namespace Sys2Proof.Machine

/-- The last fall of a rope link that has still to be committed: what a change of sync or protection follows (R39). -/
def State.linkFell (s : State) : Option Nat := s.lastEvent (fun e => e.block == 9 && e.code == 0x8011)

/-- Protection-lost, once, on an active device (R409): 0 standby absent, 1 not synchronised, 2 pair link down. -/
def State.loseProtection (s : State) (cause : Nat) : State :=
  if !s.isActive || s.pr.protLost then s
  else { s with pr := { s.pr with protLost := true } }.raiseAfter s.linkFell 9 0 0x8003 cause

/-- The device reverts (R395): revertive, and its PAIR_ID bit 0 is 1. -/
def State.mayRevert (s : State) : Bool := s.on F.PR_PAIR_CFG_revertive && s.pw.straps.pairId.toNat % 2 == 1

/-- A new sync state with its event (R382, R409). An active notes since when its standby has been synchronised without a break, for the
revert hold-off (R395). (DEDUCED, unsafe: log entry 46.) -/
def State.setSync (s : State) (n : Nat) : State :=
  if s.pr.sync = n then s
  else
    let s := { s with pr := { s.pr with
      sync := n, everSync := s.pr.everSync || (s.isStandby && n == 3)
      revertFrom := if n = 3 && s.isActive then some s.ts.run else none } }.raiseAfter s.linkFell 9 0 0x8005 n
    if n = 3 then
      (if s.pr.protLost then { s with pr := { s.pr with protLost := false } }.raise 9 0 0x8004 0 else s)
    else s

/-! ### The cascade (R404, R405) -/

def State.cascOn (s : State) : Bool := s.feat 6 && s.on F.PR_CASC_CFG_casc_en && s.glb.modeIn

def State.cascId (s : State) : Nat := s.rd F.PR_CASC_CFG_casc_id

/-- The device stands for anchor: role solo or active, ANCHOR_SEL strapped 1. -/
def State.qualifies (s : State) : Bool :=
  s.glb.modeIn && (s.glb.role == .solo || s.glb.role == .active) && s.pw.straps.anchorSel

/-- A member is still there: a neighbour while its link is, one further off while it was heard of in the last 1 ms (R405, R407).
(DESIGN CHOICE, unsafe: log entry 126.) -/
def State.memberFresh (s : State) (m : Member) : Bool := m.hops == 1 || (m.hops != 0 && decide (s.ts.run < m.at_ + millisecond))

/-- The members that are reachable, the device itself apart; a second device with this one's casc_id among them. -/
def State.reachable (s : State) : List (Nat × Member) := s.pr.members.filter (fun e => s.memberFresh e.2)

/-- The neighbour that rope port p's hello shows as a member. -/
def State.neighbour (s : State) (p : Nat) : Option HelloMsg := if s.ropeUp p then (s.rope p).hello.filter (·.cascEn) else none

/-- The two neighbours have one casc_id and differ: a duplicate (R404). A casc_id has two bits, so a fifth member is a duplicate too.
(DEDUCED, safe: log entry 135.) -/
def State.twinNeighbours (s : State) : Option Nat :=
  match s.neighbour 0, s.neighbour 1 with
  | some a, some b => if a.cascId = b.cascId && a.pairId != b.pairId then some a.cascId.toNat else none
  | _, _ => none

/-- The lowest number of a list. -/
def lowestOf (l : List Nat) : Option Nat := l.foldl (fun m n => some (match m with
  | none => n
  | some k => min k n)) none

/-- The election (R405): the lowest casc_id that qualifies. Another that qualifies, or a second device with this one's casc_id
(R404), is a conflict. -/
def State.elect (s : State) : State :=
  if !s.cascOn then { s with pr := { s.pr with anchor := none, conflict := false } }
  else
    let us := if s.qualifies then [s.cascId] else []
    let a := lowestOf (us ++ (s.reachable.filter (fun e => e.2.qualifies)).map (·.1))
    let twin := if s.reachable.any (fun e => e.1 == s.cascId) then some s.cascId else s.twinNeighbours
    let bad := twin.isSome || (s.qualifies && a != some s.cascId)
    let newBad := bad && !s.pr.conflict
    let newA := a.isSome && a != s.pr.anchor
    let s := { s with pr := { s.pr with anchor := a, conflict := bad } }
    let s := s.when newA (·.raise 9 0 0x8020 (a.getD 0))
    s.when newBad (·.raise 9 0 0x8021 (twin.getD (a.getD 0)))

/-- The cascade functions work: enabled, without a conflict. -/
def State.cascWorks (s : State) : Bool := s.cascOn && !s.pr.conflict

/-- The link of rope port p is no longer up: the pair link it carried ends, and the members beyond it are out of reach. -/
def State.ropeFell (s : State) (p : Nat) : State :=
  let s := { s with pr := { s.pr with members := s.pr.members.filter (fun e => e.2.port != p) } }
  let s := s.elect
  if s.pr.pairLink != some p then s
  else ({ s with pr := { s.pr with pairLink := none, asked := none, waiting := [], snap := [] } }.setSync 0).loseProtection 2

end Sys2Proof.Machine
end

