-- ==== Sys2Proof/Machine/Moves.lean ====
section
/-! DEFINITION. The device states and the moves between them (R8 to R16), with what a move does to the belay (R372 to R375),
the lanes, the pair and the pacer; the doorbell with its watch-run request (R483); requests and refusals. -/

namespace Sys2Proof.Machine

/-! ### States and modes -/

def Dev.code : Dev → Nat
  | .boot => 0 | .ready => 1 | .run => 2 | .bivouac => 3 | .test => 4 | .safe => 5

def Role.code : Role → Nat
  | .solo => 0 | .active => 1 | .standby => 2 | .follower => 3

def roleOf (n : Nat) : Role :=
  match n % 4 with
  | 0 => .solo | 1 => .active | 2 => .standby | _ => .follower

/-- The features that a mode needs (R8). -/
def modeNeeds (m : Nat) : List Nat :=
  (match m % 4 with
    | 0 => []
    | 3 => [6]
    | _ => [7]) ++ (match m / 4 with
    | 0 => []
    | 1 => [8]
    | _ => [8, 9])

/-- A mode is legal when every feature it needs is accepted; 12 to 15 never (R8). -/
def State.modeLegal (s : State) (m : Nat) : Bool := decide (m < 12) && (modeNeeds m).all s.feat

/-- GLB_MODE.cur_mode. -/
def State.curMode (s : State) : Nat := if s.glb.modeIn then s.glb.level * 4 + s.glb.role.code else 0

/-- The mode in force has changed (R43). -/
def State.modeEvent (s : State) : State := s.raise 0 0 0x0003 (b2n s.glb.modeIn * 16 + s.curMode)

/-! ### The belay interlock (R372 to R375) -/

/-- The claim that state and role give (R374, R375): released in BOOT, READY and SAFE; solo, follower and TEST while
BELAY_SEEN reads released; active begins while it reads released and keeps it; a standby keeps what a takeover began. -/
def State.claimRule (s : State) : Bool :=
  match s.glb.dev with
  | .boot | .ready | .safe => false
  | .test => !s.belay.seen
  | .run | .bivouac =>
    match s.glb.role with
    | .solo | .follower => !s.belay.seen
    | .active => s.belay.claim || !s.belay.seen
    | .standby => s.belay.claim

/-- The belay with the claim set as the rule asks. -/
def State.belayUpdate (s : State) : State :=
  { s with belay := (s.belay.claims s.claimRule s.ts.run).gate s.belay.laser s.ts.run }

/-! ### What a move takes with it -/

/-- The key of the field store lies in SL_LANE_CTRL's loop, gen_en, chk_en or inj_rate. -/
def laneTestKey (k : Nat) : Bool :=
  let off := k / 64
  decide (0x810000 ≤ off) && decide (off < 0x810000 + 176 * 64) && (off - 0x810000) % 64 == 0 && [4, 6, 7, 16].contains (k % 64)

/-- At the move to RUN the device clears the loops, generators, checkers and injection of every lane (R445). -/
def State.clearLaneTests (s : State) : State :=
  let t := s.lanes.foldl (fun s e => s.checkerOff e.1) s
  (s.lanes.map (·.1)).foldl (fun t l => t.lineFrom s l) { t with rf := t.rf.filter (fun e => !laneTestKey e.1) }

/-- A lane's bring-up begins now (R433); the transmitter of a rope lane without group lock sends the training pattern, again and again,
that of one with it goes on with rope frames (R432), and its port begins to train (R400).
(DESIGN CHOICE, unsafe: log entry 113.) -/
def State.trainLane (s : State) (l : Nat) : State :=
  let x := s.lane l
  if l < 160 then s.setLane l { x with from_ := s.ts.run }
  else
    let r := trainGroups (s.pr.scr.get 0 l)
    let s := if x.grp then s.setLane l { x with from_ := s.ts.run }
      else { (s.setLane l { x with from_ := s.ts.run, send := .training }).emit (.groups l r.2) with
        pr := { s.pr with scr := s.pr.scr.set 0 l r.1 } }
    let p := (l - 160) / 8
    { s with pr := { s.pr with ropes := s.pr.ropes.set {} p { s.pr.ropes.get {} p with from_ := s.ts.run } } }

/-- Rope lanes go to electrical idle (R439, R504), and their links down. -/
def State.ropesIdle (s : State) : State :=
  let f := fun l (x : Lane) => if 160 ≤ l && x.st != .off && x.st != .fenced then
    { x with st := .idle, cdr := false, grp := false, aligned := false, send := .none } else x
  let s := State.each 16 (fun t i => t.lineFrom s (160 + i)) { s with lanes := s.lanes.mapAll {} f }
  State.each 2 (fun s p =>
    let r := s.pr.ropes.get {} p
    if r.st = 0 then s
    else
      let s' := { s with pr := { s.pr with ropes := s.pr.ropes.set {} p { r with st := 0, lanes := [], good := 0, bad := 0 } } }
      if r.st = 2 then (s'.raise 9 p 0x8011 0).ropeFell p else s') s

/-- Rope lanes that were idle retrain (R439). -/
def State.ropesTrain (s : State) : State :=
  State.each 16 (fun s i => if (s.lane (160 + i)).st == .idle then
    s.lined (160 + i) (fun s => (s.setLane (160 + i) { s.lane (160 + i) with st := .training }).trainLane (160 + i)) else s) s

/-- A pending alignment is abandoned when the device leaves READY or TEST (R359). -/
def State.dropAlign (s : State) : State :=
  if s.ts.align.isSome then { s with ts := { s.ts with align := none } }.wr F.TS_STATUS_align_err 1 else s

/-- No mode is in force any more (R9): the pair's mirror ends, held groups are released. A port's frame in progress goes on to its end
(R75), and it keeps the last map it sealed (R57). -/
def State.leaveMode (s : State) : State :=
  let was := s.glb.modeIn
  let s := { s with
    glb := { s.glb with modeIn := false, level := 0, role := .solo }
    pr := { s.pr with pairLink := none, sync := 0, yieldAt := none, revertFrom := none, waiting := [], snap := [],
                      asked := none } }
  let s := s.wr F.PW_DOM_STATUS_held 0
  if was then s.modeEvent else s

/-- The move to a state completes (R13, R43). -/
def State.moved (s : State) (dst : Dev) (status : Option Nat) : State :=
  let prev := s.glb.dev
  let s := { s with glb := { s.glb with dev := dst, move := none } }
  let s := match status with
    | some n => s.wr F.GLB_STATE_last_status n
    | none => s
  let s := if prev == .ready || prev == .test then s.dropAlign else s
  let s := s.when (dst == .ready) fun s => { s with imh := { s.imh with alignedPps := false } }
  (s.raise 0 0 0x0001 (dst.code + prev.code * 2 ^ 8 + s.rd F.GLB_STATE_last_status * 2 ^ 16)).belayUpdate

/-- A move into SAFE (R16, R375): lasers off, claim released, any move or domain command abandoned, no mode in force,
source 3 rung. -/
def State.toSafe (s : State) (cause : Nat) (request : Bool) : State :=
  if s.glb.dev == .safe then s
  else
    let status := if request then some 0 else if s.glb.move.isSome then some 7 else none
    let s := { s with pw := { s.pw with dom := none } }.wr F.PW_DOM_CMD_STATUS_busy 0
    let s := (s.wr F.PW_RESET_CAUSE_safe_cause cause).moved .safe status
    s.leaveMode.icPend 3

/-! ### Requests (R13, R15) -/

/-- GLB_STATE_REQ and the other GLB registers are written by the host's physical function and the guide cores (R22), and not before
BAR0 decodes them (R512). -/
def State.mayRequest (s : State) (r : Requester) : Bool :=
  match r with
  | .pf | .guide => !s.pcieBoot
  | _ => false

/-- The move or domain command in progress, or the test running that TEST to READY waits for (R15). -/
def State.moveBusy (s : State) (target : Nat) : Bool :=
  s.glb.move.isSome || s.pw.dom.isSome || (s.glb.dev == .test && target == 1 && s.on F.BM_TEST_STATUS_busy)

/-- A refused request (R13, R43). -/
def State.refuse (s : State) (target status : Nat) : State :=
  (s.wr F.GLB_STATE_last_status status).raise 0 0 0x0002 (target + status * 2 ^ 16)

/-- R10: BIVOUAC only in role solo with cascade disabled. -/
def State.bivouacOk (s : State) : Bool := s.glb.role == .solo && !s.on F.PR_CASC_CFG_casc_en

/-- The refusal of a request for a state, in the order of R15; none where it is accepted. -/
def State.moveRefusal (s : State) (dst : Dev) : Option Nat :=
  if s.moveBusy dst.code then some 1
  else match s.glb.dev, dst with
    | .ready, .run =>
      if !s.on F.GLB_FEAT_LOCK_lock then some 3 else if !s.modeLegal (s.rd F.GLB_MODE_mode) then some 4 else none
    | .run, .bivouac => if s.bivouacOk then none else some 5
    | .ready, .test | .test, .ready | .bivouac, .run | .run, .ready | .bivouac, .ready => none
    | .safe, .safe => some 2
    | _, .safe => none
    | _, _ => some 2

/-- READY to RUN (R11, R445, R395): the mode comes into force; an active whose partner claims enters as standby; rope lanes that a
BIVOUAC left idle retrain (R439). -/
def State.enterRun (s : State) : State :=
  let m := s.rd F.GLB_MODE_mode
  let turned := roleOf m == .active && s.belay.seen
  let role := if turned then .standby else roleOf m
  let s := s.clearLaneTests
  let pr := { s.pr with cause := 0, sync := 0, cnSent := 0, cnApplied := none, cnHigh := 1, stream := [], waiting := [], stamps := [],
                        snap := [], asked := none, everSync := false, lateRun := [], pairLink := none, protLost := false, silent := false,
                        lateFor := [], pairBad := none }
  let s := { s with glb := { s.glb with modeIn := true, level := m / 4, role := role }, pr := { pr with absent := false } }.ropesTrain
  let s := (s.moved .run (some 0)).modeEvent
  if turned then (s.raise 9 0 0x8001 Role.standby.code).icPend 5 else s

/-- RUN to BIVOUAC (R504): ropes idle, groups held; parse half B is asked down where biv_half_b is 1, and the move
completes once it is down or refused. (DEDUCED, safe: log entry 44.) -/
def State.toBivouac (s : State) : State :=
  let s := s.ropesIdle.wr F.PW_DOM_STATUS_held (s.rd F.PW_DOM_CFG_bivouac_mask)
  if !s.on F.PW_DOM_CFG_biv_half_b || s.domDown 9 then s.moved .bivouac (some 0)
  else if s.domDown 8 || (List.range 64).all (fun c => s.fenced (.core c)) then (s.moved .bivouac (some 0)).raise 14 9 0xD003 4
  else { s with glb := { s.glb with move := some .bivouac }, pw := { s.pw with dom := some (9, true), domAt := s.ts.run } }

/-- BIVOUAC to RUN (R505): half B comes up first, held groups are released, rope lanes retrain. -/
def State.fromBivouac (s : State) : State :=
  let s := s.ropesTrain.wr F.PW_DOM_STATUS_held 0
  if s.domDown 9 then { s with glb := { s.glb with move := some .run }, pw := { s.pw with dom := some (9, false) } }
  else s.moved .run (some 0)

/-- An accepted request. RUN and BIVOUAC leave for READY at the next frame boundary (DOWNSTREAM_STOP). -/
def State.accept (s : State) (dst : Dev) : State :=
  match s.glb.dev, dst with
  | .ready, .run => s.enterRun
  | .run, .bivouac => s.toBivouac
  | .bivouac, .run => s.fromBivouac
  | .run, .ready | .bivouac, .ready => { s with glb := { s.glb with move := some .ready } }
  | _, .safe => s.toSafe 4 true
  | _, _ => s.moved dst (some 0)

/-- A write of a state code to GLB_STATE_REQ. -/
def State.request (s : State) (r : Requester) (dst : Dev) : State :=
  if !s.mayRequest r then s
  else match s.moveRefusal dst with
    | some n => s.refuse dst.code n
    | none => s.accept dst

/-! ### The doorbell (R471, R483) -/

/-- A source rung: pending in the collector, and, named by a watch entry with wake_run in BIVOUAC, the request for RUN. -/
def State.ring (s : State) (src : Nat) : State :=
  let s := s.icPend src
  match s.watchOf src with
  | some w =>
    if s.glb.dev == .bivouac && s.on F.IC_WATCH_wake_run w then
      (s.raise 12 (s.icTarget src) 0xB003 src).request .guide .run
    else s
  | none => s

/-- DOORBELL. A number below 32 is a device source: refused from the host and the cores (R471, R485). -/
def execDoorbell (r : Requester) (src : BitVec 13) (s : State) : Res :=
  act s fun s => match r with
    | .block => s.ring src.toNat
    | .pf =>
      if s.icDown then (if (s.watchOf src.toNat).isSome && 32 ≤ src.toNat then s.ring src.toNat else s)
      else if src.toNat < 32 then s.wr F.IC_STATUS_refused 1 else s.ring src.toNat
    | .guide => if src.toNat < 32 then s.wr F.IC_STATUS_refused 1 else s.ring src.toNat
    | _ => s

/-! ### Commands -/

/-- STATE_REQUEST_READY. -/
def execStateRequestReady (r : Requester) (s : State) : Res := act s (·.request r .ready)
/-- STATE_REQUEST_TEST. -/
def execStateRequestTest (r : Requester) (s : State) : Res := act s (·.request r .test)
/-- STATE_REQUEST_SAFE. -/
def execStateRequestSafe (r : Requester) (s : State) : Res := act s (·.request r .safe)

/-- STATE_REQUEST_BOOT_OR_RESERVED: 0x01 while busy, else 0x06 (R15). -/
def execStateRequestBootOrReserved (r : Requester) (t : BadTarget) (s : State) : Res :=
  act s fun s =>
    let code := match t with
      | .boot => 0
      | .reserved6 => 6
      | .reserved7 => 7
    if !s.mayRequest r then s else s.refuse code (if s.moveBusy code then 1 else 6)

/-- DOWNSTREAM_STOP. At the frame boundary after an accepted move to READY the downstream stops, the lasers fall, the claim
is released and the move completes (R13, R375). (DEDUCED, safe: log entry 83.) -/
def execDownstreamStop (s : State) : Res :=
  act s fun s =>
    if s.live && s.glb.move == some .ready then
      let s := State.each 64 (fun s p => (s.endFrame p).setFraming p false) s
      (s.moved .ready (some 0)).leaveMode
    else s

/-- The code of PW_RESET_CAUSE.safe_cause. -/
def safeCode : SafeCause → Nat
  | .heartbeat => 1 | .guideHalt => 2 | .thermal => 3 | .request => 4 | .other => 5

/-- FATAL_FAULT (R16). -/
def execFatalFault (c : SafeCause) (s : State) : Res := act s (·.toSafe (safeCode c) false)

/-- HEARTBEAT_TIMEOUT (R376). -/
def execHeartbeatTimeout (s : State) : Res := act s (·.toSafe 1 false)

/-! ### Features and mode (R11, R18 to R20, R22) -/

/-- FEAT_ACCEPT_WRITE: only in READY while lock is 0, masked by the offer. -/
def execFeatAcceptWrite (r : Requester) (v : Word) (s : State) : Res :=
  act s fun s => if !s.mayRequest r || s.glb.dev != .ready || s.on F.GLB_FEAT_LOCK_lock then s
    else s.wr F.GLB_FEAT_ACCEPT_accept (v.toNat &&& s.rd F.GLB_FEAT_OFFER_offer)

/-- Prerequisites of R17: bit 9 needs 8, bit 13 needs 10. -/
def featPrereq : List (Nat × Nat) := [(9, 8), (13, 10)]

/-- FEAT_LOCK_WRITE. Without feature bit 11 spill is blocked from lock on (R328). What failing_bit reads after an accepted lock the
spec does not say. (DESIGN CHOICE, unsafe: log entry 89.) -/
def execFeatLockWrite (r : Requester) (v : Word) (s : State) : Res :=
  act s fun s => if !s.mayRequest r || !bit v.toNat 0 || s.on F.GLB_FEAT_LOCK_lock then s
    else if s.glb.dev != .ready then s.wr F.GLB_FEAT_LOCK_lock_status 2
    else
      let a := s.rd F.GLB_FEAT_ACCEPT_accept
      match featPrereq.find? (fun e => bit a e.1 && !bit a e.2) with
      | some (b, _) => (s.wr F.GLB_FEAT_LOCK_lock_status 1).wr F.GLB_FEAT_LOCK_failing_bit b
      | none =>
        let s := ((s.wr F.GLB_FEAT_LOCK_lock 1).wr F.GLB_FEAT_LOCK_lock_status 0).wr F.GLB_FEAT_LOCK_failing_bit 0
        if bit a 11 then s else { s with bm := { s.bm with blocked := true } }.raise 7 0 0x6003 0

/-- MODE_WRITE. -/
def execModeWrite (r : Requester) (v : Word) (s : State) : Res :=
  act s fun s => if !s.mayRequest r then s
    else if s.glb.dev != .ready then s.wr F.GLB_STATE_last_status 2
    else s.wr F.GLB_MODE_mode (bits v.toNat 3 0)

end Sys2Proof.Machine
end

