-- ==== Sys2Proof/Machine/HdOps.lean ====
section
/-! DEFINITION. The operations on rings and DMA channels (R454 to R469): what a ring holds, how a channel takes its next
descriptor, reads, writes, withdraws. -/

namespace Sys2Proof.Machine

/-! ### The endpoint (R448) -/

/-- What the PCIe endpoint presents (R448). -/
structure Endpoint where
  device : Nat
  classCode : Nat
  speeds : List Nat
  widths : List Nat
  payloads : List Nat
  maxRead : Nat
  tags : Nat
  totalVfs : Nat
  pfBar : Nat
  vfBar : Nat
  pfVectors : Nat
  vfVectors : Nat
deriving DecidableEq, Repr

def endpoint : Endpoint :=
  { device := 0x6400, classCode := 0x0280, speeds := [1, 2, 3, 4, 5], widths := [1, 2, 4, 8], payloads := [128, 256, 512], maxRead := 4096
    tags := 256, totalVfs := 64, pfBar := 2 ^ 24, vfBar := 2 ^ 16, pfVectors := 64, vfVectors := 1 }

/-! ### Rings -/

def State.ringAt (s : State) (r : Nat) : Ring := s.hd.rings.get {} r
def State.setRing (s : State) (r : Nat) (x : Ring) : State := { s with hd := { s.hd with rings := s.hd.rings.set {} r x } }
def State.chanAt (s : State) (c : Nat) : Dma := s.hd.chans.get {} c
def State.setChan (s : State) (c : Nat) (x : Dma) : State := { s with hd := { s.hd with chans := s.hd.chans.set {} c x } }

def State.ringOn (s : State) (r : Nat) : Bool := s.on F.HD_RING_CFG_en r
def State.ringKind (s : State) (r : Nat) : Nat := s.rd F.HD_RING_CFG_kind r
def State.ringChan (s : State) (r : Nat) : Nat := s.rd F.HD_RING_CFG_chan r
def State.ringOwner (s : State) (r : Nat) : Nat := s.rd F.HD_RING_CFG_owner r
def State.ringSize (s : State) (r : Nat) : Nat := 2 ^ s.rd F.HD_RING_CFG_log2_size r
def State.ringHead (s : State) (r : Nat) : Nat := s.rd F.HD_RING_HEAD_head r
def State.ringTail (s : State) (r : Nat) : Nat := s.rd F.HD_RING_TAIL_tail r

/-- How far the producer index is ahead of the consumer index; both run modulo 2^16. (DEDUCED, unsafe: log entry 22.) -/
def State.ringAhead (s : State) (r : Nat) : Nat := (s.ringTail r + 2 ^ 16 - s.ringHead r) % 2 ^ 16

/-- The rings with en = 1, in rising number. -/
def State.ringsOn (s : State) : List Nat :=
  (s.rf.filter (fun e => e.1 % 64 == 0 && decide (0x980000 ≤ e.1 / 64) && decide (e.1 / 64 < 0x9A0000) && e.1 / 64 % 32 == 0)).map
    (fun e => (e.1 / 64 - 0x980000) / 32) |>.filter s.ringOn

/-- The rings whose number has anything in the register store, in rising number. -/
def State.ringsHeld (s : State) : List Nat :=
  (s.rf.filter (fun e => decide (0x980000 ≤ e.1 / 64) && decide (e.1 / 64 < 0x9A0000))).foldl
    (fun l e => insertNat ((e.1 / 64 - 0x980000) / 32) l) []

/-- How many of the 4,096 rings are bound to channel c (R455, R469). -/
def State.ringsBound (s : State) (c : Nat) : Nat :=
  let l := s.ringsHeld
  (l.filter (fun r => s.ringChan r == c)).length + (if c = 0 then 4096 - l.length else 0)

/-- The rings that an enabled channel serves. -/
def State.ringsOf (s : State) (c : Nat) : List Nat := s.ringsOn.filter (fun r => s.ringChan r == c)

/-- Transfers in progress on a ring. -/
def State.inXfer (s : State) (r : Nat) : Nat :=
  match (s.chanAt (s.ringChan r)).xfer with
  | some x => b2n (x.ring == r)
  | none => 0

/-- A ring error (R455, R458): the bit and its event. -/
def State.ringError (s : State) (r : Nat) : State := (s.wr F.HD_RING_STATUS_error 1 r).raise 11 (s.ringOwner r) 0xA003 r

/-- n as k bytes, least significant first (R458). -/
def leBytes (k n : Nat) : List Byte := (List.range k).map (fun i => BitVec.ofNat 8 (n / 256 ^ i))

/-- The number of a list of bytes, least significant first. -/
def leNat (l : List Byte) : Nat := l.foldr (fun b n => b.toNat + n * 256) 0

/-! ### Event rings (R38, R457) -/

/-- The 16 bytes of an event record. -/
def eventWords (seq block inst code arg stamp : Nat) : List Nat :=
  [seq, block * 2 ^ 27 + inst * 2 ^ 16 + code, stamp, arg]

/-- An event ring has no room for another entry. -/
def State.eventFull (s : State) (r : Nat) : Bool :=
  decide (s.ringSize r - 1 ≤ s.ringAhead r + (s.ringAt r).events.length + s.inXfer r)

/-- The loss record, once there is space. -/
def State.ringLoss (s : State) (r : Nat) : State :=
  let x := s.ringAt r
  if x.lost = 0 || s.eventFull r then s
  else s.setRing r { x with events := x.events ++ [eventWords x.lostSeq 11 0 0xA010 x.lost 0], lost := 0 }

/-! ### A channel's work (R461 to R463) -/

/-- The channel runs: enabled, its link up, its domain up, neither paused nor fenced nor waiting. -/
def State.chanRuns (s : State) (c : Nat) : Bool :=
  let x := s.chanAt c
  s.hd.link && s.on F.HD_CH_CTRL_en c && !s.on F.HD_CH_CTRL_pause c && !x.domain && !s.blkDown 11 && decide (x.st ≤ 1)

/-- A ring has something for its channel. -/
def State.ringReady (s : State) (r : Nat) : Bool :=
  match s.ringKind r with
  | 0 => decide ((s.ringAt r).owed.length < s.ringAhead r)
  | 1 => s.ringAhead r != 0 && !(s.ringAt r).recs.isEmpty
  | 2 => !(s.ringAt r).events.isEmpty
  | _ => false

/-- The next ring of a channel, round robin. -/
def State.nextRing (s : State) (c : Nat) : Option Nat :=
  let l := (s.ringsOf c).filter s.ringReady
  match l.find? (fun r => decide ((s.chanAt c).last < r)) with
  | some r => some r
  | none => l.head?

def State.ringBase (s : State) (r : Nat) : Nat := s.rd F.HD_RING_BASE_base r * 4096

/-- An event ring's entry is a loss record: block 11, code 0xA010 (R457). -/
def isLoss (e : List Nat) : Bool := e.getD 1 0 / 2 ^ 27 == 11 && e.getD 1 0 % 2 ^ 16 == 0xA010

/-- The attributes of channel c's data writes and read requests (R464). -/
def State.chanAttr (s : State) (c : Nat) : PcieAttr := ⟨s.on F.HD_CH_CTRL_ro_en c, s.on F.HD_CH_CTRL_ns_en c⟩

/-- Fewer than 256 non-posted requests are outstanding in the whole device (R448). (DEDUCED, safe: log entry 118.) -/
def State.tagFree (s : State) : Bool := decide ((s.hd.chans.map (·.2.reads)).sum < endpoint.tags)

/-- An idle channel takes its next descriptor (R461): it asks the host for it; an event ring's entry is at hand. -/
def State.chanStart (s : State) (c : Nat) : State :=
  let x := s.chanAt c
  if !s.chanRuns c || x.xfer.isSome || x.reads != 0 then s
  else match s.nextRing c with
    | none => s.when (x.st == 1) (·.setChan c { x with st := 0 })
    | some r =>
      if s.ringKind r = 2 then
        let g := s.ringAt r
        let i := s.ringTail r % s.ringSize r
        (s.setRing r { g with events := g.events.tail }).setChan c { x with
          st := 1, last := r, xfer := some {
            ring := r, desc := i, stage := .write, addr := s.ringBase r + i * 16, len := 16
            data := (g.events.headD []).flatMap (leBytes 4), loss := isLoss (g.events.headD []) } }
      else if !s.tagFree then s
      else
        let i := (s.ringHead r + (s.ringAt r).owed.length) % s.ringSize r
        (s.emit (.hostRead (s.ringOwner r) (s.ringBase r + i * 32) 32 (s.chanAttr c))).setChan c { x with
          st := 1, last := r, reads := 1, xfer := some { ring := r, desc := i, stage := .desc } }

/-- Read bursts of a transfer's buffer, as far as the channel's 2 KiB hold them (R461). -/
def State.issueReads (s : State) (c : Nat) : State :=
  State.each 32 (fun s _ =>
    let x := s.chanAt c
    match x.xfer with
    | none => s
    | some t =>
      let n := min (min s.hd.mrrs 2048) (t.len - t.asked)
      if t.stage != .read || n = 0 || !s.chanRuns c || !s.tagFree || 2048 < t.asked - t.moved + n then s
      else (s.emit (.hostRead (s.ringOwner t.ring) (t.addr + t.asked) n (s.chanAttr c))).setChan c { x with
        reads := x.reads + 1, xfer := some { t with asked := t.asked + n } }) s

/-- The transfer is over but for its writeback. -/
def Xfer.done (t : Xfer) (status : Nat) : Xfer := { t with stage := .back, status := status }

/-- The channel's mover is free. -/
def State.leaveMover (s : State) (c : Nat) : State := { s with hd := { s.hd with movers := s.hd.movers.filter (· != c) } }

/-- What a writeback writes into a descriptor, each part by its offset, in the order of its writes: byte 31, with done, comes last (R458). -/
def State.backParts (s : State) (t : Xfer) : List (Nat × List Byte) :=
  if s.ringKind t.ring = 0 then
    (if t.status = 4 then [(8, leBytes 2 t.moved)] else []) ++ [(16, leBytes 8 t.stamp ++ leBytes 1 t.status), (31, leBytes 1 0x80)]
  else [(8, leBytes 2 t.issued), (16, leBytes 8 t.stamp ++ leBytes 1 t.status ++ leBytes 1 (b2n t.trunc) ++ leBytes 5 0), (31, leBytes 1 0x80)]

/-- A completion counts toward the ring's doorbell (R460). -/
def State.ringDone (s : State) (r : Nat) (now : Bool) : State :=
  let x := s.ringAt r
  let n := x.since + 1
  let x := { x with sinceAt := if x.since = 0 then s.ts.run else x.sinceAt }
  if s.on F.HD_RING_IRQ_irq_en r && (now || decide (max 1 (s.rd F.HD_RING_BUF_irq_cnt r) ≤ n)) then
    (s.setRing r { x with since := 0 }).ring (s.rd F.HD_RING_IRQ_irq_src r)
  else s.setRing r { x with since := n }

/-- A ring whose function was reset has nothing left in a channel: the resets that waited for it are complete (R454). -/
def State.flrDone (s : State) : State :=
  let busy := fun f => s.hd.chans.any (fun e => match e.2.xfer with
    | some t => t.gone && (f == 0 || s.ringOwner t.ring == f)
    | none => false)
  let (left, ended) := s.hd.flrs.partition (fun e => busy e.1)
  ended.foldl (fun s e => s.raise 11 e.1 0xA004 e.2) { s with hd := { s.hd with flrs := left } }

/-- The writeback of a descriptor (R456, R458, R460). A descriptor of a ring that has been reset counts no more (R454). -/
def State.backDesc (s : State) (t : Xfer) : State :=
  let s := (s.backParts t).foldl (fun s p => s.emit (.hostWrite (s.ringOwner t.ring) (s.ringBase t.ring + t.desc * 32 + p.1) p.2 {})) s
  if t.gone then s
  else
    let s := s.wr F.HD_RING_HEAD_head (s.ringHead t.ring + 1) t.ring
    let s := s.when (t.status == 3) (·.ringError t.ring)
    s.ringDone t.ring t.irq

/-- The state in which a channel rests that has nothing in progress: paused while pause or a domain's request holds it (R465, R467). -/
def State.restSt (s : State) (c : Nat) : Nat :=
  if s.on F.HD_CH_CTRL_en c && (s.on F.HD_CH_CTRL_pause c || (s.chanAt c).domain) then 3 else 0

/-- A channel that was stopping is at rest once its last burst is in (R468). -/
def State.stopped (s : State) (c : Nat) : State :=
  let x := s.chanAt c
  if x.st = 6 && x.reads = 0 then s.setChan c { x with st := s.restSt c } else s

/-- The channel's transfer is written back: its descriptor, or an event ring's tail. -/
def State.writeBack (s : State) (c : Nat) (t : Xfer) : State :=
  let s := s.setChan c { s.chanAt c with xfer := none, withdrawn := 0 }
  let s := (s.leaveMover c).count 11 1 c
  if s.ringKind t.ring = 2 then (s.wr F.HD_RING_TAIL_tail (s.ringTail t.ring + 1) t.ring).ringDone t.ring false
  else (s.backDesc t).when t.gone State.flrDone

/-- Records that a ring drops (R454, R457). -/
def State.ringDrop (s : State) (r n : Nat) : State := s.bump F.HD_RING_STATUS_drops n r

/-- The bytes moved into a descriptor's packet that no end has come to yet: the descriptors at the end of the list. -/
def openFrom (l : List Xfer) : List Xfer := (l.reverse.takeWhile (fun t => t.stage == .held && !t.eop)).reverse

/-- An inject ring's packet in the making is dropped (R456, R458, R468): its descriptors go with this status, and what is still to come of it
too unless it has ended. -/
def Ring.spoil (x : Ring) (status : Nat) (ended : Bool) : Ring :=
  let o := openFrom x.owed
  { x with
    part := [], spoilt := if ended then 0 else status
    owed := x.owed.take (x.owed.length - o.length) ++ o.map (·.done status) }

/-- The transfer in progress of a channel is withdrawn (R468). An event entry not yet told of goes back to its ring (R463). -/
def State.withdraw (s : State) (c : Nat) : State :=
  let x := s.chanAt c
  match x.xfer with
  | none => s
  | some t =>
    let s := s.leaveMover c
    let st := if x.reads != 0 then 6 else if x.st = 4 then 1 else x.st
    if s.ringKind t.ring = 2 then
      let g := s.ringAt t.ring
      if t.stage == .back && t.status = 0 then s
      else (s.setRing t.ring { g with events := [(List.range 4).map (fun i => leNat ((t.data.drop (i * 4)).take 4))] ++ g.events }).setChan c
        { x with xfer := none, withdrawn := 0, st := st }
    else
      let s := s.when (s.ringKind t.ring == 0) fun s =>
        s.setRing t.ring ((s.ringAt t.ring).spoil 4 (t.eop && t.stage != .desc))
      if t.stage == .back then s
      else s.setChan c { x with st := st, withdrawn := 0, xfer := some { t.done 4 with buf := [], data := [] } }

/-- The channel of a ring withdraws what it does for that ring; a packet of it that lacks its end is dropped (R468). -/
def State.ringWithdraw (s : State) (r : Nat) : State :=
  let s := if s.inXfer r = 0 then s else s.withdraw (s.ringChan r)
  if (openFrom (s.ringAt r).owed).isEmpty then s else s.setRing r ((s.ringAt r).spoil 4 false)

/-- A ring whose function is reset (R454): withdrawn, its records dropped and counted, disabled, its indexes 0. A burst already issued
completes first, and its descriptor is then written back. -/
def State.ringGone (s : State) (r : Nat) : State :=
  let s := s.ringWithdraw r
  let c := s.ringChan r
  let x := s.chanAt c
  let s := match x.xfer with
    | some t =>
      if t.ring != r then s
      else if x.reads = 0 then s.writeBack c t
      else s.setChan c { x with xfer := some { t with gone := true } }
    | none => s
  let s := ((s.ringDrop r (s.ringAt r).recs.length).setRing r {}).stopped c
  ((s.wr F.HD_RING_CFG_en 0 r).wr F.HD_RING_HEAD_head 0 r).wr F.HD_RING_TAIL_tail 0 r

/-! ### Faults of a channel (R37, R466, R469) -/

/-- A fenced channel stops: every ring bound to it shows chan_down, which rings its doorbell. -/
def State.chanFault (s : State) (c : Nat) : State :=
  let (s, f) := s.faultAt (.chan c) false 3
  if !f then s
  else
    let s := s.withdraw c
    let s := (s.setChan c { s.chanAt c with st := 5 }).wr F.HD_CH_CTRL_en 0 c
    let s := s.raiseNext 11 c 0xA001 (s.ringsBound c)
    (s.ringsHeld.filter (fun r => s.ringChan r == c && s.on F.HD_RING_IRQ_irq_en r)).foldl
      (fun s r => s.ring (s.rd F.HD_RING_IRQ_irq_src r)) s

/-! ### Records and packets -/

/-- A record of ring r that its channel has taken up, with the descriptor in use. -/
def State.onXfer (s : State) (r : Nat) : Nat :=
  match (s.chanAt (s.ringChan r)).xfer with
  | some x => b2n (x.ring == r && x.stage != .desc)
  | none => 0

/-- A receive ring takes a record: enabled, with a posted descriptor that no record before it needs (R457). -/
def State.ringTakes (s : State) (r : Nat) : Bool :=
  s.ringOn r && s.ringKind r == 1 && !s.fenced (.chan (s.ringChan r))
    && decide ((s.ringAt r).recs.length + s.onXfer r < s.ringAhead r)

/-- A record for a receive ring. -/
def State.ringRecord (s : State) (r : Nat) (bytes : List Byte) (stamp : Nat) : State :=
  (s.setRing r { s.ringAt r with recs := (s.ringAt r).recs ++ [⟨bytes, stamp⟩] }).chanStart (s.ringChan r)

/-- An event record for every event ring that passes its block (R457). -/
def State.ringEvent (s : State) (seq block inst code arg stamp : Nat) : State :=
  (s.ringsOn.filter (fun r => s.ringKind r == 2 && bit (s.rd F.HD_RING_IRQ_blk_mask r) block)).foldl (fun s r =>
    let s := s.ringLoss r
    let x := s.ringAt r
    if s.eventFull r || x.lost != 0 then (s.setRing r { x with lost := x.lost + 1, lostSeq := seq }).ringDrop r 1
    else (s.setRing r { x with events := x.events ++ [eventWords seq block inst code arg stamp] }).chanStart (s.ringChan r)) s

/-- The first packet of an inject ring whose fate is open is settled: with this status, or its last descriptor, which asked for a stamp,
held for packet pid's. -/
def settleFirst (status : Nat) (pid : Option Nat) : List Xfer → List Xfer
  | [] => []
  | t :: l =>
    if t.stage == .held && t.pid.isNone then
      if t.eop then (if pid.isSome && t.stampReq then { t with pid := pid } else t.done status) :: l
      else t.done status :: settleFirst status pid l
    else t :: settleFirst status pid l

/-- The packet of an inject ring is in cells, or was dropped at admission (R458, R459): its descriptors are done with, or the last waits for
the packet's stamp. (DEDUCED, unsafe: log entry 23.) -/
def State.injectDone (s : State) (i : Inject) (pid : Nat) (admitted : Bool) : State :=
  let g := s.ringAt i.ring
  s.setRing i.ring { g with owed := settleFirst (if admitted then 0 else 1) (if admitted then some pid else none) g.owed }

end Sys2Proof.Machine
end

