-- ==== Sys2Proof/Machine/Sl.lean ====
section
/-! DEFINITION. The serial lanes (R428 to R447): enable, bring-up, loss, recalibration, patterns. -/

namespace Sys2Proof.Machine

/-! ### Uplink ports -/

/-- Lanes of an uplink port by ul_mode (R429). -/
def ulWidth (mode : Nat) : Nat :=
  match mode with
  | 0 => 1 | 1 => 4 | _ => 8

def State.ulW (s : State) : Nat := ulWidth (s.rd F.SL_CTRL_ul_mode)

/-- Uplink port k exists in the mode in force. -/
def State.ulExists (s : State) (k : Nat) : Bool := decide (k < 32 / s.ulW)

/-- The lanes of uplink port k. -/
def State.ulLanes (s : State) (k : Nat) : List Nat := (List.range s.ulW).map (fun i => 128 + k * s.ulW + i)

/-- The uplink port of lane l. -/
def State.ulPort (s : State) (l : Nat) : Nat := (l - 128) / s.ulW

/-- A lane is up; an uplink or rope lane also aligned. -/
def State.laneUp (s : State) (l : Nat) : Bool := (s.lane l).st == .up && (isPon l || (s.lane l).aligned)

/-- A PON lane's defect condition (R79, R112): for a set, it has been lost for 1 µs; for a clear, it has not been locked for 1 ms. -/
def State.laneLostFor (s : State) (l : Nat) (set : Bool) : Bool :=
  if set then !s.laneUp l && decide ((s.lane l).edgeAt + microsecond ≤ s.ts.run)
  else !s.laneUp l || decide (s.ts.run < (s.lane l).edgeAt + millisecond)

/-- An uplink port is up while every one of its lanes is (R438). -/
def State.ulUp (s : State) (k : Nat) : Bool := s.ulExists k && (s.ulLanes k).all s.laneUp

def LaneSt.code : LaneSt → Nat
  | .off => 0 | .calibrating => 1 | .training => 2 | .up => 3 | .idle => 4 | .absent => 5 | .fenced => 6 | .test => 7

/-- The lane's port is not enabled: port_en and rx_en 0 for PON lanes (R445). -/
def State.laneFree (s : State) (l : Nat) : Bool :=
  !isPon l || (!s.on F.TP_CTRL_port_en (l % 64) && !s.on F.UB_TREE_CFG_rx_en (l % 64))

/-- Patterns of R443. -/
def patOk (l pat : Nat) : Bool :=
  match pat with
  | 3 | 6 => true
  | 0 | 1 | 2 => isPon l
  | 4 | 5 => !isPon l
  | _ => false

/-! ### Losing and gaining lanes -/

/-- The frame that uplink port k was sending is cut and counted as lost; the line is free (R438). (DESIGN CHOICE, safe: log entry 115.) -/
def State.cutFrame (s : State) (k : Nat) : State :=
  if s.qs.pullAt.get 0 (64 + k) ≤ s.ts.run then s
  else { s with qs := { s.qs with pullAt := s.qs.pullAt.set 0 (64 + k) s.ts.run, cut := s.qs.cut.modify 0 k (· + 1) } }

/-- A rope lane leaves its stripe: the rest re-stripe, or the link goes down with the last (R399, R409). -/
def State.ropeDrop (s : State) (l : Nat) : State :=
  let p := (l - 160) / 8
  let r := s.pr.ropes.get {} p
  let i := (l - 160) % 8
  if !r.lanes.contains i then s
  else
    let lanes := r.lanes.filter (· != i)
    if lanes.isEmpty then
      let r' := { r with lanes := [], st := 0, good := 0, bad := 0, count := none, part := [], restripe := false }
      let s' := { s with pr := { s.pr with ropes := s.pr.ropes.set {} p r' } }
      if r.st = 2 then (s'.raiseNext 9 p 0x8011 0).ropeFell p else s'
    else
      let r' := { r with lanes := lanes, restripe := true }
      { s with pr := { s.pr with ropes := s.pr.ropes.set {} p r' } }

/-- What follows from lane l not being up any more, was telling whether it was: an uplink port goes down (R438), a rope
lane leaves its stripe. -/
def State.laneGone (s : State) (l : Nat) (portWas : Bool) : State :=
  if isUl l then s.when portWas (fun s => (s.raiseNext 10 (s.ulPort l) 0x9011 l).cutFrame (s.ulPort l))
  else if isRope l then s.ropeDrop l
  else s

/-- A fault of a lane (R437); a lasting one fences it, which is a lane-down event of its own (R447). (DEDUCED, safe: log entry 127.) -/
def State.laneFault (s : State) (l : Nat) (hard : Bool) (cause : Nat) : State :=
  let (s', f) := s.faultAt (.lane l) hard cause
  if f then (s'.setLane l { s'.lane l with st := .fenced, cdr := false, grp := false, aligned := false, cal := false }).raiseNext 10 l 0x9002 4
  else s'

/-- A lane's locks without the one lost and those that rest on it. -/
def Lane.unlock (x : Lane) (c : LossCause) : Lane :=
  match c with
  | .cdr => { x with cdr := false, grp := false, aligned := false }
  | .group => { x with grp := false, aligned := false }
  | .alignment => { x with aligned := false }

/-- The lane holds the lock while it still trains (R431). -/
def Lane.holds (x : Lane) (c : LossCause) : Bool :=
  (x.st == .training || x.st == .calibrating) && (match c with
    | .cdr => x.cdr
    | .group => x.grp
    | .alignment => x.aligned)

/-- A lane loses a lock that it holds: 0 CDR, 1 group, 2 alignment (R434, R437). One that was not up yet goes on training. -/
def State.laneLost (s : State) (n : Nat) (c : LossCause) : State :=
  let x := s.lane n
  if x.st != .up then (if !isPon n && x.holds c then ((s.setLane n (x.unlock c)).trainLane n).laneFault n false 2 else s)
  else
    let was := s.ulUp (s.ulPort n)
    let x := x.unlock c
    let code := match c with
      | .cdr => 0
      | .group => 1
      | .alignment => 2
    let t := s.setLane n { x with st := if isPon n then .calibrating else .training }
    let t := (((t.trainLane n).raise 10 n 0x9002 code).count 10 2 n).laneFault n false 2
    (t.lineFrom s n).laneGone n (isUl n && was)

/-- LANE_UP (R433, R434, R438). A rope lane, which has gained group lock, joins its stripe; one skewed by more than 40 ns is left out
of it, an errored frame counted (R435). (DESIGN CHOICE, safe: log entry 115.) -/
def execLaneUp (r : LaneReport) (s : State) : Res :=
  act s fun s =>
    let n := r.lane.val
    let x := s.lane n
    if !(x.st == .calibrating || x.st == .training) || (isPon n && s.domDown (n % 64 / 8)) || (isRope n && !x.grp) then s
    else if isRope n && r.skewed then (s.bump F.PR_ROPE_ERR_errored 1 ((n - 160) / 8)).count 9 2 ((n - 160) / 8)
    else
      let was := s.ulUp (s.ulPort n)
      let s := s.lined n (·.setLane n { x with
        st := .up, cdr := !isPtx n, grp := isRope n, aligned := !isPon n, failedOnce := false, cal := x.cal && isPrx n, retryAt := 0 })
      let s := s.raise 10 n 0x9001 x.st.code
      if isUl n then
        s.when (!was && s.ulUp (s.ulPort n)) (·.raiseNext 10 (s.ulPort n) 0x9010 s.ulW)
      else if isRope n then
        let p := (n - 160) / 8
        let y := s.pr.ropes.get {} p
        let y := { y with lanes := insertNat ((n - 160) % 8) y.lanes, st := if y.st = 2 then 2 else 1 }
        { s with pr := { s.pr with ropes := s.pr.ropes.set {} p y } }
      else s

/-- The limit within which a lane comes up (R433). -/
def bringUp (l : Nat) : Nat := if isPon l then 5 * millisecond else 200 * millisecond

/-- LANE_BRINGUP_TIMEOUT (R433, R434, R437): PTX and PRX go off with a calibration-failed event, twice in a row a hard
fault; UL and rope go absent. -/
def execLaneBringupTimeout (l : LaneNo) (s : State) : Res :=
  act s fun s =>
    let n := l.val
    let x := s.lane n
    if s.ts.run < x.from_ + bringUp n then s
    else if isPon n && x.st == .calibrating then
      let s := s.lined n (·.setLane n { x with st := .off, cdr := false, failedOnce := true, cal := x.cal && isPrx n })
      let s := (s.wr F.SL_LANE_CAL_cal_fail 1 n).raise 10 n 0x9021 0
      s.when x.failedOnce (·.laneFault n true 15)
    else if !isPon n && (x.st == .training || x.st == .calibrating) then
      let at_ := if s.ts.run < x.retryAt then x.retryAt else s.ts.run + second
      let s := (s.lined n (·.setLane n { x with
        st := .absent, cdr := false, grp := false, aligned := false, cal := false, retryAt := at_ })).raise 10 n 0x9003 0
      if isRope n then s.ropeDrop n else s
    else s

/-- The lanes of a rope port whose partner is absent train again (R400). -/
def State.portRetrain (s : State) (p : Nat) : State :=
  let x := s.pr.ropes.get {} p
  let r : Rope := { x with st := 0, lanes := [], good := 0, bad := 0, count := none, part := [], restripe := false }
  let s := { s with pr := { s.pr with ropes := s.pr.ropes.set {} p r } }
  x.lanes.foldl (fun s i =>
    let l := 160 + p * 8 + i
    s.lined l (fun s => (s.setLane l { s.lane l with st := .training, cdr := false, grp := false, aligned := false }).trainLane l)) s

/-- LANE_RETRAIN. An absent lane retrains every 1 s while en = 1, first 1 s after it was found absent (R434); so do the lanes of a rope port
that gives no alignment (R400). (DEDUCED, unsafe: log entry 116.) -/
def execLaneRetrain (l : LaneNo) (s : State) : Res :=
  act s fun s =>
    let x := s.lane l
    let p := (l.val - 160) / 8
    let r := s.pr.ropes.get {} p
    if !s.on F.SL_LANE_CTRL_en l then s
    else if x.st == .absent && x.retryAt ≤ s.ts.run then
      s.lined l (fun s => (s.setLane l { x with st := .training, retryAt := x.retryAt + second }).trainLane l)
    else if isRope l && x.st == .up && r.st == 3 && decide (r.from_ + second ≤ s.ts.run) then s.portRetrain p
    else s

/-- GROUP_LOCK (R431, R432): the groups that a training receiver saw at one bit offset give it lock, as does a comma at any other; its
transmitter then sends rope frames and no further commas. Without lock it slips one bit on; with lock already, 16 invalid groups in 64 lose
it. -/
def execGroupLock (x : LaneGroups) (s : State) : Res :=
  act s fun s =>
    let l := x.lane.val
    let y := s.lane l
    if !isRope l || !(y.st == .training || y.st == .calibrating) then s
    else if y.grp then
      let r := y.receive x.groups
      (s.setLane l { y with descr := r.st, seen := r.seen }).when r.lost (fun s => s.lined l (·.laneLost l .group))
    else match lockAt x.groups with
      | none => s.setLane l { y with slip := (y.slip + 1) % 20 }
      | some k =>
        let gs := if k = 0 then x.groups else slipped k x.groups
        s.lined l (·.setLane l { y with
          cdr := true, grp := true, send := .frames, descr := (y.receive gs).st, seen := 0, slip := (y.slip + k) % 20 })

/-- CHECKER_LOCK (R443). -/
def execCheckerLock (l : LaneNo) (s : State) : Res :=
  act s fun s => if s.on F.SL_LANE_CTRL_chk_en l && !(s.lane l).chk then s.setLane l { s.lane l with chk := true, flipAt := s.ts.run } else s

/-- CHECKER_LOCK_LOSS (R443). -/
def execCheckerLockLoss (l : LaneNo) (s : State) : Res := act s (·.checkerOff l)

/-! ### SL_LANE_CTRL (R433, R436, R442 to R446) -/

/-- en written 1: bring-up starts, blind (R433), but for a rope lane in BIVOUAC, which lies in electrical idle until the move to RUN
(R439); a fenced lane stays fenced until en is written 0. -/
def State.laneOn (s : State) (l : Nat) : State :=
  let x := s.lane l
  let s := s.wr F.SL_LANE_CTRL_en 1 l
  if x.st != .off || (isPon l && s.domDown (l % 64 / 8)) then s
  else if isRope l && s.glb.dev == .bivouac then s.setLane l { x with st := .idle }
  else (s.setLane l { x with st := if isPon l then .calibrating else .training }).trainLane l

/-- en written 0: off within 1 µs; the fence and the tally are cleared (R436, R49). -/
def State.laneOff (s : State) (l : Nat) : State :=
  let x := s.lane l
  let was := s.ulUp (s.ulPort l)
  let s := ((s.checkerOff l).wr F.SL_LANE_CTRL_en 0 l).setLane l {}
  let s := s.when (x.st == .up) (·.raise 10 l 0x9002 3)
  (s.laneGone l (isUl l && was)).fenceClear (.lane l)

/-- loop, gen_en, chk_en, inj_rate and inj_one, where they take effect (R445). In a near-end serial loop the error injected stays inside:
the lane's own checker counts it (R442, R444). -/
def State.laneTests (s : State) (l v : Nat) : State :=
  if !(s.glb.dev == .ready || s.glb.dev == .test) || !s.laneFree l then s
  else
    let s := s.keepErrs l
    let s := if isPon l then s else s.wr F.SL_LANE_CTRL_loop (bits v 5 4) l
    let s := ((s.wr F.SL_LANE_CTRL_gen_en (bits v 6 6) l).wr F.SL_LANE_CTRL_chk_en (bits v 7 7) l).wr
      F.SL_LANE_CTRL_inj_rate (bits v 19 16) l
    let s := s.when (!bit v 7) (·.checkerOff l)
    let s := s.when ((s.lane l).chk) (fun s => s.setLane l { s.lane l with flipAt := s.ts.run })
    s.when (bit v 15 && bit v 6) fun s =>
      if s.rd F.SL_LANE_CTRL_loop l != 1 then s.emit (.errorBit l)
      else s.when (s.lane l).chk (·.wr F.SL_LANE_ERRS_errors (sat 0xFFFFFFFF (s.rd F.SL_LANE_ERRS_errors l + 1)) l)

/-- An SL register write of the owner (R446). -/
def State.slWrite (s : State) (r : Requester) (f : State → State) : State :=
  match r with
  | .vf _ => s
  | _ => if s.regsOff 10 then s else if s.owns r then f s else s.wr F.SL_STATUS_not_owner 1

/-- A write of SL_LANE_CTRL. A pattern not listed for the lane refuses it with result 4, the register unchanged (R443). -/
def State.laneCtrl (s : State) (r : Requester) (l v : Nat) : State :=
  s.slWrite r fun s =>
    if !patOk l (bits v 11 8) && bits v 11 8 != s.rd F.SL_LANE_CTRL_pat l then s.wr F.SL_CMD_STATUS_result 4
    else s.lined l fun s =>
      let s := ((s.keepErrs l).wr F.SL_LANE_CTRL_pat (bits v 11 8) l).laneTests l v
      if bit v 0 then s.laneOn l else s.laneOff l

/-- LANE_ENABLE: the write with en = 1. -/
def execLaneEnable (r : Requester) (l : LaneNo) (v : Word) (s : State) : Res :=
  act s (·.laneCtrl r l (v ||| 1).toNat)
/-- LANE_DISABLE: the write with en = 0. -/
def execLaneDisable (r : Requester) (l : LaneNo) (v : Word) (s : State) : Res :=
  act s (·.laneCtrl r l (v &&& 0xFFFFFFFE).toNat)
/-- ERROR_INJECT: the write with inj_one = 1 (R444). -/
def execErrorInject (r : Requester) (l : LaneNo) (v : Word) (s : State) : Res :=
  act s (·.laneCtrl r l (v ||| 0x8000).toNat)

/-! ### SL_CMD (R434, R441) -/

/-- A lane command: 6, 1 while busy, 2 for a lane out of range. -/
def State.slCmd (s : State) (r : Requester) (l : Nat) (f : State → State × Nat) : State :=
  match r with
  | .vf _ => s
  | _ =>
    if s.regsOff 10 then s
    else if !s.owns r then s.wr F.SL_CMD_STATUS_result 6
    else if s.on F.SL_CMD_STATUS_busy then s.wr F.SL_CMD_STATUS_result 1
    else
      let (s', n) := if 175 < l then (s, 2) else f s
      (s'.wr F.SL_CMD_STATUS_result n).wr F.SL_CMD_STATUS_lane l

/-- LANE_QUERY. -/
def execLaneQuery (r : Requester) (l : BitVec 8) (s : State) : Res := act s fun s => s.slCmd r l.toNat fun s => (s, 0)

/-- A recalibration begins on PRX lane l (R440). -/
def State.calStart (s : State) (l : Nat) : State := s.setLane l { s.lane l with cal := true, steps := 0 }

/-- LANE_RECALIBRATE (R441). A PTX, uplink or rope lane goes down and comes up again; the cause that its lane-down event then carries the spec does
not say: it is free. (DESIGN CHOICE, safe: log entry 130.) -/
def execLaneRecalibrate (r : Requester) (l : BitVec 8) (s : State) : Res :=
  act s fun s => s.slCmd r l.toNat fun s =>
    let n := l.toNat
    if isPrx n then
      if s.glb.dev == .boot || s.glb.dev == .safe then (s, 3) else (s.calStart n, 0)
    else if !(s.glb.dev == .ready || s.glb.dev == .test) then (s, 3)
    else
      let x := s.lane n
      if x.st == .off || x.st == .fenced then (s, 0)
      else
        let was := s.ulUp (s.ulPort n)
        let s := s.lined n fun s => (s.setLane n { x with
          st := .calibrating, cal := true, steps := 0, cdr := false, grp := false, aligned := false }).trainLane n
        let s := s.when (x.st == .up) (fun s => s.tickFresh.raise 10 n 0x9002 (Config.free 27 s.fresh % 16))
        (s.laneGone n (isUl n && was), 0)

/-- RETRAIN_NOW (R434, R447). In BIVOUAC a rope lane stays in electrical idle (R439; DEDUCED, safe: log entry 127). -/
def execRetrainNow (r : Requester) (l : BitVec 8) (s : State) : Res :=
  act s fun s => s.slCmd r l.toNat fun s =>
    let n := l.toNat
    let x := s.lane n
    if isPon n then (s, 4)
    else if s.glb.dev == .boot || s.glb.dev == .safe then (s, 3)
    else if x.st == .off || x.st == .fenced || (isRope n && s.glb.dev == .bivouac) then (s, 0)
    else
      let was := s.ulUp (s.ulPort n)
      let s := s.lined n fun s => (s.setLane n { x with
        st := .training, cdr := false, grp := false, aligned := false, cal := x.cal && isPrx n }).trainLane n
      let s := s.when (x.st == .up) (·.raise 10 n 0x9002 5)
      (s.laneGone n (isUl n && was), 0)

/-! ### Calibration of PRX lanes (R440) -/

/-- CALIBRATION_START, every cal_period (0 acts as 1). -/
def execCalibrationStart (p : Port) (s : State) : Res :=
  act s fun s =>
    let l := 64 + p.val
    if !s.on F.UB_TREE_CFG_rx_en p || s.ts.run < (s.lane l).calDue then s
    else
      let s := s.setLane l { s.lane l with calDue := s.ts.run + max 1 (s.rd F.SL_CTRL_cal_period) * millisecond }
      if (s.lane l).cal then (s.wr F.SL_LANE_CAL_cal_late 1 l).raise 10 l 0x9020 (s.lane l).steps
      else s.calStart l

/-- A tree group comes up: every lane of it whose en is 1 is brought up again (R502). -/
def State.groupLanesUp (s : State) (g : Nat) : State :=
  State.each 8 (fun s i =>
    let one := fun (s : State) l => if s.on F.SL_LANE_CTRL_en l && (s.lane l).st == .off then
      s.lined l (fun s => (s.setLane l { s.lane l with st := .calibrating }).trainLane l) else s
    one (one s (g * 8 + i)) (64 + g * 8 + i)) s

/-- A tree group goes down: its lanes stand off. -/
def State.groupLanesDown (s : State) (g : Nat) : State :=
  State.each 8 (fun s i =>
    let one := fun (s : State) l => if (s.lane l).st == .fenced then s
      else s.lined l (·.setLane l { s.lane l with st := .off, cdr := false, cal := false })
    one (one s (g * 8 + i)) (64 + g * 8 + i)) s

end Sys2Proof.Machine
end

