-- ==== Sys2Proof/Machine/Tp.lean ====
section
/-! DEFINITION. The tree ports' commands (R64 to R80): TP_CTRL, the key commands, defects. The frame itself is built by
EGRESS_PULL and FRAME_INSTANT. -/

namespace Sys2Proof.Machine

/-! ### TP_CTRL (R71, R72, R75, R76, R78) -/

/-- port_en is refused: 1 with wrong pair modes, 2 with no PTX lane; where both hold, 1 (R72, R78). (DESIGN CHOICE, unsafe: log
entry 102.) -/
def State.enRefusal (s : State) (p : Nat) : Nat :=
  if s.paired p && (s.on F.TP_CTRL_ds_mode (evenOf p) || !s.on F.TP_CTRL_ds_mode (evenOf p + 1)) then 1
  else if !s.laneUp p then 2 else 0

/-- The value stored by a write of TP_CTRL. -/
def State.tpCtrl (s : State) (p v : Nat) : State :=
  let even := p % 2 == 0 && s.feat 1
  let idle := fun q => !s.on F.TP_CTRL_port_en q
  let was := s.on F.TP_CTRL_port_en p
  let both := idle p && idle (p + 1)
  let free := idle p
  let s := s.wr F.TP_CTRL_key_grace (bits v 15 8) p
  let s := s.when even (·.wr F.TP_CTRL_pair_us_shared (bits v 3 3) p)
  let s := s.when (even && both) (·.wr F.TP_CTRL_pair_en (bits v 2 2) p)
  let s := s.when free (·.wr F.TP_CTRL_ds_mode (bits v 1 1) p)
  if !bit v 0 then s.wr F.TP_CTRL_port_en 0 p
  else if was then s
  else
    let n := s.enRefusal p
    (s.wr F.TP_STATUS_en_status n p).wr F.TP_CTRL_port_en (b2n (n == 0)) p

/-- TP_CTRL_WRITE. -/
def execTpCtrlWrite (r : Requester) (p : Port) (v : Word) (s : State) : Res :=
  act s fun s => if !s.reach r 1 || s.portDown 1 p then s
    else
      let s := s.tpCtrl p v.toNat
      s.mirror r [(F.TP_CTRL_port_en.at_ p, v.toNat)] none (s.rd F.TP_STATUS_en_status p)

/-! ### Key slots (R64 to R70) -/

def KeyCtx.slot (k : KeyCtx) (b : Bool) : KeySlot := if b then k.slot1 else k.slot0
def KeyCtx.setSlot (k : KeyCtx) (b : Bool) (x : KeySlot) : KeyCtx := if b then { k with slot1 := x } else { k with slot0 := x }

/-- The frames of key_grace, in units of 10 ms, 80 frames, 0 acting as 1 (R65). -/
def State.graceFrames (s : State) (t : Nat) : Nat := 80 * max 1 (s.rd F.TP_CTRL_key_grace (s.ctx t).port)

/-- The grace of a superseded slot of context t has passed: key_grace has gone by since the frame of its switch (R65, R67). -/
def State.graceOver (s : State) (t : Nat) : Bool :=
  match (s.keyCtx t).grace with
  | none => true
  | some (_, f) => decide (s.graceFrames t ≤ (s.ts.frame + (2 ^ 32 - f)) % 2 ^ 32)

/-- A slot of context t is live: active while it holds a key, the target of a pending switch, or in its grace (R65, R420).
(DEDUCED, unsafe: log entry 37.) -/
def State.keyLive (s : State) (t : Nat) (b : Bool) : Bool :=
  let k := s.keyCtx t
  (k.active == b && (k.slot b).valid) || (match k.pend with
    | some (_, t, _) => t == b
    | none => false) || ((k.grace.map (·.1)) == some b && !s.graceOver t)

/-- The count of the next frame that port p will start. -/
def State.nextSfc (s : State) (p : Nat) : Nat := s.rd F.TP_SFC_sfc p

/-- The frame at which a switch asked for now takes effect (R66): the count asked for, but not before the second frame after
the command. -/
def State.switchAt (s : State) (p want : Nat) : Nat :=
  let first := (s.nextSfc p + 1) % 2 ^ 32
  if reached want first then want % 2 ^ 32 else first

/-- TP_KEY_STATUS after a command. -/
def State.keyReply (s : State) (p : Nat) (group : Bool) (t res : Nat) (known : Bool) : State :=
  let k := s.keyCtx t
  let g := s.port p
  let (v0, v1) := if group then (g.group0.valid, g.group1.valid) else (k.slot0.valid, k.slot1.valid)
  let s := (s.wr F.TP_KEY_STATUS_result res p).wr F.TP_KEY_STATUS_term t p
  let s := (s.wr F.TP_KEY_STATUS_valid0 (b2n (known && v0)) p).wr F.TP_KEY_STATUS_valid1 (b2n (known && v1)) p
  (s.wr F.TP_KEY_STATUS_active_slot (b2n (known && !group && k.active)) p).wr F.TP_KEY_STATUS_pending
    (b2n (known && !group && k.pend.isSome)) p

/-- The key that TP_KEY_DATA0 to 3 hold. -/
def State.keyData (s : State) (p : Nat) : Nat :=
  s.rd F.TP_KEY_DATA0_key p + s.rd F.TP_KEY_DATA1_key p * 2 ^ 32 + s.rd F.TP_KEY_DATA2_key p * 2 ^ 64
    + s.rd F.TP_KEY_DATA3_key p * 2 ^ 96

/-- The data registers are cleared once captured (R70). -/
def State.keyClear (s : State) (p : Nat) : State :=
  (((s.wr F.TP_KEY_DATA0_key 0 p).wr F.TP_KEY_DATA1_key 0 p).wr F.TP_KEY_DATA2_key 0 p).wr F.TP_KEY_DATA3_key 0 p

/-- The register writes that gave a key command (R379). -/
def State.keyWrites (s : State) (p op : Nat) (group slot : Bool) (t : Nat) : List (Nat × Nat) :=
  [(F.TP_KEY_DATA0_key.at_ p, s.rd F.TP_KEY_DATA0_key p), (F.TP_KEY_DATA1_key.at_ p, s.rd F.TP_KEY_DATA1_key p),
   (F.TP_KEY_DATA2_key.at_ p, s.rd F.TP_KEY_DATA2_key p), (F.TP_KEY_DATA3_key.at_ p, s.rd F.TP_KEY_DATA3_key p),
   (F.TP_KEY_SFC_switch_sfc.at_ p, s.rd F.TP_KEY_SFC_switch_sfc p),
   (F.TP_KEY_CMD_op.at_ p, op * 2 ^ 30 + b2n group * 2 ^ 29 + b2n slot * 2 ^ 28 + t)]

/-- A TP_KEY_CMD command: 6 for any other requester than the owner of key management (R69) and, but for a query, on a standby
(R377); 1 while busy; 2 for a context of another tree (R64). f answers the state, the result and the resolved value. A write command
takes the data words and clears them, refused with 2 or 3 too; another op leaves them (R70). (DEDUCED, unsafe: log entry 103.) -/
def State.keyCmd (s : State) (r : Requester) (p op : Nat) (group slot : Bool) (t : Nat)
    (f : State → State × Nat × Option Nat) : State :=
  if s.portDown 1 p || s.pcieBoot then s
  else if !(if op = 0 then s.owns r else s.may r 1) then (match r with
    | .vf _ => s
    | _ => s.wr F.TP_KEY_STATUS_result 6 p)
  else if s.on F.TP_KEY_STATUS_busy p then s.wr F.TP_KEY_STATUS_result 1 p
  else
    let ws := s.keyWrites p op group slot t
    let known := group || s.onTree t p
    let (s', res, val) := if known then f s else (s, 2, none)
    let s' := (s'.when (op == 1) (·.keyClear p)).keyReply p group t res known
    if res = 0 && op != 0 then s'.mirror r ws val 0 else s'

/-- KEY_QUERY. -/
def execKeyQuery (r : Requester) (p : Port) (group : Bool) (t : Term) (s : State) : Res :=
  act s fun s => s.keyCmd r p 0 group false t fun s => (s, 0, none)

/-- A slot of the context, or of the port's group, set unless it is live (R65). Group slots are never live. -/
def State.slotSet (s : State) (p : Nat) (group slot : Bool) (t : Nat) (x : KeySlot) : State × Nat × Option Nat :=
  if group then
    (s.setPort p (if slot then { s.port p with group1 := x } else { s.port p with group0 := x }), 0, none)
  else if s.keyLive t slot then (s, 3, none)
  else (s.setKeyCtx t ((s.keyCtx t).setSlot slot x), 0, none)

/-- KEY_WRITE (R65, R70). -/
def execKeyWrite (r : Requester) (p : Port) (group slot : Bool) (t : Term) (s : State) : Res :=
  act s fun s => s.keyCmd r p 1 group slot t fun s => s.slotSet p group slot t ⟨true, s.keyData p⟩

/-- KEY_INVALIDATE (R65). -/
def execKeyInvalidate (r : Requester) (p : Port) (group slot : Bool) (t : Term) (s : State) : Res :=
  act s fun s => s.keyCmd r p 2 group slot t fun s => s.slotSet p group slot t {}

/-- KEY_SWITCH (R66): the count is that of the port the terminal lies on. -/
def execKeySwitch (r : Requester) (p : Port) (group slot : Bool) (t : Term) (s : State) : Res :=
  act s fun s => s.keyCmd r p 3 group slot t fun s =>
    let k := s.keyCtx t
    if group then (s, 4, none)
    else if !(k.slot slot).valid then (s, 4, none)
    else if k.pend.isSome then (s, 5, none)
    else if k.active == slot then (s, 7, none)
    else
      let q := (s.ctx t).port
      let at_ := s.switchAt q (s.rd F.TP_KEY_SFC_switch_sfc p)
      ((s.setKeyCtx t { k with pend := some (q, slot, at_) }).wr F.TP_KEY_ACTUAL_actual_sfc at_ p, 0, some at_)

/-- KEY_GRACE_EXPIRE (R65): a notice before key_grace has passed does nothing. -/
def execKeyGraceExpire (t : Term) (s : State) : Res :=
  act s fun s => if s.graceOver t then s.setKeyCtx t { s.keyCtx t with grace := none } else s

/-- The pending switch of context t takes effect (R67): the event, and the superseded slot's grace. -/
def State.keySwitched (s : State) (t : Nat) : State :=
  let k := s.keyCtx t
  match k.pend with
  | none => s
  | some (q, slot, _) =>
    let s := s.setKeyCtx t { k with active := slot, pend := none, grace := some (!slot, s.ts.frame) }
    (s.raise 1 q 0x0300 (t + b2n slot * 2 ^ 14)).sendCairn (.change (.keySwitched (Fin.ofNat 16384 t) slot))

/-! ### Defects (R79, R80) -/

def State.tpHas (s : State) (p d : Nat) : Bool := bit (s.rd F.TP_STATUS_defects p) d

/-- A defect sets or clears, latching as it sets, with its event unless masked; a clear goes before the sets of its frame (R80). -/
def State.tpDefect (s : State) (p d : Nat) (set : Bool) : State :=
  let m := s.rd F.TP_STATUS_defects p
  if s.tpHas p d == set then s
  else
    let s := s.wr F.TP_STATUS_defects (if set then m + 2 ^ d else m - 2 ^ d) p
    let s := s.when set (·.wr F.TP_DEFECT_latched (s.rd F.TP_DEFECT_latched p ||| 2 ^ d) p)
    s.when (!bit (s.rd F.TP_DEFECT_mask p) d) fun s =>
      let t := s.raise 1 p ((if set then 0x0100 else 0x0200) + d) 0
      if set || t.evu.last.isNone then t else t.clearFirst p

/-- The port has had 8 frames with an underrun within 1 ms, the last of them less than 1 ms ago (R79). -/
def TpPort.underEight (x : TpPort) (run : Nat) : Bool :=
  match x.underAt, x.underAt[7]? with
  | a :: _, some b => decide (a ≤ b + millisecond) && decide (run < a + millisecond)
  | _, _ => false

/-- dDARK (R79): for a set, the port has framed with LASER_EN deasserted for 125 µs; for a clear, it has not ceased to for 125 µs. -/
def State.dark (s : State) (p : Nat) (set : Bool) : Bool :=
  let x := s.port p
  let long := fun since => decide (since + 125 * microsecond ≤ s.ts.run)
  let now := x.framing && !s.belay.laser
  if set then now && long (max x.framingAt s.belay.laserAt)
  else now || !((!x.framing && long x.framingAt) || (s.belay.laser && long s.belay.laserAt))

/-- The condition of a defect, for a set: it has persisted for the set time; for a clear: its absence has not persisted for the clear
time (R79). -/
def State.tpCondition (s : State) (p d : Nat) (set : Bool) : Bool :=
  let x := s.port p
  match d with
  | 0 => s.laneLostFor p set
  | 1 => (!s.isStandby && x.heldMap) || (!set && decide (x.goodMaps < 16))
  | 2 => !set && decide (s.ts.run < x.discardAt + 10 ^ 9 * 2 ^ 40)
  | 3 => if set then x.underEight s.ts.run else x.underAt.head?.any (fun a => decide (s.ts.run < a + millisecond))
  | _ => s.dark p set

/-- TP_DEFECT_TIMER. (DEDUCED, safe: log entry 7.) -/
def execTpDefectTimer (p : Port) (d : Fin 5) (set : Bool) (s : State) : Res :=
  act s fun s => if s.portDown 1 p || s.tpCondition p d set != set then s else s.tpDefect p d set

end Sys2Proof.Machine
end

