-- ==== Sys2Proof/Machine/Pm.lean ====
section
/-! DEFINITION. Performance counters (R488 to R498): bead configuration, level beads, the reckoner's windows. -/

namespace Sys2Proof.Machine

/-- The classes of the event catalogue that count occurrences, by block row (R494). -/
def edgeClasses (b : Nat) : List Nat :=
  match b with
  | 0 => [1, 2] | 1 => [1, 2, 3, 4, 5] | 2 => [1, 2, 3, 4, 5, 6] | 3 => [1, 2, 3] | 4 => [1, 2, 3] | 5 => [1, 2, 3]
  | 6 => [1, 2, 3] | 7 => [1, 2, 3, 4, 5] | 8 => [1] | 9 => [1, 2] | 10 => [1, 2] | 11 => [1, 2, 3] | 12 => [1]
  | 13 => [1] | _ => []

/-- The classes that hold for a time: UB, QS, BM and PW have class 0x10 (R494). -/
def levelClasses (b : Nat) : List Nat := if [2, 6, 7, 14].contains b then [0x10] else []

/-- The owner writes the PM registers (R497). -/
def State.pmWrite (s : State) (r : Requester) (f : State → State) : State :=
  match r with
  | .vf _ => s
  | _ => if s.regsOff 13 then s else if s.owns r then f s else s.wr F.PM_STATUS_not_owner 1

/-- A bead cleared under the next epoch (R490, R493). -/
def Bead.restart (b : Bead) : Bead := { b with cnt := 0, sat := false, epoch := (b.epoch + 1) % 256 }

/-- BEAD_CFG_WRITE (R489, R490). -/
def execBeadCfgWrite (r : Requester) (b : Fin 15) (k : Fin 16) (v : Word) (s : State) : Res :=
  act s fun s => s.pmWrite r fun s =>
    let i := b.val * 16 + k.val
    let n := v.toNat
    let cls := bits n 15 10
    if !(edgeClasses b ++ levelClasses b).contains cls then s.wr F.PM_STATUS_cfg_err 1
    else
      let same := s.rd F.PM_BEAD_CFG_event i == bits n 15 0 && s.rd F.PM_BEAD_CFG_mode i == bits n 16 16
        && s.rd F.PM_BEAD_CFG_tenant_en i == bits n 17 17 && s.rd F.PM_BEAD_CFG_tenant i == bits n 27 20
      let s := ((s.wr F.PM_BEAD_CFG_event (bits n 15 0) i).wr F.PM_BEAD_CFG_mode (bits n 16 16) i).wr
        F.PM_BEAD_CFG_tenant_en (bits n 17 17) i
      let s := (s.wr F.PM_BEAD_CFG_tenant_vis (bits n 18 18) i).wr F.PM_BEAD_CFG_tenant (bits n 27 20) i
      if same && !bit n 19 then s
      else { s with pm := { s.pm with beads := s.pm.beads.modify {} i Bead.restart } }

/-- Nanoseconds of a level condition added to the beads in level mode of block b (R489): of the instances where it holds. -/
def State.countLevel (s : State) (b ns : Nat) (held : List Nat) : State :=
  if s.blkDown b || ns == 0 then s
  else
    let one := fun (t : Tab Bead) k =>
      let i := b * 16 + k
      let ev := s.rd F.PM_BEAD_CFG_event i
      let n := if noInstance b 0x10 then min 1 held.length else if ev % 1024 == 0x3FF then held.length else if held.contains (ev % 1024) then 1 else 0
      if ev / 1024 == 0x10 && s.on F.PM_BEAD_CFG_mode i && !s.on F.PM_BEAD_CFG_tenant_en i && n != 0 then
        t.modify {} i (Bead.add · (n * ns)) else t
    { s with pm := { s.pm with beads := (List.range 16).foldl one s.pm.beads } }

/-- A bead at a window boundary (R493, R495). -/
def Bead.latch (b : Bead) (down : Bool) : Bead :=
  if down then { b with gone := true } else { b with win := b.cnt, winSat := b.sat, winEpoch := b.epoch, gone := false }

/-- The beads at a window boundary; those of blocks that are down carry their last snapshot on (R493). -/
def State.latchBeads (s : State) : Tab Bead :=
  let t := s.pm.beads.mapAll {} (fun i x => x.latch (s.blkDown (i / 16)))
  ((List.range 15).filter s.blkDown).foldl (fun t b =>
    (List.range 16).foldl (fun t k => t.modify {} (b * 16 + k) (fun x => { x with gone := true })) t) t

/-- The block row of a meter (R496). -/
def meterBlock (m : Nat) : Nat := if m < 64 then 1 else if m < 128 then 2 else if m < 192 then 10 else 9

/-- The meter's block was down now. -/
def State.meterDown (s : State) (m : Nat) : Bool :=
  if m < 64 then s.portDown 1 m else if m < 128 then s.portDown 2 (m - 64) else s.blkDown (meterBlock m)

/-- A meter at a window boundary of w ns (R496). -/
def Meter.latch (x : Meter) (w : Nat) (down : Bool) : Meter :=
  { cur := 0, downSeen := down, bytes := sat (2 ^ 32 - 1) x.cur, mbps := sat (2 ^ 31 - 1) (x.cur * 8000 / w),
    bad := x.downSeen || down || decide (2 ^ 32 - 1 ≤ x.cur) }

/-- The nanoseconds of run count since the last boundary. -/
def State.windowNs (s : State) : Nat := s.ts.run / 2 ^ 40 - s.pm.boundary / 2 ^ 40

/-- WINDOW_CLOSE. Not before window_us has passed on the run count; not in BOOT (R495). -/
def execWindowClose (s : State) : Res :=
  act s fun s =>
    let w := s.windowNs
    if s.glb.dev == .boot || s.blkDown 13 || w < s.pm.length * 1000 || w = 0 then s
    else
      let n := (s.pm.window + 1) % 2 ^ 32
      let ms := (List.range 196).foldl (fun (t : Tab Meter) m => t.modify {} m (fun x => x.latch w (s.meterDown m))) s.pm.meters
      let s := { s with pm := {
        beads := s.latchBeads, meters := ms, window := n, boundary := s.ts.run,
        length := max 1 (s.rd F.PM_CTRL_window_us), stamp := s.stamp } }
      (s.raise 13 0 0xC001 n).count 13 1 0

/-- The rods of a block restart at 0 under the next epoch as it comes up (R493). -/
def State.rodsRestart (s : State) (b : Nat) : State :=
  { s with pm := { s.pm with
    beads := (List.range 16).foldl (fun t k => t.modify {} (b * 16 + k) Bead.restart) s.pm.beads } }

/-- The meters of a block that is down are marked for the window in progress (R496). -/
def State.metersDown (s : State) : State :=
  { s with pm := { s.pm with meters := (List.range 196).foldl (fun t m =>
      if s.meterDown m then t.modify {} m (fun x => { x with downSeen := true }) else t) s.pm.meters } }

end Sys2Proof.Machine
end

