-- ==== Sys2Proof/Machine/Ts.lean ====
section
/-! DEFINITION. The time base (R349 to R370): one reference cycle, steps and wraps, alignment, 1PPS, time of day, fibre
delays. -/

namespace Sys2Proof.Machine

/-! ### The counter -/

/-- The nanosecond field and its 40-bit fraction wrap at 2^72. -/
def tbSpan : Int := 2 ^ 72

/-- The wrap event: direction, wrap count after (R355, R370); source 6. -/
def State.wrapEvent (s : State) (dir wrap : Nat) : State :=
  (s.raiseAfter none 8 0 0x7001 (dir * 2 ^ 31 + wrap % 256) true).ring 6

/-- The time base after an update by d, in 2^-40 ns (R355). -/
def State.addTime (s : State) (d : Int) : State :=
  let t := (s.ts.tb : Int) + d
  if t < 0 then
    let w := (s.ts.wrap + 255) % 256
    { s with ts := { s.ts with tb := (t + tbSpan).toNat, wrap := w, turns := s.ts.turns - 1 } }.wrapEvent 1 w
  else if tbSpan ≤ t then
    let w := (s.ts.wrap + 1) % 256
    { s with ts := { s.ts with tb := (t - tbSpan).toNat, wrap := w, turns := s.ts.turns + 1 } }.wrapEvent 0 w
  else { s with ts := { s.ts with tb := t.toNat } }

/-- The step's ns, as the step event carries it (R370). -/
def stepNs (d : Int) : Int := d / 2 ^ 24

/-- One reference cycle of the counter alone (R349, R351, R352, R354): a staged increment takes effect, a scheduled step
is added to the cycle's increment, the run count advances by the increment. -/
def State.cycle (s : State) : State :=
  let incr := s.ts.incrNext.getD s.ts.incr
  let run0 := s.ts.run
  let step := s.ts.step
  let s := { s with ts := { s.ts with
    incr := incr, incrNext := none, step := none, run := run0 + incr, phase := s.ts.phase + 1 } }
  let s := s.addTime ((incr : Int) + (step.getD 0) * 2 ^ 16)
  match step with
  | none => s
  | some d => ((s.wr F.TS_STATUS_adj_busy 0).raise 8 0 0x7002 (satSigned 32 (stepNs d))).count 8 1 0

/-- n further reference cycles with nothing scheduled and no wrap but at their end: time, run count and phase alone. -/
def State.smooth (s : State) (n : Nat) : State :=
  { s with ts := { s.ts with run := s.ts.run + n * s.ts.incr, phase := s.ts.phase + n } }.addTime (n * s.ts.incr : Nat)

/-- n further reference cycles with nothing scheduled in them: a wrap among them is raised and stamped at its own cycle (R355). -/
def State.cycles (s : State) (n : Nat) : State :=
  let k := ceilDiv (tbSpan - s.ts.tb).toNat s.ts.incr
  if 0 < k && k < n then (s.smooth k).smooth (n - k) else s.smooth n

/-- The time base with every wrap counted in, in 2^-40 ns (R253). -/
def State.longTime (s : State) : Int := s.ts.turns * tbSpan + s.ts.tb

/-- The cycles left in the frame. -/
def State.cyclesLeft (s : State) : Nat := 19440 - s.ts.phase

/-- n cycles: the first takes what is scheduled. -/
def State.advance (s : State) (n : Nat) : State :=
  if n = 0 then s else if s.ts.step.isSome || s.ts.incrNext.isSome then s.cycle.cycles (n - 1) else s.cycles n

/-- The time base follows the partner or the anchor (R353). -/
def State.slaved (s : State) : Bool := s.glb.modeIn && (s.glb.role == .standby || s.glb.role == .follower)

/-- A TS write of the owner (R353). -/
def State.tsWrite (s : State) (r : Requester) (f : State → State) : State :=
  match r with
  | .vf _ => s
  | _ => if s.regsOff 8 then s else if s.owns r then f s else s.wr F.TS_STATUS_not_owner 1

/-! ### Time-of-day records (R367 to R369) -/

/-- A number of 2^-40 ns in the stamp format, its wrap count included (R350). -/
def stampOf (t : Int) : Nat :=
  let u := (t % (tbSpan * 256)).toNat
  u / 2 ^ 16 % 2 ^ 56 * 2 ^ 8 + u / 2 ^ 72

/-- The time base with its wrap count, in 2^-40 ns. -/
def State.fullTime (s : State) : Int := (s.ts.wrap : Int) * tbSpan + s.ts.tb

def State.asym (s : State) (k : Nat) : Int := if k < 64 then signed 32 (s.rd F.TS_PORT_ASYM_asym k) else 0

/-- D_0 of a port in 2^-40 ns (R367); latencies in 0.1 ns, teq in 0.1 µs. -/
def State.d0 (s : State) (p : Nat) : Int :=
  let le : Int := s.rd F.TS_PORT_LAT_lat_eg p
  let li : Int := s.rd F.TS_PORT_LAT_lat_in p
  let teq : Int := s.rd F.GE_DISC_DIST_teq (s.treeNo p) * 1000
  (le * 10 ^ 9 + (teq - le - li) * (5 * 10 ^ 8 + s.asym p)) * 2 ^ 40 / 10 ^ 10

def State.todOf (s : State) (p : Nat) : Tod := s.ts.tod.get {} p
def State.setTod (s : State) (p : Nat) (x : Tod) : State := { s with ts := { s.ts with tod := s.ts.tod.set {} p x } }

/-- S lies how many frames after the frame in transmission, by signed difference on 32 bits. -/
def State.todAhead (s : State) (p sfc : Nat) : Int := signed 32 (sfc + (2 ^ 32 - (s.port p).sfc % 2 ^ 32))

/-- The record of port p for S, predicted from the current time, the increment of the cycles to come and their number until frame S
(R368). -/
def State.predict (s : State) (p sfc : Nat) : Nat :=
  let cycles : Int := (s.cyclesLeft : Int) + (s.todAhead p sfc - 1) * 19440
  stampOf (s.fullTime + cycles * (s.ts.incrNext.getD s.ts.incr : Nat) + s.d0 p)

/-- A pending record recomputed (R369). -/
def State.todAgain (s : State) (p : Nat) : State :=
  let x := s.todOf p
  if !x.pending then s
  else ((s.setTod p { x with record := s.predict p x.sfc }).wr F.TS_TOD_STATUS_changed 1).raise 8 p 0x7010 x.sfc

/-- Every pending record recomputed, after a step or an increment. -/
def State.todAll (s : State) : State := (s.ts.tod.map (·.1)).foldl State.todAgain s

/-- A time-of-day command of the owner: 6, 1 while busy. -/
def State.todCmd (s : State) (r : Requester) (p : Nat) (f : State → State × Nat) : State :=
  match r with
  | .vf _ => s
  | _ =>
    if s.regsOff 8 then s
    else if !s.owns r then (s.wr F.TS_STATUS_not_owner 1).wr F.TS_TOD_STATUS_result 6
    else if s.on F.TS_TOD_STATUS_busy then s.wr F.TS_TOD_STATUS_result 1
    else
      let (s', n) := f s
      (s'.wr F.TS_TOD_STATUS_result n).wr F.TS_TOD_STATUS_port p

/-- TOD_QUERY. -/
def execTodQuery (r : Requester) (p : Port) (s : State) : Res := act s fun s => s.todCmd r p fun s => (s, 0)

/-- TOD_COMPUTE (R367, R368). (DEDUCED, unsafe: log entry 18.) -/
def execTodCompute (r : Requester) (p : Port) (s : State) : Res :=
  act s fun s => s.todCmd r p fun s =>
    let sfc := s.rd F.TS_TOD_SFC_sfc
    let d := s.todAhead p sfc
    if !(s.port p).framing then (s, 3)
    else if d < 2 || 8000 < d then (s, 2)
    else (s.setTod p { sfc := sfc, record := s.predict p sfc, pending := true, final := false }, 0)

/-- TOD_CANCEL. -/
def execTodCancel (r : Requester) (p : Port) (s : State) : Res :=
  act s fun s => s.todCmd r p fun s =>
    (if (s.todOf p).pending then s.setTod p { s.todOf p with pending := false } else s, 0)

/-- The record of a port becomes final as frame S leaves at this instant (R369). -/
def State.todFinal (s : State) (p : Nat) : State :=
  let x := s.todOf p
  if x.pending && x.sfc == (s.port p).sfc % 2 ^ 32 then
    s.setTod p { x with record := stampOf (s.fullTime + s.d0 p), pending := false, final := true }
  else s

/-! ### Increment and steps -/

/-- An increment within ±1,000 ppm of nominal (R351). -/
def incrLegal (n : Nat) : Bool :=
  !(decide (n * 10 ^ 6 < 6423611 * 2 ^ 40) || decide (6436471 * 2 ^ 40 < n * 10 ^ 6))

/-- TS_INCR_WRITE. The upper slot makes the increment of both slots take effect at the next cycle; outside ±1,000 ppm of
nominal it is ignored (R351). v holds bits 47:32; the lower slot is as staged. -/
def execTsIncrWrite (r : Requester) (v : Word) (s : State) : Res :=
  act s fun s => s.tsWrite r fun s =>
    let n := bits v.toNat 15 0 * 2 ^ 32 + s.rd F.TS_INCR_incr % 2 ^ 32
    if s.slaved then s
    else if !incrLegal n then s.wr F.TS_STATUS_incr_err 1
    else { s.wr F.TS_INCR_incr n with ts := { s.ts with incrNext := some n } }.todAll

/-- The signed step of TS_ADJ in 2^-24 ns (R354). -/
def State.adjStep (s : State) (hi : Nat) : Int := signed 32 hi * 2 ^ 24 + (s.rd F.TS_ADJ_frac : Int)

/-- The step, added to the next increment, would wrap the nanosecond field (R357). -/
def State.wouldWrap (s : State) (d : Int) : Bool :=
  let t := (s.ts.tb : Int) + (s.ts.incrNext.getD s.ts.incr : Nat) + d * 2 ^ 16
  decide (t < 0) || decide (tbSpan ≤ t)

/-- A step by hi in the upper slot is taken now (R354, R357). -/
def State.stepLegal (s : State) (hi : Nat) : Bool :=
  !(hi == 0x80000000 || s.ts.step.isSome || (decide (4 ≤ (s.evu.wait.filter (·.wrap)).length) && s.wouldWrap (s.adjStep hi)))

/-- TS_ADJ_WRITE. The upper slot schedules the step (R354); ignored while one waits, for 0x8000_0000, and where it would
wrap while all four wrap entries wait (R357). -/
def execTsAdjWrite (r : Requester) (v : Word) (s : State) : Res :=
  act s fun s => s.tsWrite r fun s =>
    let d := s.adjStep v.toNat
    if s.slaved then s
    else if !s.stepLegal v.toNat then s.wr F.TS_STATUS_adj_err 1
    else { s.wr F.TS_STATUS_adj_busy 1 with ts := { s.ts with step := some d } }

/-! ### Alignment and 1PPS (R359, R360) -/

/-- ALIGN_GO. The write sets TS_CTRL's other fields and starts an alignment. -/
def execAlignGo (r : Requester) (v : Word) (s : State) : Res :=
  act s fun s => s.tsWrite r fun s =>
    let n := v.toNat
    let s := ((s.wr F.TS_CTRL_pps_tol (bits n 31 16)).wr F.TS_CTRL_pps_pol (bits n 2 2)).wr F.TS_CTRL_align_src (bits n 0 0)
    if !bit n 1 then s
    else
      let at_ := s.rd F.TS_FRAME_ALIGN_align_ns
      let d := signed 32 (at_ + (2 ^ 32 - s.ns))
      if !(s.glb.dev == .ready || s.glb.dev == .test) || s.slaved then s.wr F.TS_STATUS_align_err 1
      else if bit n 0 then { s with ts := { s.ts with align := some .pps } }
      else if d < 1000 || 2 * 10 ^ 9 < d then s.wr F.TS_STATUS_align_err 1
      else { s with ts := { s.ts with align := some (.ns ((s.longTime / 2 ^ 40 + d) * 2 ^ 40)) } }

/-- The edge's offset from the nearest frame instant in ns (R360). -/
def State.ppsOffset (s : State) : Int :=
  if s.ts.phase ≤ 9720 then ((s.ts.phase * s.ts.incr / 2 ^ 40 : Nat) : Int)
  else -(((19440 - s.ts.phase) * s.ts.incr / 2 ^ 40 : Nat) : Int)

/-- PPS_EDGE. While align_src = 1 the edge is stamped, its offset recorded, and one event raised as it crosses pps_tol;
source 8 is rung. An alignment to the edge falls at this cycle, which is then a frame instant itself (R359). -/
def execPpsEdge (s : State) : Res :=
  act s fun s =>
    let s := { s with ts := { s.ts with ppsAt := s.ts.run } }.wr F.TS_STATUS_pps_seen 1
    if !s.on F.TS_CTRL_align_src then s
    else
      let aligns := decide (s.ts.align = some .pps)
      let d := if aligns then 0 else s.ppsOffset
      let out := decide (s.rd F.TS_CTRL_pps_tol < d.natAbs)
      let was := s.ts.ppsBeyond
      let s := (s.wr F.TS_PPS_STAMP_stamp s.stamp).wr F.TS_PPS_ERR_offset (wrapTo 32 d)
      let al := if aligns then some (.ns s.longTime) else s.ts.align
      let s := { s with ts := { s.ts with ppsBeyond := out, align := al } }
      (s.when (out && !was) (·.raise 8 0 0x7004 (wrapTo 32 d))).ring 8

/-- PPS_LOST. No edge for 1.5 s (R360). -/
def execPpsLost (s : State) : Res :=
  act s fun s => if !s.on F.TS_STATUS_pps_seen || s.ts.run < s.ts.ppsAt + 1500 * millisecond then s
    else (s.wr F.TS_STATUS_pps_seen 0).raise 8 0 0x7005 0

/-! ### Fibre delays (R364) -/

/-- F_i × 16 in ns, as numerator over 10,240 × quanta per frame; RTD in 1/16 bit. -/
def State.fibre (s : State) (t : Nat) : Int × Int :=
  let p := (s.ctx t).port
  let den : Int := (s.qpf p * 10240 : Nat)
  let lat : Int := (s.rd F.TS_PORT_LAT_lat_eg p + s.rd F.TS_PORT_LAT_lat_in p : Nat)
  (s.rtd t * 20000000 - lat * 16 * (s.qpf p * 1024 : Nat), den)

/-- The downstream or the upstream fibre delay of terminal t, as F_i × 16 × (1/2 ± asym × 10^-9) in ns × unit. -/
def State.fibrePart (s : State) (t : Nat) (down : Bool) (unit : Int) : Int :=
  let (n, d) := s.fibre t
  let a := s.asym (s.ctx t).port
  n * (5 * 10 ^ 8 + if down then a else -a) * unit / (d * 10 ^ 9)

/-- The launch time of a burst of terminal t whose delivered stamp is the time given, in 2^-40 ns (R364). -/
def State.launchTime (s : State) (t : Nat) (time : Int) : Int := time - s.fibrePart t false (2 ^ 36)

/-- TERM_DELAY_COMPUTE. Both delays in 1/16 ns from one RTD snapshot; 0 unless Operating or Lost. -/
def execTermDelayCompute (r : Requester) (t : Term) (s : State) : Res :=
  act s fun s => if !s.reach r 8 || s.blkDown 8 then s
    else
      let st := (s.ctx t).st
      if st == .operating || st == .lost then
        (s.wr F.TS_TERM_DOWN_delay (wrapTo 32 (s.fibrePart t true 1))).wr F.TS_TERM_UP_delay (wrapTo 32 (s.fibrePart t false 1))
      else (s.wr F.TS_TERM_DOWN_delay 0).wr F.TS_TERM_UP_delay 0

end Sys2Proof.Machine
end

