-- ==== Sys2Proof/Machine/QsOps.lean ====
section
/-! DEFINITION. The operations of the scheduler (R232 to R256): the hierarchy, buckets, policers, gate lists, tags, enqueue
and the choice of the next packet. -/

namespace Sys2Proof.Machine

/-! ### Tables and the hierarchy (R232, R258) -/

/-- A word of a QS table, as written. -/
def State.qw (s : State) (t row w : Nat) : Nat := s.qs.tab.get 0 (rowKey t row w)

/-- A node: level (1 tenant, 2 terminal, 3 service, 4 queue; 0 egress) and row, as one number. -/
def nodeKey (level row : Nat) : Nat := level * 131072 + row

/-- The table of a level. -/
def levelTable (level : Nat) : Nat := 4 - level

def State.nodeValid (s : State) (level row : Nat) : Bool := bit (s.qw (levelTable level) row 0) 17
def State.weightOf (s : State) (level row : Nat) : Nat := max 1 (bits (s.qw (levelTable level) row (if level = 4 then 2 else 1)) 11 0)
def State.profileOf (s : State) (level row : Nat) : Nat := bits (s.qw (levelTable level) row (if level = 4 then 3 else 2)) 11 0
def State.exempt (s : State) (level row : Nat) : Bool := level != 4 && bit (s.qw (levelTable level) row 2) 17

/-- The parent field of a row of table t. -/
def parentOf (t w0or1 : Nat) : Nat := if t = 3 then w0or1 % 128 else if t = 2 then w0or1 % 4096 else w0or1 % 32768

def State.parentRow (s : State) (level row : Nat) : Nat :=
  parentOf (levelTable level) (s.qw (levelTable level) row (if level = 4 then 1 else 0))

/-- The parents of queue q: service, terminal and tenant node, egress. -/
def State.chainOf (s : State) (q : Nat) : Nat × Nat × Nat × Nat :=
  let sv := s.parentRow 4 q
  let tm := s.parentRow 3 sv
  let tn := s.parentRow 2 tm
  (sv, tm, tn, s.parentRow 1 tn)

/-- The egress exists (R232). -/
def State.egExists (s : State) (e : Nat) : Bool := decide (e < 64) || (decide (e < 96) && s.ulExists (e - 64)) || e == 96 || e == 97

/-- Queue q's parent chain is valid up to an enabled egress: that egress. -/
def State.egressOf (s : State) (q : Nat) : Option Nat :=
  let (sv, tm, tn, e) := s.chainOf q
  if s.nodeValid 3 sv && s.nodeValid 2 tm && s.nodeValid 1 tn && s.egExists e then some e else none

/-- The nodes above and including queue q, from the queue up: (level, row). -/
def State.pathOf (s : State) (q : Nat) : List (Nat × Nat) :=
  let (sv, tm, tn, _) := s.chainOf q
  [(4, q), (3, sv), (2, tm), (1, tn)]

/-- The tenant of the node above queue q. -/
def State.queueTenant (s : State) (q : Nat) : Nat := bits (s.qw 3 (s.chainOf q).2.2.1 3) 7 0

/-- The class of queue q. -/
def State.clsOf (s : State) (q : Nat) : Nat := bits (s.qw 0 q 0) 16 14

/-- The effective length on egress e (R237). -/
def State.effLen (s : State) (e n : Nat) : Nat := max 1 ((n : Int) + signed 7 (s.qw 4 e 1)).toNat

/-- The nominal payload rate of an egress, in Mbit/s (R251). -/
def State.nominal (s : State) (e : Nat) : Nat :=
  if e < 64 then (if s.on F.TP_CTRL_ds_mode e then 8660 else 42020)
  else if e < 96 then s.ulW * 100000 else 806400

/-- The rate of the fit test. -/
def State.egRate (s : State) (e : Nat) : Nat := if bits (s.qw 4 e 0) 17 0 = 0 then s.nominal e else bits (s.qw 4 e 0) 17 0 * 10

/-- The length of a packet of a queue in cells on its egress, in ns. -/
def State.txNs (s : State) (e len : Nat) : Nat := ceilDiv (s.effLen e len * 8000) (s.egRate e)

/-- Depth in cells of what a queue holds. -/
def Queue.depth (x : Queue) : Nat := ((x.chip ++ x.fetch ++ x.deep).map (fun k => cellsFor k.bytes.length)).sum

/-- The queue holds packets, on chip or in deep memory. -/
def Queue.backlogged (x : Queue) : Bool := !(x.chip.isEmpty && x.fetch.isEmpty && x.deep.isEmpty)

/-! ### Buckets (R243 to R246) and policers (R247, R249) -/

/-- The run count in ns (R352). -/
def State.runNs (s : State) : Nat := s.ts.run / 2 ^ 40

/-- A committed profile: rate in 2^-24 byte per ns, size in bytes; profile 0 is unshaped. -/
def State.profileAt (s : State) (p : Nat) : Nat × Nat :=
  let v := s.qs.profiles.get 0 p
  (v / 2 ^ 24, v % 2 ^ 24)

/-- The level of a bucket at run count now, under the profile it runs. -/
def Bucket.levelAt (b : Bucket) (now : Nat) : Int :=
  if b.profile = 0 then 0 else min (b.b + ((now - b.last) * b.rate : Nat)) (b.cbs * 2 ^ 24 : Nat)

/-- A bucket after an update (R243): what has passed is credited under the old profile, and a changed profile then takes
effect, a debt kept, anything else set to 0 (R245, R246). -/
def Bucket.update (b : Bucket) (now want rate cbs : Nat) : Bucket :=
  let l := b.levelAt now
  if want = b.profile && rate = b.rate && cbs = b.cbs then { b with b := l, last := now }
  else {
    b := if want = 0 || b.profile = 0 || 0 ≤ l then 0 else l
    last := now, profile := want, rate := rate, cbs := cbs }

/-- The floor of a bucket's debt. -/
def debtFloor : Int := -((2 ^ 24 - 1) * 2 ^ 24 : Int)

/-- A bucket charged for a packet of effective length l; profile 0 is never charged. -/
def Bucket.charge (b : Bucket) (l : Nat) : Bucket :=
  if b.profile = 0 then b else { b with b := max (b.b - (l * 2 ^ 24 : Nat)) debtFloor }

def State.bucket (s : State) (level row : Nat) : Bucket := s.qs.buckets.get {} (nodeKey level row)

/-- The bucket of a node updated. -/
def State.bucketUpdate (s : State) (level row : Nat) : State :=
  let want := s.profileOf level row
  let (rate, cbs) := if want = 0 then (0, 0) else s.profileAt want
  { s with qs := { s.qs with
    buckets := s.qs.buckets.set {} (nodeKey level row) ((s.bucket level row).update s.runNs want rate cbs) } }

/-- The bucket of a node updated and charged. -/
def State.bucketCharge (s : State) (level row l : Nat) : State :=
  let s := s.bucketUpdate level row
  { s with qs := { s.qs with buckets := s.qs.buckets.set {} (nodeKey level row) ((s.bucket level row).charge l) } }

/-- The bucket of a node is not below 0. -/
def State.inCredit (s : State) (level row : Nat) : Bool := decide (0 ≤ (s.bucket level row).levelAt s.runNs)

/-- A policer bucket refilled. -/
def refill (v last now : Nat) (p : Nat × Nat) : Nat := min (v + (now - last) * p.1) (p.2 * 2 ^ 24)

/-- The profiles of a policer row. -/
def State.policerProfiles (s : State) (n : Nat) : (Nat × Nat) × (Nat × Nat) :=
  (s.profileAt (bits (s.qw 6 n 0) 11 0), s.profileAt (bits (s.qw 6 n 1) 11 0))

/-- The colours of a policer (R247). -/
inductive Colour where
  | green | yellow | red
deriving DecidableEq, Repr

/-- The policer of queue q colours a packet of effective length l: its buckets stand full when first used. -/
def State.police (s : State) (q l : Nat) (de : Bool) : State × Colour :=
  let w := s.qw 0 q 4
  let n := bits w 14 0
  if !bit w 16 || !bit (s.qw 6 n 0) 17 then (s, .green)
  else
    let (c, p) := s.policerProfiles n
    let now := s.runNs
    let x := (s.qs.policers.get none n).getD ⟨c.2 * 2 ^ 24, p.2 * 2 ^ 24, now⟩
    let tc := refill x.tc x.last now c
    let tp := refill x.tp x.last now p
    let need := l * 2 ^ 24
    let put := fun (a b : Nat) => { s with qs := { s.qs with policers := s.qs.policers.set none n (some ⟨a, b, now⟩) } }
    if tp < need then (put tc tp, .red)
    else if tc < need || (bit w 15 && de) then (put tc (tp - need), .yellow)
    else (put (tc - need) (tp - need), .green)

/-! ### Gate lists (R250 to R256) -/

/-- The time base with every wrap counted, in ns (R253). -/
def State.absNs (s : State) : Int := s.longTime / 2 ^ 40

/-- The stretches of a list's cycle from phase a on: first ns, last ns, mask. The last entry holds to the cycle's end. -/
def cutEntries (cycle : Nat) : Nat → List (Nat × Nat) → List (Nat × Nat × Nat)
  | _, [] => []
  | a, [(_, m)] => if a < cycle then [(a, cycle, m)] else []
  | a, (i, m) :: t => if a < cycle then (a, min (a + i) cycle, m) :: cutEntries cycle (a + i) t else []

def GList.segs (l : GList) : List (Nat × Nat × Nat) := cutEntries l.cycle 0 l.entries

/-- Gate bit b is open at a phase of the cycle. -/
def GList.openAt (l : GList) (b ph : Nat) : Bool := l.segs.any (fun g => decide (g.1 ≤ ph) && decide (ph < g.2.1) && bit g.2.2 b)

/-- The first phase from ph on, into the next cycle, at which bit b is closed. -/
def GList.closeAfter (l : GList) (b ph : Nat) : Option Nat :=
  ((l.segs ++ l.segs.map (fun g => (g.1 + l.cycle, g.2.1 + l.cycle, g.2.2))).find?
    (fun g => decide (ph < g.2.1) && !bit g.2.2 b)).map (fun g => max ph g.1)

/-- What governs a gate list at an instant: a running list with its start, or a gap mask; and until when. -/
inductive Regime where
  | run (l : GList) (start : Int) (until_ : Option Int)
  | gap (mask : Nat) (until_ : Option Int)
deriving DecidableEq, Repr

/-- The regime of the list in force or awaiting its start. -/
def Gate.fresh (g : Gate) (t : Int) : Regime :=
  match g.start with
  | some st => if g.cur.cycle = 0 then .gap g.cur.gap none
    else if g.started || decide (st ≤ t) then .run g.cur st none else .gap g.cur.gap (some st)
  | none => .gap g.cur.gap none

/-- The regime at instant t: the old list until its cycle in progress ends, an end once reached (its cycle 0) staying reached. -/
def Gate.regime (g : Gate) (t : Int) : Regime :=
  match g.old with
  | some (l, st, e) => if l.cycle != 0 && decide (t < e) then .run l st (some e) else g.fresh t
  | none => g.fresh t

/-- A list that runs at instant t: its phase. -/
def phaseAt (l : GList) (start t : Int) : Nat := ((t - start) % (max 1 l.cycle : Nat)).toNat

def Regime.isOpen (r : Regime) (b : Nat) (t : Int) : Bool :=
  match r with
  | .run l st _ => l.openAt b (phaseAt l st t)
  | .gap m _ => bit m b

/-- The instant at which bit b, open at t, next closes; none where it never does. fuel bounds the regimes looked at. -/
def Gate.closes (g : Gate) (b : Nat) : Nat → Int → Option Int
  | 0, t => some t
  | fuel + 1, t =>
    let next := fun (u : Option Int) => match u with
      | none => none
      | some u => if (g.regime u).isOpen b u then g.closes b fuel u else some u
    match g.regime t with
    | .gap _ u => next u
    | .run l st u =>
      let ph := phaseAt l st t
      match l.closeAfter b ph, u with
      | some c, some u => if t + ((c - ph : Nat) : Int) < u then some (t + ((c - ph : Nat) : Int)) else next (some u)
      | some c, none => some (t + ((c - ph : Nat) : Int))
      | none, u => next u

/-- The longest stretch over which bit b is open: stretches that follow one another joined, the one across the cycle's
boundary whole; none where the bit never closes. (DEDUCED, unsafe: log entry 28.) -/
def GList.longest (l : GList) (b : Nat) : Option Nat :=
  if l.segs.all (fun g => bit g.2.2 b) then none
  else
    let two := l.segs ++ l.segs.map (fun g => (g.1 + l.cycle, g.2.1 + l.cycle, g.2.2))
    some (two.foldl (fun (m : Nat × Nat) g => if bit g.2.2 b then (max m.1 (m.2 + (g.2.1 - g.1)), m.2 + (g.2.1 - g.1)) else (m.1, 0)) (0, 0)).1

/-- The longest open stretch of the list that governs (R252): the old one until its end; then the new one, with the gap before
its start while that lasts; none where nothing is too long for it. -/
def Gate.longest (g : Gate) (b : Nat) (t : Int) : Option Nat :=
  let new := if g.cur.cycle = 0 then none else g.cur.longest b
  match g.old with
  | none => new
  | some (l, _, e) =>
    if l.cycle != 0 && decide (t < e) then l.longest b
    else match g.start, new with
      | some st, some n => if g.started || !bit g.cur.gap b then some n
        else some (max n ((st - e).toNat + (match g.cur.segs.head? with
          | some x => if bit x.2.2 b then ((g.cur.closeAfter b 0).getD 0) else 0
          | none => 0)))
      | _, _ => new

def State.gate (s : State) (l : Nat) : Gate := s.qs.gates.get {} l
def State.setGate (s : State) (l : Nat) (g : Gate) : State := { s with qs := { s.qs with gates := s.qs.gates.set {} l g } }

/-- Queue q's gate binding: list and bit. -/
def State.gateOf (s : State) (q : Nat) : Option (Nat × Nat) :=
  let w := s.qw 0 q 5
  if bit w 11 then some (bits w 7 0, bits w 10 8) else none

/-- The gate of queue q is open and a packet that takes tx ns fits (R251). -/
def State.gateFits (s : State) (q tx : Nat) : Bool :=
  match s.gateOf q with
  | none => true
  | some (l, b) =>
    let g := s.gate l
    let t := s.absNs
    (g.regime t).isOpen b t && (match g.closes b 4 t with
      | none => true
      | some c => decide (t + (tx : Int) ≤ c))

/-! ### Eligibility (R236) -/

/-- Queue q is eligible on egress e. -/
def State.queueElig (s : State) (e q : Nat) : Bool :=
  match (s.queueAt q).chip with
  | [] => false
  | k :: _ => s.inCredit 4 q && s.gateFits q (s.txNs e k.bytes.length)

/-- A node passes a queue of class c: its bucket is not below 0, or it exempts class 0. -/
def State.passes (s : State) (c : Nat) (n : Nat × Nat) : Bool := s.inCredit n.1 n.2 || (c == 0 && s.exempt n.1 n.2)

/-- The nodes that queue q makes eligible, itself first, up to the first node in debt. -/
def State.eligNodes (s : State) (e q : Nat) : List (Nat × Nat) :=
  if s.queueElig e q then (match s.pathOf q with
    | h :: t => h :: t.takeWhile (s.passes (s.clsOf q))
    | [] => [])
  else []

/-- The queues with packets whose branch ends at egress e. -/
def State.queuesOn (s : State) (e : Nat) : List Nat :=
  (s.qs.queues.filter (fun x => x.2.backlogged && s.egressOf x.1 == some e)).map (·.1)

/-! ### Tags (R237 to R240) -/

def State.tag (s : State) (k : Nat) : Tag := s.qs.tags.get {} k
def State.setTag (s : State) (k : Nat) (x : Tag) : State := { s with qs := { s.qs with tags := s.qs.tags.set {} k x } }

/-- a is later than b, by signed 48-bit difference. -/
def later (a b : Nat) : Bool := decide (0 < signed 48 (a + (2 ^ 48 - b % 2 ^ 48)))

/-- The egress above a node, valid or not. -/
def State.egressAbove (s : State) (level row : Nat) : Nat :=
  match level with
  | 4 => (s.chainOf row).2.2.2
  | 3 => s.parentRow 1 (s.parentRow 2 (s.parentRow 3 row))
  | 2 => s.parentRow 1 (s.parentRow 2 row)
  | 1 => s.parentRow 1 row
  | _ => row

/-- The parent of a node, as a key. -/
def State.parentKey (s : State) (level row : Nat) : Nat := nodeKey (level - 1) (s.parentRow level row)

/-- The tags of egress e follow eligibility: a node that becomes eligible takes S = max(V, F) (R239). -/
def State.refreshTags (s : State) (e : Nat) : State :=
  let live := ((s.queuesOn e).flatMap (s.eligNodes e)).dedup
  let s := { s with qs := { s.qs with tags := s.qs.tags.mapAll {} (fun k x =>
    let level := k / 131072
    let row := k % 131072
    if level != 0 && s.egressAbove level row == e && !live.contains (level, row) then { x with elig := false } else x) } }
  live.foldl (fun s n =>
    let k := nodeKey n.1 n.2
    let x := s.tag k
    if x.elig then s
    else
      let v := (s.tag (s.parentKey n.1 n.2)).v
      s.setTag k { x with s := if later x.f v then x.f else v, elig := true }) s

/-! ### Drops and stamps -/

/-- A packet that asked for an egress stamp is done with: its stamp, or none (R463). -/
def State.stampNote (s : State) (k : Pkt) (v : Option Nat) : State :=
  s.when k.stampReq fun s => { s with hd := { s.hd with stamps := s.hd.stamps ++ [(k.pid, v)] } }

/-- A packet is dropped: its cells return (R323). -/
def State.dropPkt (s : State) (k : Pkt) : State := (s.giveCells k.cells).stampNote k none

/-- A packet dropped at a queue, counted by cause (R248, R494). -/
def State.qsDrop (s : State) (q : Nat) (k : Pkt) (cause : Nat) : State :=
  (s.dropPkt k).count 6 3 cause 1 (some (s.queueTenant q))

/-- The longest stretch that the gate of queue q gives as it stands now; none where it drops nothing (R252). -/
def State.headLimit (s : State) (q : Nat) : Option Nat :=
  match s.gateOf q with
  | none => none
  | some (l, b) => (s.gate l).longest b s.absNs

/-- Packets that reach the head of a gated queue whose gate gives them no stretch long enough are dropped; one that passes is not
judged again (R252). -/
def State.trimHeads (q e : Nat) : List Pkt → State → State
  | [], s => s
  | k :: t, s =>
    let x := s.queueAt q
    if x.judged == some k.pid then s
    else if (s.headLimit q).all (fun n => decide (s.txNs e k.bytes.length ≤ n)) then s.setQueue q { x with judged := some k.pid }
    else
      let s := s.setQueue q { x with chip := t }
      let s := ((s.qsDrop q k 4).wr F.QS_STATUS_oversize_seen 1).raise 6 (q % 2048) 0x3003 (q % 65536)
      s.trimHeads q e t

/-- Since when the scheduler has held eligible traffic for tree port e (R79), as it stands now. -/
def State.readyNote (s : State) (e : Nat) : State :=
  let now := (s.queuesOn e).any (fun q => (s.eligNodes e q).length == 4)
  let r := if now then some ((s.qs.ready.get none e).getD (s.ts.frame, s.ts.phase)) else none
  if e < 64 then { s with qs := { s.qs with ready := s.qs.ready.set none e r } } else s

/-- The queues of egress e brought up to date: oversize heads dropped, tags refreshed. -/
def State.settle (s : State) (e : Nat) : State :=
  (((s.queuesOn e).foldl (fun s q => s.trimHeads q e (s.queueAt q).chip) s).refreshTags e).readyNote e

/-- Every egress with packets brought up to date. -/
def State.settleAll (s : State) : State :=
  ((s.qs.queues.map (fun x => s.egressOf x.1)).reduceOption.dedup).foldl State.settle s

/-! ### Enqueue (R235, R247, R248, R260, R326, R327) -/

/-- The packet goes to deep memory: its write is outstanding, its queue latched. None where the spill area runs out. -/
def State.spill (s : State) (q : Nat) (k : Pkt) : Option State :=
  let x := s.queueAt q
  match s.writeLines 600 x.pages k.cells.length [] with
  | none => none
  | some (s, ps, ks) =>
    let gens := k.cells.map (s.bm.cgen.get 0)
    let s := s.setQueue q { x with pages := ps, deep := x.deep ++ [{ k with cells := [], tagGens := gens }], latched := true }
    some (({ s with bm := { s.bm with spills := s.bm.spills ++ [SpillWrite.mk q k.pid k.cells ks] } }.count 7 1 0).blockCheck)

/-- A packet that must go deep while no spill is possible (R326). -/
def State.placeOnChip (s : State) (q : Nat) (k : Pkt) (must : Bool) : State :=
  let x := s.queueAt q
  if must && (x.latched || decide (s.lowMax ≤ s.occ)) then (s.dropPkt k).count 7 5 0
  else s.setQueue q { x with chip := x.chip ++ [k] }

/-- The packet is placed (R326), under the thresholds written last (R332). -/
def State.placePkt (s : State) (q : Nat) (k : Pkt) : State :=
  let s := s.levelsIn
  let must := decide (2 ≤ s.clsOf q) && ((s.queueAt q).latched || s.bm.spilling)
  if must && s.spillCause.isNone then
    if s.chainBad k then (s.dropPkt k).chainFault k
    else match s.spill q k with
      | some s => s
      | none => s.placeOnChip q k must
  else s.placeOnChip q k must

/-- Packet k enqueued on queue q, after the checks of R306 and R307. -/
def State.enqueue (s : State) (q : Nat) (k : Pkt) : State :=
  match bit (s.qw 0 q 0) 17, s.egressOf q with
  | true, some e =>
    let (s, c) := s.police q (s.effLen e k.bytes.length) k.de
    let d := (s.queueAt q).depth
    match c with
    | .red => s.qsDrop q k 2
    | .yellow => if d < bits (s.qw 0 q 7) 17 0 * 8 then (s.placePkt q k).settle e else s.qsDrop q k 3
    | .green => if d < bits (s.qw 0 q 6) 17 0 * 8 then (s.placePkt q k).settle e else s.qsDrop q k 1
  | _, _ => s.qsDrop q k 0

/-! ### The next packet (R58 to R62, R236 to R243, R537) -/

/-- Among the children of a node that lead to a queue of the class, the one with the smallest S, the lowest number first. -/
def State.bestChild (s : State) (l : List (Nat × Nat)) : Option (Nat × Nat) :=
  l.foldl (fun (b : Option (Nat × Nat)) n => match b with
    | none => some n
    | some m =>
      let x := (s.tag (nodeKey n.1 n.2)).s
      let y := (s.tag (nodeKey m.1 m.2)).s
      if later y x || (x == y && decide (n.2 < m.2)) then some n else b) none

/-- The descent from a level (1 first): the queues in question, by level. -/
def State.descend (s : State) : List Nat → List Nat → Option Nat
  | [], qs => qs.head?
  | level :: t, qs =>
    let nodeOf := fun q => ((s.pathOf q).find? (fun n => n.1 == level)).getD (level, q)
    match s.bestChild (qs.map nodeOf).dedup with
    | none => none
    | some n => s.descend t (qs.filter (fun q => nodeOf q == n))

/-- The queue that egress e serves next: strict between classes, by start tag within one (R237). -/
def State.choose (s : State) (e : Nat) : Option Nat :=
  let ok := (s.queuesOn e).filter (fun q => (s.eligNodes e q).length == 4)
  let cls := ok.foldl (fun m q => min m (s.clsOf q)) 8
  s.descend [1, 2, 3, 4] (ok.filter (fun q => s.clsOf q == cls))

/-- The tags after a packet of effective length l left through queue q (R238). -/
def State.tagDequeue (s : State) (q l : Nat) : State :=
  (s.pathOf q).foldl (fun s n =>
    let k := nodeKey n.1 n.2
    let x := s.tag k
    let pk := s.parentKey n.1 n.2
    let s := s.setTag pk { s.tag pk with v := x.s }
    s.setTag k { s.tag k with f := (x.s + ceilDiv (l * 4096) (s.weightOf n.1 n.2)) % 2 ^ 48 }) s

/-- A child that is still eligible takes S = F. -/
def State.tagAfter (s : State) (e q : Nat) : State :=
  let live := ((s.queuesOn e).flatMap (s.eligNodes e)).dedup
  (s.pathOf q).foldl (fun s n =>
    let k := nodeKey n.1 n.2
    let x := s.tag k
    s.setTag k (if live.contains n then { x with s := x.f } else { x with elig := false })) s

/-- The head packet of queue q dequeued on egress e. -/
def State.dequeue (s : State) (e q : Nat) : Option (State × Pkt) :=
  match (s.queueAt q).chip with
  | [] => none
  | k :: t =>
    let l := s.effLen e k.bytes.length
    let s := (s.tagDequeue q l).setQueue q { s.queueAt q with chip := t }
    let s := (s.pathOf q).foldl (fun s n => s.bucketCharge n.1 n.2 l) s
    let ten := some (s.queueTenant q)
    let s := (s.tagAfter e q).count 6 1 e 1 ten
    some ((s.count 6 2 e k.bytes.length ten), k)

/-- The key index of an XGEM frame of context x, or none where its slot is not valid (R60, R62). -/
def State.xgKey (s : State) (p x : Nat) : Option Nat :=
  match s.xgEnc x with
  | 1 =>
    let k := s.keyCtx (s.xgTerm x)
    if (k.slot k.active).valid then some (b2n k.active + 1) else none
  | 2 =>
    let g := s.xgGsel x
    if (if g then (s.port p).group1 else (s.port p).group0).valid then some (b2n g + 1) else none
  | _ => some 0

/-- n bytes padded to a 4-byte multiple. -/
def pad4 (n : Nat) : Nat := ceilDiv n 4 * 4

/-- The cells whose last byte lies in the first n bytes of a packet with len bytes left. -/
def cellsRead (cells : List Nat) (len n : Nat) : Nat := if len ≤ n then cells.length else cells.length - cellsFor (len - n)

/-- The key that an index of port context x names (R60, R64). -/
def State.xgKeyBits (s : State) (p x : Nat) : Nat :=
  let k := s.keyCtx (s.xgTerm x)
  match s.xgEnc x with
  | 1 => (k.slot k.active).key
  | _ => (if s.xgGsel x then (s.port p).group1 else (s.port p).group0).key

/-- A payload as it is sent at byte pos of the FS frame: in clear under index 0, else under AES-128 in counter mode (R60). -/
def State.xgCipher (s : State) (p x pos index : Nat) (data : List Byte) : List Byte :=
  if index = 0 then data
  else aesCtr (s.xgKeyBits p x) (Config.counterBlock (s.port p).xgs false (s.port p).sfc pos) data

/-- Where in the FS frame the next XGEM frame of port p begins, and the byte that the line has reached (R58). -/
def State.slotAtByte (s : State) (p : Nat) : Nat := fsBytes (s.port p).xgs - 4 - (s.port p).left
def State.lineByte (s : State) (p : Nat) : Nat := fsBytes (s.port p).xgs * s.ts.phase / 19440

/-- Idle fill of port p that reaches byte b of the frame in build stands beside eligible traffic: the scheduler held some before the line
came there (R79). -/
def State.besideReady (s : State) (p b : Nat) : Bool :=
  match s.qs.ready.get none p with
  | some (f, c) => f != s.ts.frame || decide (fsBytes (s.port p).xgs * c / 19440 < b)
  | none => false

/-- The line has passed what the frame in build holds: idle XGEM frames have filled it up to there (R58). -/
def State.fillIdle (s : State) (p : Nat) : State :=
  let x := s.port p
  let n := min x.left ((s.lineByte p - s.slotAtByte p) / 4 * 4)
  if x.framing && decide (0 < n) then
    s.setPort p { x with left := x.left - n, idle := x.idle + n, under := x.under || s.besideReady p (s.slotAtByte p + n) }
  else s

/-- An XGEM frame of a packet's remaining bytes goes into the frame in build: whole, or as much as the frame takes (R58), under the
Port-ID of its context (R59). An invalid key slot discards the frame with all that is left of its packet (R62). -/
def State.xgemSend (s : State) (p x : Nat) (data : List Byte) (cells : List Nat) : State :=
  let t := s.port p
  let ten := some (s.ctx (s.xgTerm x)).tenant
  match s.xgKey p x with
  | none => (((s.setPort p { t with rem := none, discardAt := s.ts.run }).giveCells cells).count 1 5 p 1 ten).tpDefect p 2 true
  | some k =>
    let n := if 8 + pad4 data.length ≤ t.left then data.length else (t.left - 8) / 4 * 4
    let whole := n == data.length
    let read := cellsRead cells data.length n
    let pos := s.slotAtByte p
    let s := s.setPort p { t with
      left := t.left - (8 + pad4 n), body := t.body ++ [⟨s.xgPortId x, k, pos, s.xgCipher p x pos k (data.take n), whole⟩]
      rem := if whole then none else some ⟨x, data.drop n, cells.drop read⟩ }
    ((s.drainCells (cells.take read)).count 1 1 p n ten).meter p n

/-- The egress pulls (R77, R240): a framing tree port, an uplink or rope port that is up. A standby sends nothing. -/
def State.pulls (s : State) (e : Nat) : Bool :=
  !s.blkDown 6 && !s.blkDown 7 && s.live && !s.isStandby && (if e < 64 then !s.portDown 1 e && (s.port e).framing
    else if e < 96 then s.ulUp (e - 64) else (s.pr.ropes.get {} (e - 96)).st == 2)

/-- The egress pulls now (R58, R537): a tree port once its line has reached the next slot, with room for an XGEM header and 4 bytes of
payload, the smallest fragment this model sends; another once its last packet's time has passed. (DESIGN CHOICE, unsafe: log
entry 104.) -/
def State.pulling (s : State) (e : Nat) : Bool :=
  s.pulls e && (if e < 64 then decide (s.slotAtByte e ≤ s.lineByte e) && decide (12 ≤ (s.port e).left)
    else decide (s.qs.pullAt.get 0 e ≤ s.ts.run))

/-- The packet leaves on egress e. -/
def State.send (s : State) (e : Nat) (k : Pkt) : State :=
  if e < 64 then (s.xgemSend e k.xgem k.bytes k.cells).stampNote k none
  else
    let n := k.bytes.length
    let s := (((s.emit (.packet e k.bytes)).drainCells k.cells).meter (if e < 96 then 96 + e else 98 + e) n)
    let s := { s with qs := { s.qs with
      pullAt := s.qs.pullAt.set 0 e (s.ts.run + ceilDiv (s.effLen e n * 8000 * 2 ^ 40) (s.nominal e)) } }
    s.stampNote k (if e < 96 then some (stampOf (s.fullTime + (s.rd F.TS_PORT_LAT_lat_eg e * 2 ^ 40 / 10 : Nat))) else none)

/-- Egress e pulls its next packet; one with a cell that is being copied waits (R342). A packet with lost bytes is dropped and counted
(R324). (DESIGN CHOICE, safe: log entry 96.) -/
def State.pull (s : State) (e : Nat) : State :=
  let s := s.when (decide (e < 64)) (·.fillIdle e)
  if !s.pulling e then s
  else
    let s := s.settle e
    match s.choose e with
    | none => s
    | some q => if ((s.queueAt q).chip.head?.map (fun k => s.cellsWait k.cells)).getD false then s else match s.dequeue e q with
      | none => s
      | some (s, k) =>
        if s.chainBad k then ((s.dropPkt k).chainFault k).settle e
        else if s.poisoned k then ((s.dropPkt k).count 7 5 0).settle e
        else (s.send e k).settle e

/-- EGRESS_PULL. (DEDUCED, unsafe: log entry 27.) -/
def execEgressPull (eg : Fin 98) (s : State) : Res := act s (·.pull eg)

end Sys2Proof.Machine
end

