-- ==== Sys2Proof/Machine/ClOps.lean ====
section
/-! DEFINITION. Lookups and hashes (R289 to R311): CRC-32C, the exact-match store and its cache, the ternary tables, the spread
table, visibility by generation, tenant partitions. -/

namespace Sys2Proof.Machine

/-! ### CRC-32C (R292, R309) -/

/-- One bit of the reflected polynomial 0x1EDC6F41. -/
def crcBit (c : Nat) : Nat := if c % 2 = 1 then (c / 2) ^^^ 0x82F63B78 else c / 2

/-- One byte. -/
def crcByte (c b : Nat) : Nat :=
  crcBit (crcBit (crcBit (crcBit (crcBit (crcBit (crcBit (crcBit (c ^^^ b))))))))

/-- CRC-32C of a list of bytes. -/
def crc32c (bs : List Nat) : Nat := bs.foldl crcByte 0xFFFFFFFF ^^^ 0xFFFFFFFF

/-- Key registers as bytes: five for each register, most significant first. -/
def keyBytes (key : List Nat) : List Nat :=
  key.flatMap (fun k => (List.range 5).map (fun i => k % 2 ^ 36 / 2 ^ (8 * (4 - i)) % 256))

/-- Registers read as one unsigned number, the first most significant. -/
def joinKey (key : List Nat) : Nat := key.foldl (fun n k => n * 2 ^ 36 + k % 2 ^ 36) 0

/-- The hash of hsh, symmetric where sym is set (R309). -/
def hashOf (key : List Nat) (sym : Bool) : Nat :=
  let h := key.length / 2
  if !sym || h = 0 then crc32c (keyBytes key)
  else
    let a := key.take h
    let b := (key.drop h).take h
    let (lo, hi) := if joinKey a ≤ joinKey b then (a, b) else (b, a)
    crc32c (keyBytes (lo ++ hi ++ key.drop (2 * h)))

/-! ### Descriptors (R318) -/

/-- The descriptor row of a table: 0–14 exact, 16–31 ternary. -/
def descRow (ternary : Bool) (tbl : Nat) : Nat := if ternary then 16 + tbl else tbl

def State.descValid (s : State) (d : Nat) : Bool := bit (s.row 2 d 0) 17
def State.descPart (s : State) (d : Nat) : Bool := bit (s.row 2 d 0) 16
def State.descPin (s : State) (d : Nat) : Bool := bit (s.row 2 d 0) 15
def State.descN (s : State) (d : Nat) : Nat := bits (s.row 2 d 0) 14 12 + 1
def State.descLog2 (s : State) (d : Nat) : Nat := bits (s.row 2 d 0) 4 0
def State.descBase (s : State) (d : Nat) : Nat := s.row 2 d 1 + bits (s.row 2 d 2) 7 0 * 2 ^ 18
def State.descSize (s : State) (d : Nat) : Nat := bits (s.row 2 d 3) 16 0

/-- The two candidate buckets of a key (R292). -/
def hashBuckets (key : List Nat) (tbl log2 : Nat) : Nat × Nat :=
  let n := 2 ^ log2
  let h1 := crc32c (keyBytes key ++ [1, tbl]) % n
  let h2 := crc32c (keyBytes key ++ [2, tbl]) % n
  (h1, if h2 = h1 && 1 < n then h1 ^^^ 1 else h2)

/-- The four slots of bucket h of a table. -/
def State.bucketSlots (s : State) (tbl h : Nat) : List Nat := (List.range 4).map (fun w => (s.descBase tbl + h) * 4 + w)

/-- The slots of a key, in the order a lookup and an add take them. -/
def State.candidates (s : State) (tbl : Nat) (key : List Nat) : List Nat :=
  let (h1, h2) := hashBuckets key tbl (s.descLog2 tbl)
  s.bucketSlots tbl h1 ++ (if h2 = h1 then [] else s.bucketSlots tbl h2)

/-! ### Visibility (R301, R303) -/

/-- A generation's place: 0 the one before the current, 1 the current, 2 the next. -/
def State.ruleAge (s : State) (g : Nat) : Nat := (g + 17 - (s.gen .rules).cur) % 16

/-- The next generation, at which staging stamps (R301). -/
def State.ruleNext (s : State) : Nat := ((s.gen .rules).cur + 1) % 16

/-- A slot is visible in generation g. -/
def State.slotSeen (s : State) (x : Slot) (g : Nat) : Bool :=
  (match x.added with
    | none => true
    | some n => decide (s.ruleAge n ≤ s.ruleAge g))
  && (match x.deleted with
    | none => true
    | some n => decide (s.ruleAge g < s.ruleAge n))

def State.slotAt (s : State) (i : Nat) : Option Slot := s.cl.slots.get none i

/-- The store is the cache (R291). -/
def State.cacheOnly (s : State) : Bool := !s.feat 11

/-- Slot i written, and with it its line in deep memory (R291, R298). -/
def State.setSlot (s : State) (i : Nat) (x : Option Slot) : State :=
  let s := { s with cl := { s.cl with slots := s.cl.slots.set none i x } }
  if s.cacheOnly then s else s.lineWritten i

/-- The tenant rule of a table (R305): bound, the packet's tenant; none while it is unbound. -/
def tenantOk (part : Bool) (bound : Option Nat) (t : Nat) : Bool :=
  !part || (match bound with
    | none => true
    | some b => b == t)

/-- The first slot of a list that a lookup hits (R293). -/
def State.hitIn (s : State) (tbl : Nat) (key : List Nat) (bound : Option Nat) (g : Nat) (is : List Nat) : Option (Nat × Slot) :=
  is.findSome? (fun i => match s.slotAt i with
    | some x => if x.tbl = tbl && x.key == key && s.slotSeen x g && tenantOk (s.descPart tbl) bound x.tenant then some (i, x)
      else none
    | none => none)

/-- The overflow mark of bucket h of a table: set as an add places an entry of the bucket in its other one, cleared when no such entry
is left (R293), so it is a function of the slots. -/
def State.overflow (s : State) (tbl h : Nat) : Bool :=
  s.cl.slots.any (fun e => match e.2 with
    | some x => x.tbl == tbl && (hashBuckets x.key tbl (s.descLog2 tbl)).1 == h && e.1 / 4 != s.descBase tbl + h
    | none => false)

/-- The slots that a lookup reads: those of h1, and those of h2 where h1 holds no hit and its overflow mark is set (R293, R296). -/
def State.readSlots (s : State) (tbl : Nat) (key : List Nat) (bound : Option Nat) (g : Nat) : List Nat :=
  let (h1, h2) := hashBuckets key tbl (s.descLog2 tbl)
  let first := s.bucketSlots tbl h1
  if (s.hitIn tbl key bound g first).isSome || h2 == h1 || !s.overflow tbl h1 then first else first ++ s.bucketSlots tbl h2

/-- The slot that a lookup hits (R293). -/
def State.exactFind (s : State) (tbl : Nat) (key : List Nat) (bound : Option Nat) (g : Nat) : Option (Nat × Slot) :=
  s.hitIn tbl key bound g (s.readSlots tbl key bound g)

/-! ### The cache (R295 to R298) -/

/-- A line of a set answers a lookup: the slot it hits, or a negative entry of its generation. -/
def CLine.answers (l : CLine) (hit : Option Nat) (tbl : Nat) (key : List Nat) (ten : Option Nat) (g : Nat) : Bool :=
  match l with
  | .slot i => hit == some i
  | .neg t k n h => hit.isNone && t == tbl && k == key && n == ten && h == g

/-- Cache slots reserved by pinned tables, table d apart (R295); in cache-only mode pin has no effect (R291). -/
def State.pinnedBut (s : State) (d : Nat) : Nat :=
  if s.cacheOnly then 0
  else ((List.range 15).map (fun t => if t != d && s.descValid t && s.descPin t then 4 * 2 ^ s.descLog2 t else 0)).sum

/-- The sets of the cache: 262,144 entries in sets of 16. (DEDUCED, unsafe: log entry 99.) -/
def cacheSets : Nat := 16384

/-- The set of a key. -/
def State.cacheSet (s : State) (tbl : Nat) (key : List Nat) : Nat :=
  (s.descBase tbl + (hashBuckets key tbl (s.descLog2 tbl)).1) % cacheSets

/-- The ways of set k that pinned tables leave: the slots they reserve are spread over the sets (R295). -/
def State.waysOf (s : State) (k : Nat) : Nat := 16 - (s.pinnedBut 32 + cacheSets - 1 - k) / cacheSets

/-- A line brought to the front of its set; the set keeps n. -/
def touchLine (n : Nat) (l : CLine) (set : List CLine) : List CLine := (l :: set.filter (· != l)).take n

/-- Three registers of a completed lookup (R272). -/
def lookHit (i a1 a2 : Nat) : List Nat := [i % 2 ^ 32, a1 % 2 ^ 36, a2 % 2 ^ 36]
def lookStatus (n : Nat) : List Nat := [n * 2 ^ 33, 0, 0]

/-- The line of the cache that answers a lookup. -/
def State.cacheHit (s : State) (tbl : Nat) (key : List Nat) (bound : Option Nat) (g : Nat) : Option CLine :=
  let hit := s.exactFind tbl key bound g
  (s.cl.cache.get [] (s.cacheSet tbl key)).find? (fun l =>
    l.answers (hit.map (·.1)) tbl key (if s.descPart tbl then bound else none) g)

/-- A lookup reads the store: its table is not pinned, and the cache does not hold its answer (R295, R296). -/
def State.readsStore (s : State) (tbl : Nat) (key : List Nat) (bound : Option Nat) (g : Nat) : Bool :=
  !s.cacheOnly && !s.descPin tbl && (s.cacheHit tbl key bound g).isNone

/-- The lines a lookup reads from the store (R296), and their outcome: Error in any of those of h1 hides whether it holds the key, and
h2 is then not read. (DESIGN CHOICE, unsafe: log entry 100.) -/
def State.storeRead (s : State) (tbl : Nat) (key : List Nat) (bound : Option Nat) (g : Nat) (lines : List (List Nat)) :
    State × Bool :=
  let is := s.readSlots tbl key bound g
  let (t, bad) := State.readAll State.regionRead s (is.take 4) lines
  if bad then (t, true) else State.readAll State.regionRead t (is.drop 4) (lines.drop 4)

/-- An exact lookup at its reply: the result, the tenant of a partitioned hit, and the state with its cache and counts. bad tells that
the cache line was uncorrectable, which is a miss (R298); lines are the symbols in error of the lines it reads. -/
def State.exactLookup (s : State) (tbl : Nat) (key : List Nat) (bound : Option Nat) (g : Nat) (bad : Bool)
    (lines : List (List Nat)) : State × List Nat × Option Nat :=
  let hit := s.exactFind tbl key bound g
  let res := match hit with
    | some (i, x) => lookHit i x.act1 x.act2
    | none => lookStatus 1
  let ten := if s.descPart tbl then hit.map (·.2.tenant) else none
  let k := s.cacheSet tbl key
  let set := s.cl.cache.get [] k
  if s.cacheOnly then (s.count 5 1 tbl, if bad then lookStatus 3 else res, if bad then none else ten)
  else if s.descPin tbl && !bad then (s.count 5 1 tbl, res, ten)
  else match (if bad then none else s.cacheHit tbl key bound g) with
    | some l => ({ s with cl := { s.cl with cache := s.cl.cache.set [] k (touchLine (s.waysOf k) l set) } }.count 5 1 tbl, res, ten)
    | none =>
      if s.deepDown then (s, lookStatus 2, none)
      else
        let (s, lost) := (s.count 5 2 tbl).storeRead tbl key bound g lines
        if lost then (s, lookStatus 3, none)
        else if s.descPin tbl then (s, res, ten)
        else
          let l := match hit with
            | some (i, _) => CLine.slot i
            | none => .neg tbl key (if s.descPart tbl then bound else none) g
          ({ s with cl := { s.cl with cache := s.cl.cache.set [] k (touchLine (s.waysOf k) l set) } }, res, ten)

/-! ### Ternary tables (R299, R300) -/

def State.ternAt (s : State) (i : Nat) : TEntry := s.cl.tern.get {} i

/-- The bank of an entry that a generation reads. -/
def State.ternBank (s : State) (e : TEntry) (g : Nat) : TBank :=
  if (if g = (s.gen .rules).cur then e.cur else e.ret) then e.bank1 else e.bank0

/-- Four words of a bank match the key registers given; words past the key are not compared. -/
def TBank.matches (b : TBank) (key : List Nat) : Bool :=
  (key.zipIdx).all (fun k => (k.1 ^^^ b.key.getD k.2 0) &&& b.mask.getD k.2 0 == 0)

/-- The entry or pair at index i matches. -/
def State.ternMatches (s : State) (i : Nat) (key : List Nat) (part : Bool) (bound : Option Nat) (g : Nat) : Bool :=
  let b := s.ternBank (s.ternAt i) g
  b.valid && tenantOk part bound b.tenant && b.matches (key.take 4)
    && (decide (key.length ≤ 4) || (s.ternBank (s.ternAt (i + 1)) g).matches (key.drop 4))

/-- A ternary lookup: its result, the tenant of a partitioned hit. -/
def State.ternLookup (s : State) (tbl : Nat) (key : List Nat) (bound : Option Nat) (g : Nat) : List Nat × Option Nat :=
  let d := descRow true tbl
  let base := s.descBase d
  let inRange := fun i => decide (base ≤ i) && decide (i < base + s.descSize d) && (decide (key.length ≤ 4) || i % 2 == 0)
  match (s.cl.tern.map (·.1)).find? (fun i => inRange i && s.ternMatches i key (s.descPart d) bound g) with
  | none => (lookStatus 1, none)
  | some i =>
    let b := s.ternBank (s.ternAt i) g
    (lookHit i b.act1 b.act2, if s.descPart d then some b.tenant else none)

/-! ### The spread table (R310, R311) -/

def State.memberValid (s : State) (m : Nat) : Bool := bit (s.row 4 m 0) 17
def State.memberQueue (s : State) (m : Nat) : Nat := bits (s.row 4 m 0) 15 0

/-- A member is up: its queue's egress is no uplink or rope port that is down. -/
def State.memberUp (s : State) (m : Nat) : Bool :=
  let e := (s.chainOf (s.memberQueue m)).2.2.2
  if 64 ≤ e && e < 96 then s.ulUp (e - 64)
  else if 96 ≤ e && e < 98 then (s.pr.ropes.get {} (e - 96)).st == 2 else true

/-- The member that serves buckets configured to member c of group g: c, or while its buckets are moved the next one that is valid and
up. (DEDUCED, safe: log entry 33.) -/
def State.serving (s : State) (g c : Nat) : Nat :=
  if !s.cl.moved.contains (g * 16 + c) then c
  else (((List.range 15).map (fun i => (c + 1 + i) % 16)).find? (fun m =>
    s.memberValid (g * 16 + m) && s.memberUp (g * 16 + m))).getD c

/-- A spread lookup of register a. -/
def State.spreadLookup (s : State) (a : Nat) : List Nat :=
  let g := bits a 13 8
  let b := bits a 7 0
  if (List.range 16).any (fun m => s.memberValid (g * 16 + m) && s.memberUp (g * 16 + m)) then
    let m := s.serving g (bits (s.row 5 (g * 256 + b) 0) 3 0)
    lookHit (g * 256 + b) (s.memberQueue (g * 16 + m) + m * 2 ^ 16) 0
  else lookStatus 1

/-! ### Issue (R289) -/

/-- What is known of a lookup at issue: a miss on a table not defined or of another width, a spread lookup, a block that is
down; none where the tables answer later. -/
def State.lookIssue (s : State) (ternary : Bool) (tbl : Nat) (key : List Nat) : State × Option (List Nat) :=
  if s.blkDown 5 then (s, some (lookStatus 2))
  else if !ternary && tbl == 15 then
    if key.length == 1 then (s, some (s.spreadLookup (key.headD 0))) else (s.bump F.CL_ERRCNT_width_err, some (lookStatus 1))
  else
    let d := descRow ternary tbl
    if !s.descValid d then (s.bump F.CL_ERRCNT_undef_tbl, some (lookStatus 1))
    else if s.descN d != key.length then (s.bump F.CL_ERRCNT_width_err, some (lookStatus 1))
    else (s, none)

end Sys2Proof.Machine
end

