-- ==== Sys2Proof/Machine/ParseOps.lean ====
section
/-! DEFINITION. The operand forms and shared steps of the parse instructions (R261 to R280): registers, the head window, the
encoding, what an instruction waits for, faults, verdicts. -/

namespace Sys2Proof.Machine

/-! ### Registers and flags (R262, R269) -/

/-- Register number n of a pass; p0 reads 0. -/
def Pass.rN (x : Pass) (n : Nat) : Nat := if n = 0 then 0 else x.regs.getD n 0

def Pass.r (x : Pass) (a : P5) : Nat := x.rN a.toNat

/-- Register number n set to v; p0 discards it. -/
def Pass.putN (x : Pass) (n v : Nat) : Pass := if n = 0 then x else { x with regs := x.regs.set n (v % 2 ^ 36) }

/-- A result in d with Z and N, and the C and V its operation gives. -/
def Pass.alu (x : Pass) (d : P5) (a : Alu) : Pass :=
  let y := x.putN d.toNat a.val
  { y with z := a.val % 2 ^ 36 == 0, n := bit a.val 35, c := a.c.getD x.c, v := a.v.getD x.v }

/-- Whether a condition holds: those of R191, and 15, taken when X = 1 (R269). -/
def Pass.cond (x : Pass) (c : G4) : Bool :=
  match c.toNat with
  | 0 => true
  | 1 => x.z
  | 2 => !x.z
  | 3 => x.c
  | 4 => !x.c
  | 5 => x.n
  | 6 => !x.n
  | 7 => x.v
  | 8 => !x.v
  | 9 => x.c && !x.z
  | 10 => !x.c || x.z
  | 11 => x.n == x.v
  | 12 => x.n != x.v
  | 13 => !x.z && x.n == x.v
  | 14 => x.z || x.n != x.v
  | _ => x.x

/-- A shift's result where the amount may reach the width: 36 or more shifts everything out (R271). -/
def shl36 (a n : Nat) : Alu := if n < 37 then aluShl 36 a n else ⟨0, some false, none⟩
def shr36 (a n : Nat) : Alu := if n < 37 then aluShr a n else ⟨0, some false, none⟩
def sra36 (a n : Nat) : Alu := if n < 37 then aluSra 36 a n else ⟨if bit a 35 then 2 ^ 36 - 1 else 0, some (bit a 35), none⟩

/-- A 20-bit immediate, sign-extended to 36 bits. -/
def sext20 (i : BitVec 20) : Nat := wrapTo 36 (signed 20 i.toNat)

/-! ### Encoding (R268) -/

def pR (op d a b : Nat) : Nat := op * 2 ^ 30 + d * 2 ^ 25 + a * 2 ^ 20 + b * 2 ^ 15
def pI (op d a imm : Nat) : Nat := op * 2 ^ 30 + d * 2 ^ 25 + a * 2 ^ 20 + imm
def pE (op d a off w1 : Nat) : Nat := op * 2 ^ 30 + d * 2 ^ 25 + a * 2 ^ 20 + w1 * 2 ^ 14 + off
def pK (op d a tbl n1 sym : Nat) : Nat := op * 2 ^ 30 + d * 2 ^ 25 + a * 2 ^ 20 + tbl * 2 ^ 16 + n1 * 2 ^ 13 + sym * 2 ^ 12
def pB (op cond target : Nat) : Nat := op * 2 ^ 30 + cond * 2 ^ 26 + target
def pV (op a b imm : Nat) : Nat := op * 2 ^ 30 + a * 2 ^ 20 + b * 2 ^ 15 + imm

/-- A word is illegal under R268: a reserved opcode, a field shown as 0 that is not 0, an immediate out of range, bfx or bfi past
the word, registers past p31, undefined bits of a verdict. -/
def illegalParse (w : Nat) : Bool :=
  let d := bits w 29 25
  let a := bits w 24 20
  let b := bits w 19 15
  let lo := bits w 14 0
  let imm := bits w 19 0
  let width := bits w 19 14 + 1
  let n := bits w 15 13 + 1
  match bits w 35 30 with
  | 0x01 | 0x21 => bits w 29 0 != 0
  | 0x02 | 0x03 | 0x04 | 0x05 | 0x06 | 0x07 | 0x08 | 0x09 | 0x0B | 0x0C | 0x0D => lo != 0
  | 0x0A => d != 0 || lo != 0
  | 0x0E | 0x0F | 0x10 | 0x11 => false
  | 0x12 | 0x1A => d != 0
  | 0x13 => a != 0
  | 0x14 => a != 0 || decide (0xFFFF < imm)
  | 0x15 | 0x16 => decide (35 < imm)
  | 0x17 | 0x18 => decide (36 < bits w 13 0 + width)
  | 0x19 => decide (36 < width)
  | 0x1B => a != 0 || decide (6 < imm)
  | 0x1C => bits w 19 16 != 0 || bits w 11 0 != 0 || decide (31 < a + n - 1)
  | 0x1D | 0x1E => bits w 12 0 != 0 || decide (31 < a + n - 1) || decide (31 < d + 2)
  | 0x1F => bits w 25 12 != 0
  | 0x20 => bits w 29 12 != 0
  | 0x22 => d != 0 || decide (1 < lo)
  | 0x23 => d != 0 || a != 0 || b != 0 || decide (0xFF < lo)
  | 0x24 => d != 0 || a != 0 || b != 0 || decide (0xF < lo)
  | 0x25 => d != 0 || a != 0 || b != 0 || decide (0xFF < lo) || decide (lo < 0x10)
  | _ => true

/-! ### Work, images -/

def State.work (s : State) (pid : Nat) : Option Work := s.pc.work.find? (fun w => w.pkt.pid == pid)

def State.putWork (s : State) (w : Work) : State :=
  { s with pc := { s.pc with work := s.pc.work.map (fun v => if v.pkt.pid == w.pkt.pid then w else v) } }

def State.dropWork (s : State) (pid : Nat) : State :=
  { s with pc := { s.pc with work := s.pc.work.filter (fun v => v.pkt.pid != pid) } }

/-- The parse generation a packet carries: the current one or the retiring one. -/
def State.parseGen (s : State) (g : Nat) : ParseGen := if g = (s.gen .parse).cur then s.pc.cur else s.pc.old

/-- A word of the parse image of a bank. -/
def State.parseWord (s : State) (bank : Bool) (a : Nat) : Nat := (if bank then s.pc.bank1 else s.pc.bank0).get 0 a

/-- The domain of a core's half. -/
def coreDomain (c : Nat) : Nat := if c < 64 then 8 else 9

/-- Core c is fenced or in a half that is down: it takes no staged words (R281). -/
def State.coreOut (s : State) (c : Nat) : Bool := s.fenced (.core c) || s.domDown (coreDomain c)

def staleKey (c : Nat) (bank : Bool) (a : Nat) : Nat := (c * 2 + b2n bank) * 4096 + a

/-- A word of a bank of core c's own store (R281). -/
def State.coreWord (s : State) (c : Nat) (bank : Bool) (a : Nat) : Nat :=
  (s.pc.stale.get none (staleKey c bank a)).getD (s.parseWord bank a)

/-- Core c keeps its own word at the address, having the image store's value old until now, or takes the one staged (R281). -/
def State.staleAt (s : State) (bank : Bool) (a old : Nat) (t : Tab (Option Nat)) (c : Nat) : Tab (Option Nat) :=
  let k := staleKey c bank a
  if !s.coreOut c then t.set none k none else if (t.get none k).isSome then t else t.set none k (some old)

/-- A word stored in a bank of the image store and in that of every core in service (R281). -/
def State.storeWord (s : State) (bank : Bool) (a w : Nat) : State :=
  let st := (List.range 128).foldl (s.staleAt bank a (s.parseWord bank a)) s.pc.stale
  { s with pc := if bank then { s.pc with bank1 := s.pc.bank1.set 0 a w, stale := st }
                 else { s.pc with bank0 := s.pc.bank0.set 0 a w, stale := st } }

/-- Core c loads the current and the staged image from the image store (R284, R502). -/
def State.loadCore (s : State) (c : Nat) : State :=
  { s with pc := { s.pc with stale := s.pc.stale.filter (fun e => e.1 / 8192 != c) } }

def State.passMax (s : State) : Nat := max 0x40 (s.rd F.PC_CTRL_pass_max)
def State.passLimit (s : State) : Nat := max 1 (min 8 (s.rd F.PC_CTRL_pass_limit))

/-! ### The head window (R267) -/

/-- lim: the bytes of the window that the packet fills. -/
def Work.lim (w : Work) : Nat := min 256 (w.pkt.bytes.length - w.origin)

/-- Bit i of the window, most significant bit of its first byte first; 0 past the end. -/
def Work.winBit (w : Work) (i : Nat) : Bool :=
  decide (i < w.lim * 8) && (match w.pkt.bytes[w.origin + i / 8]? with
    | some b => bit b.toNat (7 - i % 8)
    | none => false)

/-- n bits of the window from bit p on, first bit most significant. -/
def Work.extract (w : Work) (p n : Nat) : Nat := (List.range n).foldl (fun v i => v * 2 + b2n (w.winBit (p + i))) 0

/-! ### Faults and verdicts (R276 to R280) -/

/-- The pass ends with its verdict: p8 to p15 and the cursor are what it leaves. -/
def Work.end_ (w : Work) (x : Pass) (v : Verdict) : Work :=
  { w with run := none, verdict := some v, carry := (x.regs.drop 8).take 8, cursor := x.cur, core := some x.core }

/-- The pass of packet pid ends with a verdict, counted at its source (R494). -/
def State.endPass (s : State) (w : Work) (x : Pass) (v : Verdict) : State := (s.putWork (w.end_ x v)).count 4 1 w.place

/-- A program fault (R278 to R280): counted, reported the first time in each ms, and the packet to the exception path. -/
def State.parseFault (s : State) (w : Work) (x : Pass) (code : Nat) : State :=
  let s := ((s.bump F.PC_FAULT_faults).wr F.PC_FAULT_code code).wr F.PC_FAULT_pc x.pc
  let s := if s.pc.faultMs == some s.msNow then s
    else { s with pc := { s.pc with faultMs := some s.msNow } }.raise 4 x.core 0x4001
      (code * 2 ^ 16 + w.pkt.src * 2 ^ 24 + x.pc % 2 ^ 12)
  s.endPass w x (.exc 0 code (x.pc % 2 ^ 12))

/-- The registers an outstanding lookup or hash will write. -/
def Look.regs (l : Look) : List Nat := (List.range (if l.kind = 2 then l.res.length else 3)).map (· + l.dst)

/-- What an instruction does to a pass: its new form, or a fault code. -/
abbrev Retire := Except Nat Pass

/-- An instruction of packet pid's pass whose word is w stands to retire: the pass has a thread, stands at exactly this word, and
none of the registers it reads or writes awaits a result (R264, R275). -/
def State.parseReady (s : State) (pid w : Nat) (uses : List Nat) : Option (Work × Pass) :=
  match s.work pid with
  | none => none
  | some k => match k.run with
    | none => none
    | some x =>
      let g := s.parseGen k.pkt.pgen
      if s.coreWord x.core g.bank x.pc != w then none
      else if (x.looks.flatMap Look.regs).any (fun r => r != 0 && uses.contains r) then none
      else some (k, x)

/-- The faults that stand before an instruction's own: 1, 2 (pass_max instructions have retired), 5; the lowest counts (R278).
(DEDUCED, unsafe: log entry 36.) -/
def State.preFault (s : State) (k : Work) (x : Pass) (w : Nat) : Option Nat :=
  let len := (s.parseGen k.pkt.pgen).len
  if x.pc < len && illegalParse w then some 1
  else if s.passMax ≤ x.count then some 2
  else if len ≤ x.pc then some 5 else none

/-- The pass with its pc past the instruction it retires. -/
def Pass.past (x : Pass) : Pass := { x with pc := x.pc + 1, count := x.count + 1 }

/-- An instruction that is no verdict: f gets the pass with pc already past it. -/
def State.parseStep (s : State) (pid w : Nat) (uses : List Nat) (f : Work → Pass → Retire) : State :=
  match s.parseReady pid w uses with
  | none => s
  | some (k, x) => match s.preFault k x w with
    | some c => s.parseFault k x c
    | none => match f k x.past with
      | .error c => s.parseFault k x c
      | .ok y => s.putWork { k with run := some y }

/-- A lookup or hash issued: no fifth outstanding (R275). -/
def State.parseIssue (s : State) (pid w : Nat) (uses : List Nat) (f : State → Pass → State × Look) : State :=
  match s.parseReady pid w uses with
  | none => s
  | some (k, x) =>
    if 4 ≤ x.looks.length then s
    else match s.preFault k x w with
      | some c => s.parseFault k x c
      | none =>
        let (s, l) := f s x
        s.putWork { k with run := some { x.past with looks := x.looks ++ [l] } }

/-- A verdict: it waits until every result of its thread has arrived (R275). -/
def State.parseVerdict (s : State) (pid w : Nat) (f : Pass → Verdict) : State :=
  match s.parseReady pid w [] with
  | none => s
  | some (k, x) =>
    if !x.looks.isEmpty then s
    else match s.preFault k x w with
      | some c => s.parseFault k x c
      | none => s.endPass k x (f x)

/-- pc set to an address inside the image, or fault 5. -/
def State.parseGoto (s : State) (k : Work) (x : Pass) (t : Nat) : Retire :=
  if t < (s.parseGen k.pkt.pgen).len then .ok { x with pc := t } else .error 5

end Sys2Proof.Machine
end

