-- ==== Sys2Proof/Machine/ParseIsa.lean ====
section
/-! DEFINITION. The parse instruction set (R270 to R275), one meaning per instruction. pid is the packet whose pass retires
the instruction. -/

namespace Sys2Proof.Machine

/-! ### Arithmetic, logic and shifts -/

def execParseNop (pid : Nat) (s : State) : Res := act s (·.parseStep pid (pR 0x01 0 0 0) [] fun _ x => .ok x)

/-- A register instruction whose result and flags an ALU function gives. -/
def State.parseAlu (s : State) (pid op : Nat) (d a b : P5) (f : Nat → Nat → Alu) : State :=
  s.parseStep pid (pR op d.toNat a.toNat b.toNat) [d.toNat, a.toNat, b.toNat] fun _ x => .ok (x.alu d (f (x.r a) (x.r b)))

/-- The same with an immediate as its second operand. -/
def State.parseImm (s : State) (pid op : Nat) (d a : P5) (imm : BitVec 20) (f : Nat → Alu) : State :=
  s.parseStep pid (pI op d.toNat a.toNat imm.toNat) [d.toNat, a.toNat] fun _ x => .ok (x.alu d (f (x.r a)))

def execParseAdd (pid : Nat) (d a b : P5) (s : State) : Res :=
  act s (·.parseAlu pid 0x02 d a b fun u v => aluAdd 36 u v false)
def execParseSub (pid : Nat) (d a b : P5) (s : State) : Res :=
  act s (·.parseAlu pid 0x03 d a b fun u v => aluSub 36 u v true)
def execParseAnd (pid : Nat) (d a b : P5) (s : State) : Res :=
  act s (·.parseAlu pid 0x04 d a b fun u v => ⟨u &&& v, none, none⟩)
def execParseOr (pid : Nat) (d a b : P5) (s : State) : Res :=
  act s (·.parseAlu pid 0x05 d a b fun u v => ⟨u ||| v, none, none⟩)
def execParseXor (pid : Nat) (d a b : P5) (s : State) : Res :=
  act s (·.parseAlu pid 0x06 d a b fun u v => ⟨u ^^^ v, none, none⟩)
def execParseShl (pid : Nat) (d a b : P5) (s : State) : Res :=
  act s (·.parseAlu pid 0x07 d a b fun u v => shl36 u (v % 64))
def execParseShr (pid : Nat) (d a b : P5) (s : State) : Res :=
  act s (·.parseAlu pid 0x08 d a b fun u v => shr36 u (v % 64))
def execParseSra (pid : Nat) (d a b : P5) (s : State) : Res :=
  act s (·.parseAlu pid 0x09 d a b fun u v => sra36 u (v % 64))
def execParseCmp (pid : Nat) (a b : P5) (s : State) : Res :=
  act s (·.parseAlu pid 0x0A 0 a b fun u v => aluSub 36 u v true)
def execParseMin (pid : Nat) (d a b : P5) (s : State) : Res :=
  act s (·.parseAlu pid 0x0B d a b fun u v => ⟨min u v, none, none⟩)
def execParseMax (pid : Nat) (d a b : P5) (s : State) : Res :=
  act s (·.parseAlu pid 0x0C d a b fun u v => ⟨max u v, none, none⟩)
def execParseMul (pid : Nat) (d a b : P5) (s : State) : Res :=
  act s (·.parseAlu pid 0x0D d a b fun u v => ⟨u * v % 2 ^ 36, none, none⟩)
def execParseAddi (pid : Nat) (d a : P5) (imm : BitVec 20) (s : State) : Res :=
  act s (·.parseImm pid 0x0E d a imm fun u => aluAdd 36 u (sext20 imm) false)
def execParseAndi (pid : Nat) (d a : P5) (imm : BitVec 20) (s : State) : Res :=
  act s (·.parseImm pid 0x0F d a imm fun u => ⟨u &&& imm.toNat, none, none⟩)
def execParseOri (pid : Nat) (d a : P5) (imm : BitVec 20) (s : State) : Res :=
  act s (·.parseImm pid 0x10 d a imm fun u => ⟨u ||| imm.toNat, none, none⟩)
def execParseXori (pid : Nat) (d a : P5) (imm : BitVec 20) (s : State) : Res :=
  act s (·.parseImm pid 0x11 d a imm fun u => ⟨u ^^^ imm.toNat, none, none⟩)
def execParseCmpi (pid : Nat) (a : P5) (imm : BitVec 20) (s : State) : Res :=
  act s (·.parseImm pid 0x12 0 a imm fun u => aluSub 36 u (sext20 imm) true)
def execParseLdi (pid : Nat) (d : P5) (imm : BitVec 20) (s : State) : Res :=
  act s (·.parseImm pid 0x13 d 0 imm fun _ => ⟨imm.toNat, none, none⟩)
/-- ldu reads d: its low 20 bits stay. -/
def execParseLdu (pid : Nat) (d : P5) (imm : BitVec 20) (s : State) : Res :=
  act s (·.parseStep pid (pI 0x14 d.toNat 0 imm.toNat) [d.toNat] fun _ x =>
    .ok (x.alu d ⟨imm.toNat * 2 ^ 20 + x.r d % 2 ^ 20, none, none⟩))
def execParseShli (pid : Nat) (d a : P5) (imm : BitVec 20) (s : State) : Res :=
  act s (·.parseImm pid 0x15 d a imm fun u => shl36 u imm.toNat)
def execParseShri (pid : Nat) (d a : P5) (imm : BitVec 20) (s : State) : Res :=
  act s (·.parseImm pid 0x16 d a imm fun u => shr36 u imm.toNat)

/-! ### Bit fields and the window (R267) -/

def execParseBfx (pid : Nat) (d a : P5) (off : BitVec 14) (w1 : BitVec 6) (s : State) : Res :=
  act s (·.parseStep pid (pE 0x17 d.toNat a.toNat off.toNat w1.toNat) [d.toNat, a.toNat] fun _ x =>
    .ok (x.alu d ⟨x.r a / 2 ^ off.toNat % 2 ^ (w1.toNat + 1), none, none⟩))
/-- bfi reads d: the bits outside the field stay. -/
def execParseBfi (pid : Nat) (d a : P5) (off : BitVec 14) (w1 : BitVec 6) (s : State) : Res :=
  act s (·.parseStep pid (pE 0x18 d.toNat a.toNat off.toNat w1.toNat) [d.toNat, a.toNat] fun _ x =>
    let w := w1.toNat + 1
    let o := off.toNat
    .ok (x.alu d ⟨x.r d / 2 ^ (o + w) * 2 ^ (o + w) + x.r a % 2 ^ w * 2 ^ o + x.r d % 2 ^ o, none, none⟩))
def execParseExt (pid : Nat) (d a : P5) (off : BitVec 14) (w1 : BitVec 6) (s : State) : Res :=
  act s (·.parseStep pid (pE 0x19 d.toNat a.toNat off.toNat w1.toNat) [d.toNat, a.toNat] fun k x =>
    let p := (x.cur + x.r a) * 8 + off.toNat
    let w := w1.toNat + 1
    .ok { x.alu d ⟨k.extract p w, none, none⟩ with x := decide (k.lim * 8 < p + w) })
def execParseAdv (pid : Nat) (a : P5) (imm : BitVec 20) (s : State) : Res :=
  act s (·.parseStep pid (pI 0x1A 0 a.toNat imm.toNat) [a.toNat] fun k x =>
    let t := x.cur + x.r a + imm.toNat
    .ok (if k.lim < t then { x with cur := k.lim, x := true } else { x with cur := t, x := false }))
def execParseMfs (pid : Nat) (d : P5) (sel : BitVec 20) (s : State) : Res :=
  act s (·.parseStep pid (pI 0x1B d.toNat 0 sel.toNat) [d.toNat] fun k x =>
    .ok (x.putN d.toNat (match sel.toNat with
      | 0 => x.cur
      | 1 => k.origin
      | 2 => k.passNo
      | 3 => k.pkt.pgen
      | 4 => k.pkt.rgen
      | 5 => x.core
      | _ => x.thread)))

/-! ### Lookups and hashes (R272 to R275) -/

/-- Key registers a to a + n − 1. -/
def Pass.key (x : Pass) (a : P5) (n : Nat) : List Nat := (List.range n).map (fun i => x.rN (a.toNat + i))

/-- The registers a lookup or hash reads and writes. -/
def lookUses (d a : P5) (n writes : Nat) : List Nat :=
  (List.range n).map (· + a.toNat) ++ (List.range writes).map (· + d.toNat)

def execParseHsh (pid : Nat) (d a : P5) (n1 : BitVec 3) (sym : Bool) (s : State) : Res :=
  act s (·.parseIssue pid (pK 0x1C d.toNat a.toNat 0 n1.toNat (b2n sym)) (lookUses d a (n1.toNat + 1) 1) fun s x =>
    let key := x.key a (n1.toNat + 1)
    (s, ⟨d.toNat, 2, 0, key, [hashOf key sym]⟩))

/-- lkx and lkt. (DEDUCED, unsafe: log entry 31.) -/
def State.parseLookup (s : State) (pid op : Nat) (ternary : Bool) (d a : P5) (tbl : BitVec 4) (n1 : BitVec 3) : State :=
  s.parseIssue pid (pK op d.toNat a.toNat tbl.toNat n1.toNat 0) (lookUses d a (n1.toNat + 1) 3) fun s x =>
    let key := x.key a (n1.toNat + 1)
    match s.lookIssue ternary tbl.toNat key with
    | (s', some r) => (s', ⟨d.toNat, 2, tbl.toNat, key, r⟩)
    | (s', none) => (s', ⟨d.toNat, b2n ternary, tbl.toNat, key, []⟩)

def execParseLkx (pid : Nat) (d a : P5) (tbl : BitVec 4) (n1 : BitVec 3) (s : State) : Res :=
  act s (·.parseLookup pid 0x1D false d a tbl n1)
def execParseLkt (pid : Nat) (d a : P5) (tbl : BitVec 4) (n1 : BitVec 3) (s : State) : Res :=
  act s (·.parseLookup pid 0x1E true d a tbl n1)

/-- LOOKUP_REPLY (R272 to R275, R296 to R300, R305): outstanding result number i arrives; an unbound packet's first hit in a
partitioned table binds it. -/
def execLookupReply (pid : Nat) (i : Nat) (read : LookRead) (s : State) : Res :=
  act s fun s => match s.work pid with
    | none => s
    | some k => match k.run with
      | none => s
      | some x => match x.looks[i]? with
        | none => s
        | some l => if l.kind != 2 && s.rowWaits 5 read.macroNo.toNat read.row.toNat then s else
          let (s, res, ten) : State × List Nat × Option Nat :=
            if l.kind = 2 then (s, l.res, none)
            else if s.blkDown 5 then (s, lookStatus 2, none)
            else
              let (s, bad) := s.rowRead 5 read.macroNo.toNat read.row.toNat read.errs
              if l.kind = 1 then
                let (r, t) := s.ternLookup l.tbl l.key k.pkt.bound k.pkt.rgen
                if bad then (s, lookStatus 3, none) else (s, r, t)
              else s.exactLookup l.tbl l.key k.pkt.bound k.pkt.rgen bad read.lines
          let y := res.zipIdx.foldl (fun (y : Pass) r => y.putN (l.dst + r.2) r.1) { x with looks := x.looks.eraseIdx i }
          let bound := match k.pkt.bound with
            | some b => some b
            | none => ten
          s.putWork { k with run := some y, pkt := { k.pkt with bound := bound } }

/-! ### Control flow -/

def execParseBr (pid : Nat) (cond : G4) (target : BitVec 12) (s : State) : Res :=
  act s fun s => s.parseStep pid (pB 0x1F cond.toNat target.toNat) [] fun k x =>
    if x.cond cond then s.parseGoto k x target.toNat else .ok x
/-- call: four levels (fault 4). -/
def execParseCall (pid : Nat) (target : BitVec 12) (s : State) : Res :=
  act s fun s => s.parseStep pid (pB 0x20 0 target.toNat) [] fun k x =>
    if 4 ≤ x.stack.length then .error 4 else s.parseGoto k { x with stack := x.pc :: x.stack } target.toNat
def execParseRet (pid : Nat) (s : State) : Res :=
  act s fun s => s.parseStep pid (pR 0x21 0 0 0) [] fun k x =>
    match x.stack with
    | [] => .error 4
    | t :: r => s.parseGoto k { x with stack := r } t

/-! ### Verdicts (R276) -/

def execParseEnq (pid : Nat) (a b : P5) (imm : BitVec 15) (s : State) : Res :=
  act s (·.parseVerdict pid (pV 0x22 a.toNat b.toNat imm.toNat) fun x =>
    .enq (x.r a % 2 ^ 16) (x.r b % 2 ^ 17) (bit imm.toNat 0))
def execParseDrp (pid : Nat) (imm : BitVec 15) (s : State) : Res :=
  act s (·.parseVerdict pid (pV 0x23 0 0 imm.toNat) fun _ => .drp imm.toNat)
def execParseRcv (pid : Nat) (imm : BitVec 15) (s : State) : Res :=
  act s (·.parseVerdict pid (pV 0x24 0 0 imm.toNat) fun _ => .rcv imm.toNat)
def execParseExc (pid : Nat) (imm : BitVec 15) (s : State) : Res :=
  act s (·.parseVerdict pid (pV 0x25 0 0 imm.toNat) fun _ => .exc imm.toNat 0 0)

/-- PARSE_ILLEGAL_INSTRUCTION: the pass stands at an illegal word (fault 1), or at or beyond the image length (fault 5). -/
def execParseIllegalInstruction (pid : Nat) (s : State) : Res :=
  act s fun s => match s.work pid with
    | none => s
    | some k => match k.run with
      | none => s
      | some x =>
        let g := s.parseGen k.pkt.pgen
        if g.len ≤ x.pc then s.parseFault k x (if s.passMax ≤ x.count then 2 else 5)
        else if illegalParse (s.coreWord x.core g.bank x.pc) then s.parseFault k x 1
        else s

end Sys2Proof.Machine
end

