-- ==== Sys2Proof/Machine/Ub.lean ====
section
/-! DEFINITION. Upstream burst reception (R81 to R117): arming, the delimiter, codewords, framing, delivery, presets,
defects, circuit fill. -/

namespace Sys2Proof.Machine

/-! ### Receive configuration (R81, R82, R89, R111) -/

/-- The least short and long preambles of a rate, in quanta (R82). -/
def minPre (rate : Nat) : Nat × Nat :=
  match rate with
  | 0 => (32, 125) | 1 => (16, 63) | 2 => (8, 32) | _ => (7, 25)

/-- rx_en is refused: 1 no PRX lane, 3 rate and ds_mode differ, 2 rate not available, in that order (R81). -/
def State.rxRefusal (s : State) (p : Nat) : Nat :=
  let rate := s.rd F.UB_TREE_CFG_us_rate p
  if !s.laneUp (64 + p) then 1
  else if (rate == 3) != s.on F.TP_CTRL_ds_mode p then 3
  else if rate == 0 && !s.feat 0 then 2 else 0

/-- The stored preambles raised to the least of a rate. -/
def State.raisePre (s : State) (p rate : Nat) : State :=
  let (a, b) := minPre rate
  (s.wr F.UB_TREE_PROF_short_pre_q (max a (s.rd F.UB_TREE_PROF_short_pre_q p)) p).wr
    F.UB_TREE_PROF_long_pre_q (max b (s.rd F.UB_TREE_PROF_long_pre_q p)) p

/-- The value stored by a write of UB_TREE_CFG. -/
def State.ubCfg (s : State) (p v : Nat) : State :=
  let was := s.on F.UB_TREE_CFG_rx_en p
  let s := if was then s
    else
      let s := ((s.wr F.UB_TREE_CFG_delim_err (bits v 27 24) p).wr F.UB_TREE_CFG_delim_win (bits v 20 18) p).wr
        F.UB_TREE_CFG_us_rate (bits v 17 16) p
      let s := ((s.wr F.UB_TREE_CFG_guard_q (bits v 15 8) p).wr F.UB_TREE_CFG_new_guard_q (bits v 5 4) p).wr
        F.UB_TREE_CFG_xgs_fec (bits v 3 3) p
      s.raisePre p (s.usRate p)
  if !bit v 0 then s.wr F.UB_TREE_CFG_rx_en 0 p
  else if was then s
  else
    let n := s.rxRefusal p
    let s := (s.wr F.UB_TREE_STATUS_en_status n p).wr F.UB_TREE_CFG_rx_en (b2n (n == 0)) p
    s.when (n == 0) (·.wr F.UB_TREE_STATUS_idle 1 p)

/-- UB_TREE_CFG_WRITE. -/
def execUbTreeCfgWrite (r : Requester) (p : Port) (v : Word) (s : State) : Res :=
  act s fun s => if !s.reach r 2 || s.portDown 2 p then s
    else
      let s := s.ubCfg p v.toNat
      s.mirror r [(F.UB_TREE_CFG_rx_en.at_ p, v.toNat)] none (s.rd F.UB_TREE_STATUS_en_status p)

/-- UB_TREE_PROF_WRITE (R82): while rx_en is 0, of the even port where the pair shares. -/
def execUbTreeProfWrite (r : Requester) (p : Port) (v : Word) (s : State) : Res :=
  act s fun s =>
    let q := p.val
    if !s.reach r 2 || s.portDown 2 q || s.on F.UB_TREE_CFG_rx_en (s.rxPort q) then s
    else
      let n := v.toNat
      let s := ((s.wr F.UB_TREE_PROF_delim_q (bits n 25 24) q).wr F.UB_TREE_PROF_long_pre_q (bits n 23 16) q).wr
        F.UB_TREE_PROF_short_pre_q (bits n 7 0) q
      (s.raisePre q (s.usRate q)).mirror r
        [(F.UB_TREE_PROF_delim_q.at_ q, n)] none 0

/-! ### Defects (R112 to R114) -/

/-- A tree defect sets or clears, with its event unless masked. When dLOS clears, each terminal still in LOBi is reported
(R114). -/
def State.treeDefect (s : State) (p d : Nat) (set : Bool) : State :=
  let m := s.rd F.UB_TREE_STATUS_defects p
  if s.treeHas p d == set then s
  else
    let s := s.wr F.UB_TREE_STATUS_defects (if set then m + 2 ^ d else m - 2 ^ d) p
    let s := s.when set (·.wr F.UB_TREE_DEFECT_latched (s.rd F.UB_TREE_DEFECT_latched p ||| 2 ^ d) p)
    let s := s.when (!bit (s.rd F.UB_TREE_DEFECT_mask p) d) (·.raise 2 p ((if set then 0x0100 else 0x0200) + d) 0)
    if d = 0 && !set then
      (s.taken.filter (fun t => s.rxPort (s.ctx t).port == p && bit (s.trx t).defects 0
          && !bit (s.rd F.UB_TREE_DEFECT_tmask (s.ctx t).port) 0)).foldl (fun s t => s.raise 2 (s.ctx t).port 0x0400 t) s
    else s

/-- What LOBi does to the context's activation state (R124, R150); a standby takes it from its partner (R149). -/
def State.lobiMove (s : State) (t : Nat) (set : Bool) : State :=
  if s.isStandby then s
  else match (s.ctx t).st, set with
    | .operating, true => s.setActState t .lost
    | .lost, false => s.setActState t .operating
    | _, _ => s

/-- A terminal defect sets or clears, with its event unless masked, or, for LOBi, the tree has dLOS (R113, R114). -/
def State.termDefect (s : State) (t d : Nat) (set : Bool) : State :=
  let x := s.trx t
  if bit x.defects d == set then s
  else
    let p := (s.ctx t).port
    let s := s.setTrx t { x with defects := if set then x.defects + 2 ^ d else x.defects - 2 ^ d }
    let quiet := bit (s.rd F.UB_TREE_DEFECT_tmask p) d || (d == 0 && s.treeHas (s.rxPort p) 0)
    let s := s.when (!quiet) (·.raise 2 p ((if set then 0x0400 else 0x0500) + d) t)
    s.when (d == 0) (·.lobiMove t set)

/-- lobi_n, 0 acting as 1. -/
def State.lobiN (s : State) : Nat := max 1 (s.rd F.UB_THRESH_lobi_n)
def State.recallN (s : State) : Nat := max 1 (s.rd F.UB_THRESH_recall_fail_n)

/-- The terminal has an uncorrectable codeword in bursts of 4 of its last 16 frames with bursts, the frame in progress among them
(R112). -/
def TermRx.uncHolds (x : TermRx) : Bool :=
  let l := match x.uncNow with
    | some b => b :: x.unc.take 15
    | none => x.unc
  decide (4 ≤ (l.filter id).length)

/-- The condition of a defect, for a set: it has persisted for the set time; for a clear: its absence has not persisted for the clear
time (R112). (DEDUCED, safe: log entry 106.) -/
def State.ubCondition (s : State) (d : UbDefect) (set : Bool) : Bool :=
  match d with
  | .tree p k =>
    let x := s.rx p
    match k.val with
    | 0 => if set then decide (8 ≤ x.losRun) else decide (x.losClear < 2)
    | 1 => s.laneLostFor (64 + p.val) set
    | 2 => if set then decide (8 ≤ (x.uxl.filter id).length) else x.uxl.any id || x.uxlNow
    | _ => !set && decide (s.ts.run < x.decoAt + millisecond)
  | .term t k =>
    let x := s.trx t
    match k.val with
    | 0 => decide (s.lobiN ≤ x.miss)
    | 1 => (s.preset t).st != .trained && bit x.defects 1
    | 2 => x.uncHolds || (!set && decide (s.ts.run < x.uncAt + second))
    | 3 => if set then x.sd.high else decide (x.sd.low < 10)
    | _ => !set && decide (s.ts.run < x.forAt + second)

def execUbDefectTimer (d : UbDefect) (set : Bool) (s : State) : Res :=
  act s fun s => if s.ubCondition d set != set then s
    else match d with
      | .tree p k => if s.portDown 2 p || !s.on F.UB_TREE_CFG_rx_en p then s else s.treeDefect p k.val set
      | .term t k => if (s.ctx t).st == .free then s else s.termDefect t k.val set

/-! ### Presets (R91 to R97) -/

/-- A preset falls to training, its values kept (R94 to R96): the event with its reason; dPRES but on a command. The recall-failure count
starts anew. (DESIGN CHOICE, unsafe: log entry 107.) -/
def State.dropPreset (s : State) (t reason : Nat) : State :=
  let s := s.setPState t { s.preset t with st := .training, clean := 0, fails := 0 }
  let s := s.raise 2 (s.ctx t).port 0x0A00 (t + reason * 2 ^ 30)
  s.when (reason != 2) (·.termDefect t 1 true)

/-- A preset older than age_limit is not trained (R95). -/
def State.ageOut (s : State) (t : Nat) : State :=
  if s.feat 2 && (s.preset t).st == .trained && decide (s.ageLimit < s.presetAge t) then s.dropPreset t 1 else s

def execPresetAgeOut (t : Term) (s : State) : Res := act s (·.ageOut t)

/-- A recall burst of a trained preset failed (R94). -/
def State.recallFail (s : State) (t : Nat) : State :=
  let x := s.preset t
  if s.recallN ≤ x.fails + 1 then s.dropPreset t 0 else s.setPreset t { x with fails := x.fails + 1 }

/-- The preset as a query shows it (R93, R95, R97). -/
def State.presetShown (s : State) (t : Nat) : Nat × Nat × Nat × Nat :=
  let x := s.preset t
  if !s.feat 2 then (0, 0, 0, 0)
  else if x.st == .trained && decide (s.ageLimit < s.presetAge t) then (1, 0, x.fails, s.presetAge t)
  else (x.st.code, x.clean, x.fails, s.presetAge t)

/-- UB_TERM_STATUS, UB_TERM_DATA and UB_TERM_AGE after a command. -/
def State.presetReply (s : State) (t res : Nat) : State :=
  let (st, clean, fails, age) := s.presetShown t
  let x := s.trx t
  let s := (s.wr F.UB_TERM_STATUS_result res).wr F.UB_TERM_DATA_term t
  let s := ((s.wr F.UB_TERM_STATUS_pstate st).wr F.UB_TERM_STATUS_clean clean).wr F.UB_TERM_STATUS_recall_fail (sat 15 fails)
  ((s.wr F.UB_TERM_STATUS_defects x.defects).wr F.UB_TERM_DATA_offset (wrapTo 16 x.offset)).wr
    F.UB_TERM_AGE_age_ms (sat 0xFFFF age)

/-- PRESET_QUERY (R97). -/
def execPresetQuery (r : Requester) (t : Term) (s : State) : Res :=
  act s fun s => match r with
    | .vf _ => s
    | _ => if s.shut 2 F.UB_TERM_CMD_op then s
      else if s.on F.UB_TERM_STATUS_busy then s.wr F.UB_TERM_STATUS_result 1
      else s.presetReply t (if (s.ctx t).st == .free then 2 else 0)

/-- PRESET_DROP (R96, R97). Refusal 2 is tested before 3. (DESIGN CHOICE, safe: log entry 108.) -/
def execPresetDrop (r : Requester) (t : Term) (s : State) : Res :=
  act s fun s => if !s.reach r 2 || s.shut 2 F.UB_TERM_CMD_op then s
    else if s.on F.UB_TERM_STATUS_busy then s.wr F.UB_TERM_STATUS_result 1
    else if (s.ctx t).st == .free then s.presetReply t 2
    else if !s.feat 2 then s.presetReply t 3
    else ((s.dropPreset t 2).presetReply t 0).mirror r [(F.UB_TERM_CMD_op.off, 2 ^ 30 + t.val)] none 0

/-! ### Where a burst lies (R83, R86, R101, R111, R134, R362) -/

/-- The burst of port p with its first quantum. -/
def State.burst (s : State) (p first : Nat) : Option Burst := (s.rx p).armed.find? (fun b => b.first == first)

/-- Quantum q of the time line of port p in 1/16 bit at the rate of port i. -/
def State.own16 (s : State) (p i q : Nat) : Nat := q * 1024 * s.qpf i / s.qpf p

/-- A stretch of quanta overlaps the shadow of a window: its arrival range but for the quiet slice (R131, R133). -/
def inShadow (wins : List MapWin) (lo hi : Nat) : Bool :=
  wins.any (fun w => (decide (lo < w.s + w.off) && decide (w.s < hi))
    || (decide (lo < w.s + w.span) && decide (w.s + w.off + w.width < hi)))

def burstEnd (b : List MapStruct) : Nat := (b.getLast?.map (fun c => c.start + c.len)).getD 0

/-- When a burst of receiver p whose first data bit lies at pos came, in 2^-40 ns: the time base at the first bit of its delimiter,
within its reference cycle to 1/16 bit, less lat_in (R362). (DEDUCED, unsafe: log entry 109.) -/
def State.burstTime (s : State) (p : Nat) (b : Burst) (pos : Int) : Int :=
  let cycle := s.qpf b.port * 1024 / 19440
  let frame := s.qpf b.port * 1024
  let at_ : Int := (s.rd F.GE_DISC_DIST_teq (s.treeNo p) * frame / 1250 : Nat) + pos - (s.delimQ b.port * 1024 : Nat)
  let ago := ((s.ts.phase * cycle : Nat) - at_) % (frame : Nat)
  let ago := if (frame : Int) < ago + (cycle : Nat) then ago - (frame : Nat) else ago
  s.fullTime - ago * (s.ts.incr : Nat) / (cycle : Nat) - (s.rd F.TS_PORT_LAT_lat_in p * 2 ^ 40 / 10 : Nat)

/-- The same as its stamp. -/
def State.burstStamp (s : State) (p : Nat) (b : Burst) (pos : Int) : Nat := stampOf (s.burstTime p b pos)

/-! ### Delivery and circuit fill (R109, R115 to R117) -/

/-- A packet or a fill goes to the parse cores; a standby counts and discards it (R377). -/
def State.deliver (s : State) (p : Nat) (d : Deliv) : State :=
  if s.isStandby then { s with pr := { s.pr with dropPkts := s.pr.dropPkts + 1 } }
  else s.setRx p { s.rx p with deliv := (s.rx p).deliv ++ [d] }

def State.tenantOf (s : State) (t : Nat) : Option Nat := some (s.ctx t).tenant

def State.chain (s : State) (x : Nat) : Option Chain := s.chains.get none x
def State.setChain (s : State) (x : Nat) (c : Option Chain) : State := { s with chains := s.chains.set none x c }

/-- What is left of the open chain of port context x is discarded, to its last fragment (R109). -/
def State.killChain (s : State) (x : Nat) : State := s.setChain x ((s.chain x).map (fun c => { c with dead := true }))

/-- The same for every open chain of a terminal, into which a fragment of what was lost might have fallen (R109).
(DESIGN CHOICE, unsafe: log entry 110.) -/
def State.killChains (s : State) (t : Nat) : State :=
  { s with chains := s.chains.mapAll none (fun _ c => c.map (fun c => if c.term == t then { c with dead := true } else c)) }

/-- A fill for port context x of an armed allocation (R115): circ_bytes of 0xFF in place of the packet, the partial data
discarded, the start of a run reported. -/
def State.fill (s : State) (p t stamp x : Nat) : State :=
  let n := s.xgCircBytes x
  let s := s.killChain x
  let s := (s.deliver p ⟨t, x, List.replicate n 0xFF, true, stamp⟩).count 2 2 p n (s.tenantOf t)
  if s.fillRun.get false x then s
  else { s with fillRun := s.fillRun.set false x true }.raise 2 p 0x0600 x

/-- The fills of one structure of a burst: its circuit ports that have yielded nothing and, unless all of it is lost, have lost
a frame. -/
def State.fillStruct (s : State) (b : Burst) (all : Bool) (c : MapStruct) : State :=
  let due := c.circ.filter (fun x => s.xgValid x && s.xgCirc x && (s.alloc c.alloc).valid && !c.freed
    && !b.got.contains (c.start, x) && (all || b.lost.contains (c.start, x)))
  due.foldl (fun s x => s.fill b.port (b.owner.getD 0) b.stamp x) s

/-- An owned burst that never came, or came from another terminal: counted, its circuits filled, its terminal's chains broken
(R98, R109, R112, R115); toward LOBi only outside a shadow (R134). -/
def State.burstMissing (s : State) (b : Burst) (t : Nat) : State :=
  let s := s.count 2 3 b.port 1 (s.tenantOf t)
  let s := b.structs.foldl (fun s c => s.fillStruct b true c) (s.killChains t)
  if b.shadow then s
  else
    let n := (s.trx t).miss + 1
    let s := s.setTrx t { s.trx t with miss := n }
    if s.lobiN ≤ n then s.termDefect t 0 true else s

/-! ### Arming (R84 to R88, R111, R133, R137) -/

/-- Structures of one owner that follow one another without a gap are one burst. -/
def joinBursts (l : List MapStruct) : List (List MapStruct) :=
  l.foldl (fun bs c => match bs.getLast? with
    | some b => (match b.getLast? with
        | some d => if d.owner == c.owner && c.owner.isSome && d.start + d.len == c.start then
            bs.dropLast ++ [b ++ [c]] else bs ++ [[c]]
        | none => bs ++ [[c]])
    | none => [[c]]) []

/-- The ports whose bursts the receiver of port p takes (R111). -/
def State.rxPorts (s : State) (p : Nat) : List Nat := if s.sharedUs p then [p, p + 1] else [p]

/-- The hints that port p's receiver arms from where quantum q, less lead quanta, of an upstream frame comes now: those of its own map
and, where a pair shares, of the odd port's (R85, R111, R223). -/
def State.hintsOf (s : State) (p q lead : Nat) : List (Nat × MapRec) :=
  (s.rxPorts p).filterMap (fun i => (s.hintAt p i q lead).map (fun m => (i, m.1)))

/-- The windows of that upstream frame whose quiet slices port p searches. -/
def State.winsOf (s : State) (p q lead : Nat) : List (Nat × MapWin) :=
  (s.hintsOf p q lead).flatMap (fun m => m.2.wins.map (fun w => (m.1, w)))

/-- arm_lead in quanta of port p; below 0x80 it acts as 0x80. -/
def State.armQ (s : State) (p : Nat) : Nat := ceilDiv (max 0x80 (s.rd F.UB_TREE_IDLE_arm_lead p) * s.qpf p) 125000

/-- How many quanta before a burst's first data quantum the receiver of port p arms for it: arm_lead before its first preamble quantum
(R83, R86). -/
def State.armLead (s : State) (p i : Nat) (short : Bool) : Nat := s.leadOn p i short + s.armQ p

/-- The burst of the hints whose first data quantum is given, and whose arming falls now, with the port that has it. -/
def State.findBurst (s : State) (p first : Nat) : Option (Nat × List MapStruct) :=
  (s.rxPorts p).findSome? fun i => [true, false].findSome? fun b => match s.hintAt p i first (s.armLead p i b) with
    | none => none
    | some m => ((joinBursts m.1.structs).find? (fun l => match l.head? with
        | some c => c.start == first && c.short == b
        | none => false)).map (fun l => (i, l))

/-- An armed burst added in place of one with the same first quantum. -/
def UbPort.arm (x : UbPort) (b : Burst) : UbPort :=
  { x with armed := x.armed.filter (fun c => c.first != b.first) ++ [b] }

/-- How far an inherited terminal's bursts arrive shifted at this device: skew_in on a standby, skew_rt on an active (R386). -/
def State.arrivalSkew (s : State) (t : Nat) : Int :=
  let c := s.ctx t
  if !c.inherited then 0
  else if s.isStandby then s.skew16 c.port (s.skewIn c.port)
  else if s.isActive then s.skew16 c.port (s.skewRt c.port) else 0

/-- The burst that port p's receiver arms for (R86, R134): expected where its owner's drift offset, and an inherited owner's skew (R386), put it; in a shadow where any part
of it is, its preamble with it. -/
def State.newBurst (s : State) (p first i t : Nat) (l : List MapStruct) (short : Bool) : Burst :=
  { first := first, port := i, owner := some t, win := none, short := short, structs := l
    expect := s.own16 p i first + (s.ctx t).c + s.arrivalSkew t
    shadow := inShadow ((s.winsOf p first (s.armLead p i short)).map (·.2)) (first - s.leadOn p i short) (burstEnd l)
    loaded := if short then some (s.preset t).vals else none }

/-- An owned burst at its arming: armed, or, under dRXL, missing (R86, R112). -/
def State.armOwned (s : State) (p : Nat) (b : Burst) (t : Nat) : State :=
  if s.treeHas p 1 then s.burstMissing { b with hdr := .missing, stamp := s.burstStamp p b b.expect } t
  else
    let s := s.setRx p ((s.rx p).arm b)
    s.setTrx t { s.trx t with uncNow := some ((s.trx t).uncNow.getD false) }

/-- BURST_ARM (R86 to R88). A burst whose owner was freed since sealing is not armed. -/
def execBurstArm (p : Port) (first : Nat) (s : State) : Res :=
  act s fun s =>
    let q := p.val
    if !s.receiving q then s
    else match (s.winsOf q first (s.armLead q q false)).find? (fun w => w.2.s + w.2.off == first) with
      | some w => if s.treeHas q 1 then s else s.setRx q ((s.rx q).arm
          { first := first, port := w.1, owner := none, win := some w.2, short := false, structs := []
            held := (s.hintAt q w.1 first (s.armLead q q false)).any (·.2) })
      | none => match s.findBurst q first with
        | none => s
        | some (i, l) => match l.head?.map (fun c => (c.owner, c.short)) with
          | some (some t, short) => s.armOwned q (s.newBurst q first i t l short) t
          | _ => s

/-! ### Electrical idle (R89, R90) -/

/-- Where the receiver of port p has to be awake in an upstream frame k frames old, in quanta of it from base on: the first preamble
quantum of each burst that it arms, each window's quiet slice. -/
def State.wakeStarts (s : State) (p k base : Nat) : List Nat :=
  (s.rxPorts p).flatMap fun i => match s.hintK i k with
    | none => []
    | some m => ((joinBursts m.structs).filterMap (fun b => match b.head? with
        | some c => if c.owner.isSome then some (base + c.start - s.leadOn p i c.short) else none
        | none => none)) ++ m.wins.map (fun w => base + w.s + w.off)

/-- The next quantum at which the receiver has to be awake, from quantum e of an upstream frame that has just come on, the frame after it
included; none where neither has one. -/
def State.nextWake (s : State) (p e : Nat) : Option Nat :=
  let k := s.upAge p e 0
  lowest ((s.wakeStarts p k 0 ++ (if k = 0 then [] else s.wakeStarts p (k - 1) (s.qpf p))).filter (e ≤ ·))

/-- A burst or a window is to come in the upstream frames that arrive during the frame in progress (R90). -/
def State.awaits (s : State) (p : Nat) : Bool :=
  [0, s.qpf p - 1].any (fun q => !(s.wakeStarts p (s.upAge p q 0) 0).isEmpty)

/-- RECEIVER_WAKE (R89). -/
def execReceiverWake (p : Port) (s : State) : Res :=
  act s fun s => if s.receiving p && s.awaits p then s.wr F.UB_TREE_STATUS_idle 0 p else s

/-- Electrical idle after a burst that ends at quantum e, where the next first preamble quantum is at least idle_min off, or none is to
come; another burst that is armed keeps the receiver as it is (R89, R90). (DEDUCED, safe: log entry 80.) -/
def State.idleAfter (s : State) (p e : Nat) : State :=
  let far := match s.nextWake p e with
    | none => true
    | some x => decide (s.rd F.UB_TREE_IDLE_idle_min p * s.qpf p ≤ (x - e) * 125000)
  if (s.rx p).armed.isEmpty then s.wr F.UB_TREE_STATUS_idle (b2n far) p else s

/-! ### Header and delimiter (R98 to R101) -/

/-- delim_win in 1/16 bit. -/
def State.delimWin (s : State) (p : Nat) : Nat := max 1 (s.rd F.UB_TREE_CFG_delim_win p) * 1024

/-- The positions of the window at which the delimiter matches, in order; the first of them whose header passes is accepted (R99,
R100). -/
def State.matches_ (s : State) (p : Nat) (b : Burst) (l : List DelimTry) : List DelimTry :=
  l.filter (fun m => decide ((m.pos - b.expect).natAbs ≤ s.delimWin p) && decide (m.differ ≤ s.rd F.UB_TREE_CFG_delim_err p))

/-- An owned burst's delimiter window has ended, in a shadow too: its frame qualifies for dLOS (R112).
(DEDUCED, safe: log entry 106.) -/
def State.judged (s : State) (p : Nat) (found : Bool) : State :=
  s.setRx p { s.rx p with qualify := true, found := (s.rx p).found || found }

/-- The header of a burst of terminal t was accepted at pos (R98, R101, R143): owned, or foreign. -/
def State.headerIn (s : State) (p : Nat) (b : Burst) (t onu : Nat) (pos : Int) (ploamu dying : Bool) : State :=
  let offset := pos - b.expect
  let b := { b with stamp := s.burstStamp p b pos }
  let s := s.judged p true
  if (s.ctx t).onu = onu then
    let s := s.putBurst p { b with hdr := .good, ind := ploamu, nearOk := decide (offset.natAbs ≤ 1024) }
    let s := s.setTrx t { s.trx t with
      miss := 0, offset := offset, launch := stampOf (s.launchTime t (s.burstTime p b pos))
      dyingAt := if dying then some s.ts.run else (s.trx t).dyingAt }
    (s.termDefect t 0 false).when (!b.shadow) (·.driftUpdate t offset)
  else
    let b := { b with hdr := .foreign }
    let s := (s.putBurst p b).raise 2 b.port 0x0800 (t + onu * 2 ^ 16)
    let s := s.burstMissing b t
    (s.setTrx t { s.trx t with forAt := s.ts.run }).termDefect t 4 true

/-- A header found in a window with no owner, at pos: in a ranging slice, one that does not carry the ONU-ID of the window's context is
discarded and counted, and the search goes on after it (R88, R137). -/
def State.headerFound (s : State) (q : Nat) (b : Burst) (onu : Nat) (pos : Int) : State :=
  match b.win with
  | some w =>
    if w.kind == 2 && !b.held && s.fits b.port pos.toNat (b, w) && w.term.all (fun t => (s.ctx t).onu != onu) then
      (s.putBurst q { b with searched := pos.toNat + s.snQ b.port * 1024 }).discardAnswer b.port
    else s
  | none => s

/-- FS_HEADER_RECEIVED (R98 to R101, R143). The CDR phase goes to drift ranging, which keeps the offset alone; ind is what
its Ind field tells. -/
def execFsHeaderReceived (p : Port) (first : Nat) (onu : BitVec 10) (tries : List DelimTry) (_phase : BitVec 6) (ind : HeaderInd)
    (s : State) : Res :=
  act s fun s =>
    let q := p.val
    match s.burst q first with
    | none => s
    | some b =>
      let l := s.matches_ q b tries
      match b.owner, l.find? (·.hecOk) with
      | none, _ =>
        match tries.find? (fun m => m.hecOk && decide (m.differ ≤ s.rd F.UB_TREE_CFG_delim_err q)) with
        | some m => if s.treeHas q 1 then s else s.headerFound q b onu.toNat m.pos
        | none => s
      | some t, some m =>
        if b.hdr != .none then s
        else
          let b := { b with firstMatch := l.head?.any DelimTry.hecOk }
          if b.freed then s.putBurst q { b with hdr := .good } else s.headerIn q b t onu.toNat m.pos ind.ploamu ind.dying
      | _, _ => s

/-- DELIMITER_WINDOW_CLOSE. No accepted position: the burst is missing (R94, R100). -/
def execDelimiterWindowClose (p : Port) (first : Nat) (s : State) : Res :=
  act s fun s =>
    let q := p.val
    match s.burst q first with
    | none => s
    | some b =>
      if b.hdr != .none then s
      else match b.owner with
        | none => s.putBurst q { b with hdr := .missing }
        | some t =>
          let b := { b with hdr := .missing, stamp := s.burstStamp q b b.expect }
          let s := s.putBurst q b
          if b.freed then s
          else
            let s := (s.judged q false).burstMissing b t
            if s.feat 2 && b.short && !b.shadow then
              let s := s.ageOut t
              if (s.preset t).st == .trained then s.recallFail t else s
            else s

/-! ### Codewords and framing (R102 to R109) -/

/-- The upstream code of a mode: bits of a codeword and of its data; none where no FEC is used (R102). -/
def usCode (xgs fec : Bool) : Option (Nat × Nat) := if !xgs then some (17280, 14592) else if fec then some (1984, 1856) else none

/-- UB_CTRL.iter_max, 0 acting as 1, above 20 as 20. -/
def State.iterMax (s : State) : Nat := min 20 (max 1 (s.rd F.UB_CTRL_iter_max))

/-- A released codeword: corrected and coded bits, whether its syndrome is zero, whether it is a deadline stop. -/
structure Release where
  corrected : Nat
  coded : Nat
  good : Bool
  late : Bool
deriving DecidableEq, Repr

/-- What the decoder releases of a codeword of port p (R102 to R104). Within iter_max 10 and at the pace floor no deadline strikes. -/
def State.release (s : State) (p : Nat) (cw : Codeword) : Release :=
  let xgs := s.on F.TP_CTRL_ds_mode p
  match usCode xgs (s.on F.UB_TREE_CFG_xgs_fec p) with
  | none => ⟨0, 0, true, false⟩
  | some (n, k) =>
    let coded := n - min k cw.shortened
    if xgs then ⟨cw.corrected, coded, cw.zeroAt.isSome, false⟩
    else
      let m := s.iterMax
      let run := if 10 < m || s.on F.GLB_PACE_below_floor then min m (cw.deadlineAt.getD m) else m
      let good := cw.zeroAt.any (· ≤ run)
      ⟨cw.corrected, coded, good, !good && decide (run < m)⟩

/-- What framing carries through one codeword: the state, the burst. -/
abbrev Framing := State × Burst

/-- The XGEM port context of port p with an on-line Port-ID, assigned to terminal t (R107). -/
def State.findXgem (s : State) (t portId : Nat) : Option Nat :=
  (s.rowsOf 3).find? (fun x => s.xgValid x && s.xgPortId x == portId && s.xgTerm x == t)

/-- The frame's key index may be delivered (R108): 1 and 2 select slots 0 and 1; a clear frame not on enc = 1. -/
def State.keyIndexOk (s : State) (t x k : Nat) : Bool :=
  match k with
  | 0 => s.xgEnc x != 1
  | 1 => (s.keyCtx t).slot0.valid
  | 2 => (s.keyCtx t).slot1.valid
  | _ => false

/-- The payload of an upstream frame at byte pos of its burst, decrypted under the slot its key index selects (R63, R108).
(DESIGN CHOICE, safe: log entry 41.) -/
def State.upPlain (s : State) (b : Burst) (t k pos : Nat) (data : List Byte) : List Byte :=
  let key := if k = 1 then (s.keyCtx t).slot0.key else (s.keyCtx t).slot1.key
  let sfc := (s.port b.port).sfc - s.upAge (s.rxPort b.port) b.first 0
  if k = 0 then data else aesCtr key (Config.counterBlock (s.on F.TP_CTRL_ds_mode b.port) true sfc pos) data

/-- A discarded frame of a known port breaks its chain to the last fragment (R109). -/
def State.breakChain (s : State) (p t x : Nat) (last : Bool) : State :=
  if last then s.setChain x none
  else match s.chain x with
    | some c => s.setChain x (some { c with dead := true })
    | none => s.setChain x (some ⟨p, t, [], s.ts.frame, true⟩)

/-- A complete packet of port context x (R109, R117). -/
def State.packetDone (s : State) (p t x stamp : Nat) (bytes : List Byte) : State :=
  let s := (s.setChain x none).deliver p ⟨t, x, bytes, false, stamp⟩
  let s := (s.count 2 1 p bytes.length (s.tenantOf t)).meter (64 + p) bytes.length
  if s.fillRun.get false x then { s with fillRun := s.fillRun.set false x false }.raise 2 p 0x0700 x else s

/-- The allocation context of a sealed structure still stands (R181). -/
def State.allocStands (s : State) (c : MapStruct) : Bool := (s.alloc c.alloc).valid && !c.freed

/-- A DBRu of a structure's allocation (R106, R178): occ saturates at 18 bits; one that fails its CRC before the first report has been
committed leaves crc_seen 0 (R536); a freed context's is discarded (R181). -/
def State.dbruIn (s : State) (c : MapStruct) (ok : Bool) (occ : Nat) : State :=
  let r := s.alloc c.alloc
  if !s.allocStands c then s
  else if ok then s.setAlloc c.alloc { r with
    occ := sat 0x3FFFF occ, seq := (r.seq + 1) % 64, age := 0, crcSeen := false, reported := true }
  else s.setAlloc c.alloc { r with crcSeen := r.reported }

/-- One XGEM frame's payload falls into its chain (R109, R178); the answer's second part says that it was lost with the chain, the third
that a packet was completed. -/
def State.fragIn (s : State) (b : Burst) (t x : Nat) (g : MapStruct) (last : Bool) (data : List Byte) : State × Bool × Bool :=
  let c := (s.chain x).getD ⟨b.port, t, [], s.ts.frame, false⟩
  if c.dead then (if last then s.setChain x none else s, true, false)
  else
    let s := s.when (s.allocStands g) (fun s =>
      s.setAlloc g.alloc { s.alloc g.alloc with used := (s.alloc g.alloc).used + data.length })
    if last then (s.packetDone b.port t x b.stamp (c.data ++ data), false, true)
    else (s.setChain x (some { c with data := c.data ++ data }), false, false)

/-- One item of structure c in a good codeword (R106 to R109). -/
def frameItem (t : Nat) (c : MapStruct) (f : Framing) (i : UpItem) : Framing :=
  let (s, b) := f
  if b.cut.contains c.start then f
  else match i with
    | .dbru ok occ => (s.dbruIn c ok occ.toNat, b)
    | .trailer ok => (s.when (!ok) (fun s =>
        s.setRx (s.rxPort b.port) { s.rx (s.rxPort b.port) with integrity := (s.rx (s.rxPort b.port)).integrity + 1 }), b)
    | .xgem hec fits portId k last at_ bytes =>
      if !hec || !fits then (s, { b with cut := c.start :: b.cut })
      else match s.findXgem t portId.toNat with
        | none => (s.count 2 6 b.port, b)
        | some x =>
          if !s.keyIndexOk t x k.toNat then
            ((s.count 2 6 b.port).breakChain b.port t x last, { b with lost := (c.start, x) :: b.lost })
          else
            let (s, lost, done) := s.fragIn b t x c last (s.upPlain b t k.toNat at_ bytes)
            (s, { b with lost := if lost then (c.start, x) :: b.lost else b.lost
                         got := if done then (c.start, x) :: b.got else b.got })

/-- What is known once a structure ends or is cut: its circuit fills, and, cut, the broken chains (R105, R109, R115). -/
def structEnd (t : Nat) (c : MapStruct) (f : Framing) : Framing :=
  let (s, b) := f
  let all := b.cut.contains c.start
  let s := s.when all (·.killChains t)
  let due := c.circ.filter (fun x => !b.got.contains (c.start, x) && (all || b.lost.contains (c.start, x)))
  (s.fillStruct b all c, { b with got := due.map (fun x => (c.start, x)) ++ b.got })

/-- The terminal's dUNC (R112): its fourth frame with an uncorrectable codeword in its last 16 with bursts; not in a shadow
(R134). -/
def State.uncHit (s : State) (t : Nat) : State :=
  let x := { s.trx t with uncNow := some true }
  if x.uncHolds then (s.setTrx t { x with uncAt := s.ts.run }).termDefect t 2 true else s.setTrx t x

/-- One codeword's bits in the ratio that dSD watches, whose second begins with its first codeword (R112). -/
def Degrade.add (x : Degrade) (run corrected coded : Nat) : Degrade :=
  { x with corrected := x.corrected + corrected, coded := x.coded + coded, start := if x.coded = 0 then run else x.start }

/-- A codeword's counts: the beads, the terminal's ratio, the burst's (R91, R112). -/
def State.countCode (s : State) (b : Burst) (t : Nat) (r : Release) : Framing :=
  let s := (s.count 2 4 b.port r.corrected).count 2 5 b.port (b2n !r.good)
  let x := s.trx t
  let s := s.setTrx t { x with sd := x.sd.add s.ts.run r.corrected r.coded }
  (s.when (!r.good && !b.shadow) (·.uncHit t),
   { b with corrected := b.corrected + r.corrected, coded := b.coded + r.coded, bad := b.bad || !r.good })

/-- A deadline stop in receiver p (R104, R112). -/
def State.deadlineStop (s : State) (p : Nat) : State :=
  ((s.wr F.UB_DEC_STATUS_deadline_seen 1).setRx p { s.rx p with decoAt := s.ts.run }).treeDefect p 3 true

/-- CODEWORD_RELEASE (R102 to R109), for the structure that begins at quantum start. Nothing of a burst whose owner was freed after
arming is delivered (R87). -/
def execCodewordRelease (p : Port) (first start : Nat) (cw : Codeword) (s : State) : Res :=
  act s fun s =>
    let q := p.val
    match s.burst q first with
    | none => s
    | some b =>
      let r := s.release b.port cw
      let s := s.when r.late (·.deadlineStop q)
      match b.owner, b.structs.find? (·.start == start) with
      | some t, some c =>
        if b.hdr != .good || b.freed then s
        else
          let was := b.cut.contains start
          let (s, b) := s.countCode b t r
          let f : Framing := if r.good then cw.items.foldl (frameItem t c) (s, b)
            else (s, if was then b else { b with cut := start :: b.cut })
          let now := f.2.cut.contains start
          let f := if (now || cw.endOfAlloc) && !was then structEnd t c f else f
          f.1.putBurst q f.2
      | _, _ => s

/-- PLOAMU_RECEIVED. A PLOAMu that the header of an owned burst announced goes to the activation machinery, which checks its MIC
(R106); not of a freed owner (R87); a standby counts and discards it (R377). -/
def execPloamuReceived (p : Port) (first : Nat) (micOk : Bool) (msg : List Byte) (s : State) : Res :=
  act s fun s => match s.burst p first with
    | none => s
    | some b => match b.owner with
      | none => s
      | some t =>
        if !(b.hdr == .good && b.ind && !b.freed) then s
        else if s.isStandby then { s with pr := { s.pr with dropPloamu := s.pr.dropPloamu + 1 } }
        else if micOk then s.emit (.ploamu t msg) else s

/-- The burst is clean (R91). -/
def Burst.clean (b : Burst) : Bool :=
  b.firstMatch && !b.bad && b.nearOk && decide (b.corrected * 1000 ≤ b.coded)

/-- What the close of an owned burst with a good header does to its owner's preset (R92 to R94, R134). -/
def State.judgePreset (s : State) (b : Burst) (t : Nat) (fin : RxValues) : State :=
  let s := s.ageOut t
  let x := s.preset t
  let x := if b.bad then x else { x with vals := fin, last := some s.ts.run }
  let s := s.setPreset t x
  if x.st == .trained then
    if !b.short || b.shadow then s else if b.clean then s.setPreset t { x with fails := 0 } else s.recallFail t
  else
    let n := if b.clean then x.clean + 1 else if b.shadow then x.clean else 0
    if 3 ≤ n then
      let s := s.setPState t { x with st := .trained, clean := 3, fails := 0 }
      (s.termDefect t 1 false).raise 2 (s.ctx t).port 0x0900 t
    else s.setPState t { x with st := .training, clean := n }

/-- An unclean burst in a shadow counts as missing for circuit fill (R115, R134): its circuit ports that have yielded nothing. -/
def State.fillUnclean (s : State) (b : Burst) : State :=
  if b.shadow && !b.clean then b.structs.foldl (fun s c => s.fillStruct b true c) s else s

/-- BURST_CLOSE (R89, R92 to R94, R134). -/
def execBurstClose (p : Port) (first : Nat) (fin : RxValues) (s : State) : Res :=
  act s fun s =>
    let q := p.val
    match s.burst q first with
    | none => s
    | some b =>
      let s := match b.owner with
        | some t => if b.hdr == Header.good && !b.freed then (s.fillUnclean b).when (s.feat 2) (·.judgePreset b t fin) else s
        | none => s
      let s := s.setRx q { s.rx q with armed := (s.rx q).armed.filter (fun c => c.first != first) }
      let stop := match b.win with
        | some w => w.s + w.off + w.width
        | none => burstEnd b.structs
      s.idleAfter q stop

/-! ### Calibration (R90, R440) -/

/-- Where the bursts and windows of an upstream frame k frames old end, in quanta of it from base on. -/
def State.endsOf (s : State) (p k base : Nat) : List Nat :=
  (s.rxPorts p).flatMap fun i => match s.hintK i k with
    | none => []
    | some m => m.structs.map (fun c => base + c.start + c.len) ++ m.wins.map (fun w => base + w.s + w.off + w.width)

/-- Where the last burst or window of port p that ends by quantum q of an upstream frame k frames old ends, in quanta from the start of
the frame before it; that start where none does. -/
def State.lastEnd (s : State) (p k q : Nat) : Nat :=
  (s.endsOf p (k + 1) 0 ++ s.endsOf p k (s.qpf p)).foldl (fun m e => if e ≤ s.qpf p + q then max m e else m) 0

/-- The upstream frame, k frames old, and the calibration window of it in which a step of len quanta from quantum q lies, with the quanta
that it holds (R440). -/
def State.calWindow (s : State) (p k q len : Nat) : Option (Nat × Nat × Nat) :=
  ((s.rxPorts p).flatMap fun i => match s.hintK i k with
    | some m => m.cals
    | none => []).find? (fun w => decide (w.1 ≤ q) && decide (q + len ≤ w.1 + w.2))
    |>.map (fun w => ((s.ts.frame + 2 ^ 32 - k) % 2 ^ 32, w.1, w.2))

/-- The steps that PRX lane l has taken in the window. -/
def Lane.stepsIn (x : Lane) (w : Nat × Nat × Nat) : Nat :=
  match x.calWin with
  | some (f, q, n) => if f = w.1 && q = w.2.1 then n else 0
  | none => 0

/-- A calibration step of len quanta from quantum q runs to its end: in a calibration window, which takes one for each 1.5 µs of it, or in an idle gap of
2 µs that ends before the next arm_lead; no armed burst about (R90, R440). -/
def State.mayCalibrate (s : State) (p q len : Nat) : Bool :=
  let k := s.upAge p q 0
  let slot := ceilDiv (1500 * s.qpf p) 125000
  let stop := (s.nextWake p q).map (· - s.armQ p)
  (s.rx p).armed.isEmpty && decide (len ≤ slot) && stop.all (q + len ≤ ·)
    && ((s.calWindow p k q len).any (fun w => decide ((s.lane (64 + p)).stepsIn w < w.2.2 * 125000 / (1500 * s.qpf p)))
      || (s.on F.UB_TREE_STATUS_idle p && stop.all (fun e => decide (2000 * s.qpf p ≤ (s.qpf p + e - s.lastEnd p k q) * 125000))))

/-- CALIBRATION_STEP, of len quanta from quantum q of the upstream frame. A step that would reach into arm_lead is abandoned; the 64th ends
the recalibration. A lane whose port receives nothing is free for it. -/
def execCalibrationStep (p : Port) (x : QSpan) (s : State) : Res :=
  act s fun s =>
    let l := 64 + p.val
    let y := s.lane l
    if !y.cal || (s.receiving p && !s.mayCalibrate p x.q x.len) then s
    else
      let w := s.calWindow p (s.upAge p x.q 0) x.q x.len
      s.setLane l { y with
        steps := y.steps + 1, cal := decide (y.steps + 1 < 64)
        calWin := match w with
          | some w => some (w.1, w.2.1, y.stepsIn w + 1)
          | none => y.calWin }

/-! ### Unexpected light, timeouts (R87, R91, R109, R134, R151) -/

/-- A quantum at which energy is expected: an armed window or burst with its guard, or a shadow. -/
def State.lightExpected (s : State) (p q : Nat) : Bool :=
  (s.rx p).armed.any (fun b => match b.win with
    | some w => decide (w.s + w.off ≤ q) && decide (q < w.s + w.off + w.width)
    | none => decide (b.first - s.overheadOn p b.port b.short ≤ q) && decide (q < burstEnd b.structs + s.guardQ p true))
  || (s.winsOf p q 0).any (fun w => decide (w.2.s ≤ q) && decide (q < w.2.s + w.2.span)
      && !(decide (w.2.s + w.2.off ≤ q) && decide (q < w.2.s + w.2.off + w.2.width)))

/-- Quantum q lies in an upstream frame whose map a standby never had: none of its bursts is armed, and their light counts for nothing
(R381). -/
def State.lateLight (s : State) (p q : Nat) : Bool :=
  s.isStandby && s.on F.GE_TREE_CFG_gp_en (s.pitchTree p) && (s.hintAt p p q 0).isNone

/-- UNEXPECTED_ENERGY (R91, R151): the first quantum of a frame is recorded while dUXL is set. -/
def execUnexpectedEnergy (p : Port) (q : BitVec 17) (s : State) : Res :=
  act s fun s =>
    let n := p.val
    if !s.receiving n || s.lightExpected n q.toNat || s.lateLight n q.toNat then s
    else
      let first := !(s.rx n).uxlNow
      let s := s.setRx n { s.rx n with uxlNow := true }
      s.when (first && s.treeHas n 2) (·.wr F.GE_DISC_STATUS_uxl_q (sat 0xFFFF q.toNat) (s.treeNo n))

/-- REASSEMBLY_TIMEOUT (R109). -/
def execReassemblyTimeout (x : BitVec 17) (s : State) : Res :=
  act s fun s => match s.chain x.toNat with
    | none => s
    | some c => if max 1 (s.rd F.UB_THRESH_reasm_frames) ≤ s.framesSince c.frame then s.killChain x.toNat else s

end Sys2Proof.Machine
end

