-- ==== Sys2Proof/Machine/Pc.lean ====
section
/-! DEFINITION. The parse stage's commands (R261 to R288, R304 to R314, R325): arrival, dispatch, verdict commit, the
exception path, images, cores. -/

namespace Sys2Proof.Machine

/-! ### Cores (R263, R283 to R285) -/

/-- A core takes passes: neither fenced, nor down with its half, whose request down ends its work, nor in a self-test. -/
def State.coreActive (s : State) (c : Nat) : Bool :=
  !s.fenced (.core c) && !s.domDown (coreDomain c) && s.pw.dom != some (coreDomain c, true) && s.pc.repair != some c && !(s.isStandby && s.pc.testing == c)

/-- Threads of core c in use. -/
def State.threadsUsed (s : State) (c : Nat) : List Nat :=
  s.pc.work.filterMap (fun w => match w.run with
    | some x => if x.core = c then some x.thread else none
    | none => none)

/-- The core the dispatcher takes: the most free threads, the lowest number first. -/
def State.pickCore (s : State) : Option Nat :=
  ((List.range 128).foldl (fun (b : Option (Nat × Nat)) c =>
    let used := (s.threadsUsed c).length
    if !s.coreActive c || 24 ≤ used then b
    else match b with
      | none => some (used, c)
      | some (u, _) => if used < u then some (used, c) else b) none).map (·.2)

/-- A core's passes are withdrawn: each starts again on another core from its start, its packet bound as it was then (R283). -/
def State.withdrawCore (s : State) (c : Nat) : State :=
  { s with pc := { s.pc with work := s.pc.work.map (fun w => match w.run with
    | some x => if x.core = c then { w with run := none, pkt := { w.pkt with bound := x.bound } } else w
    | none => w) } }

/-- A fault of a core; fenced, its passes are withdrawn. -/
def State.coreFault (s : State) (c : Nat) (hard : Bool) (cause : Nat) : State :=
  let (s, f) := s.faultAt (.core c) hard cause
  if f then s.withdrawCore c else s

/-! ### Arrival (R261, R304, R322, R325) -/

/-- The first drop in a ms at admission (R325): the event. -/
def State.arrivalDrop (s : State) (src : Nat) : State :=
  let s := s.count 7 3 src
  if s.bm.dropMs == some s.msNow then s
  else { s with bm := { s.bm with dropMs := some s.msNow } }.raise 7 0 0x6004 src

/-- A packet at its source: dropped at its first byte below arr_floor, or as it runs past 16,383 bytes, else in cells and waiting for its
first pass (R325). The second part says that it was admitted. -/
def State.letIn (s : State) (k : Pkt) : State × Bool :=
  let n := k.bytes.length
  if n = 0 then (s, false)
  else if s.freeCells < s.arrFloor || s.blkDown 7 then (s.arrivalDrop k.src, false)
  else if 16383 < n then (s.levelsIn.count 7 4 k.src, false)
  else
    let (s, cs) := s.levelsIn.takeCells (cellsFor n)
    let k := { k with cells := cs, cgen := s.bm.cgen.get 0 (cs.headD 0) }
    ({ s with pc := { s.pc with pids := k.pid + 1, work := s.pc.work ++ [{ pkt := k, place := k.src }] } }, true)

/-- The tenant of a virtual function's ring. -/
def State.ringTenant (s : State) (r : Nat) : Option Nat :=
  if s.ringOwner r = 0 then none else some (s.rd F.HD_VF_CFG_tenant (s.ringOwner r - 1))

/-- A frame on an uplink or rope port (R363, R496). -/
def State.lineArrival (s : State) (src : Nat) (bytes : List Byte) : State :=
  let up := if src < 96 then s.ulUp (src - 64) else (s.pr.ropes.get {} (src - 96)).st == 2
  if !up then s
  else
    let s := s.meter (if src < 96 then 64 + src else 96 + src) bytes.length
    let st := if src < 96 then stampOf (s.fullTime - (s.rd F.TS_PORT_LAT_lat_in src * 2 ^ 40 / 10 : Nat)) else 0
    if s.isStandby then { s with pr := { s.pr with dropPkts := s.pr.dropPkts + 1 } }
    else (s.letIn { pid := s.pc.pids, src := src, bytes := bytes, arrived := st }).1

/-- PACKET_ARRIVAL. A tree's packet is the oldest its bursts have delivered, an injected one the oldest its rings have moved in; an
uplink or rope port's comes from outside. No traffic is carried outside RUN and BIVOUAC (R12). -/
def execPacketArrival (src : Fin 99) (k : Arrival) (s : State) : Res :=
  act s fun s =>
    let n := src.val
    if s.blkDown 4 || !s.live then s
    else if n < 64 then
      match (s.rx n).deliv with
      | [] => s
      | d :: rest =>
        let s := s.setRx n { s.rx n with deliv := rest }
        (s.letIn {
          pid := s.pc.pids, src := n, bytes := d.bytes, term := d.term, xgem := d.xgem, fill := d.fill, arrived := d.stamp
          bound := some (s.ctx d.term).tenant }).1
    else if n < 98 then s.lineArrival n k.bytes
    else
      match s.hd.inject with
      | [] => s
      | i :: rest =>
        let s := { s with hd := { s.hd with inject := rest } }
        let pid := s.pc.pids
        let (s, ok) := s.letIn {
          pid := pid, src := 98, bytes := i.bytes, ring := i.ring, bound := s.ringTenant i.ring, stampReq := i.stampReq }
        s.injectDone i pid ok

/-! ### Dispatch (R262, R263, R277) -/

/-- Work that waits for a thread. -/
def Work.waits (w : Work) : Bool := w.run.isNone && w.verdict.isNone

/-- The registers at the start of a pass (R262). -/
def State.startRegs (s : State) (w : Work) : List Nat :=
  let k := w.pkt
  let tree := decide (k.src < 64)
  [0, k.src, k.bytes.length, if tree then k.term + k.xgem * 2 ^ 14 else 0, k.entered,
   (if tree then (s.ctx k.term).tenant else 0) + b2n k.fill * 2 ^ 8, 0, 0]
    ++ (List.range 8).map (fun i => w.carry.getD i 0) ++ List.replicate 16 0

/-- A packet enters its first pass: it takes its generations and its entry time (R27, R262). -/
def State.begin_ (s : State) (w : Work) : Work :=
  if w.begun then w
  else { w with
    begun := true, entry := some (s.pc.cur.entries.get 0 w.pkt.src)
    pkt := { w.pkt with entered := s.ns, pgen := (s.gen .parse).cur, rgen := (s.gen .rules).cur } }

/-- The address of an entry in a generation's image; 0 is absent. -/
def State.entryAddr (s : State) (g e : Nat) : Nat := s.parseWord (s.parseGen g).bank e

/-- PASS_DISPATCH. The oldest waiting packet of its place takes a thread, its head window loaded, for which a cell that is being copied is
waited for (R342); one whose entry is absent goes to exc 0x02 without a pass. -/
def execPassDispatch (pid : Nat) (s : State) : Res :=
  act s fun s => match s.work pid with
    | none => s
    | some w =>
      let first := s.pc.work.find? (fun v => v.place == w.place && v.waits)
      if s.blkDown 4 || !w.waits || first.map (·.pkt.pid) != some pid || s.cellsWait w.pkt.cells then s
      else match s.pickCore with
        | none => s
        | some c =>
          let w := s.begin_ w
          let a := s.entryAddr w.pkt.pgen (w.entry.getD 0)
          if a = 0 then s.putWork { w with verdict := some (.exc 2 0 0) }
          else
            let free := (List.range 24).filter (fun t => !(s.threadsUsed c).contains t)
            let t := free.getD (Config.free 3 s.fresh % free.length) 0
            (s.putWork { w with run := some { core := c, thread := t, at_ := s.ts.run, regs := s.startRegs w, pc := a, bound := w.pkt.bound } }).tickFresh

/-! ### The exception path (R312 to R315) -/

/-- The record of an exception (R314). -/
def excRecord (w : Work) (reason code pc snap : Nat) : List Byte :=
  let k := w.pkt
  let p3 := if k.src < 64 then k.term + k.xgem * 2 ^ 14 else 0
  let words := [
    reason * 2 ^ 24 + k.bound.getD 0 * 2 ^ 16 + b2n k.bound.isSome * 2 ^ 15 + k.src * 2 ^ 8 + k.pgen * 2 ^ 4 + k.rgen,
    k.bytes.length * 2 ^ 16 + w.passNo * 2 ^ 12, p3, k.entered, w.cursor * 2 ^ 16 + w.origin, code * 2 ^ 16 + pc, 0, 0]
  words.flatMap (leBytes 4) ++ k.bytes.take (max 1 snap * 64)

def State.excChan (s : State) (c : Nat) : Chan := s.cl.chans.get {} c
def State.setExcChan (s : State) (c : Nat) (x : Chan) : State := { s with cl := { s.cl with chans := s.cl.chans.set {} c x } }

/-- A channel's bucket refilled at its rate (R312). -/
def State.chanRefill (s : State) (c : Nat) : Chan :=
  let x := s.excChan c
  { x with
    level := min (x.level + (s.runNs - x.last) * s.row 6 c 1) (bits (s.row 6 c 2) 11 0 * 10000000)
    last := s.runNs }

/-- A record dropped, counted by channel and cause; the channel's first drop in each ms is reported with the drops of the ms before
(R312, R319). -/
def State.excDrop (s : State) (c cause : Nat) : State :=
  let s := s.count 5 3 (c * 4 + cause)
  let x := s.excChan c
  if x.ms == some s.msNow then s.setExcChan c { x with drops := x.drops + 1 }
  else
    let prev := match x.ms with
      | some m => if m + 1 = s.msNow then x.drops else 0
      | none => 0
    (s.setExcChan c { x with ms := some s.msNow, drops := 1, prev := prev }).raise 5 c 0x5001 (sat (2 ^ 32 - 1) prev)

/-- The exception path has room for a record of snap length snap: always within its 4,000 a millisecond, at the pace floor and with 256
bytes or less; beyond, where its capacity ends is free (R313). (DESIGN CHOICE, unsafe: log entry 112.) -/
def State.pathRoom (s : State) (snap : Nat) : Bool :=
  let n := if s.cl.path.1 = s.msNow then s.cl.path.2 else 0
  (decide (n < 4000) && decide (snap ≤ 4) && !s.on F.GLB_PACE_below_floor) || Config.free 17 s.fresh % 2 == 0

/-- One more record on the exception path. -/
def State.pathTake (s : State) : State :=
  { s with cl := { s.cl with path := (s.msNow, (if s.cl.path.1 = s.msNow then s.cl.path.2 else 0) + 1) } }.tickFresh

/-- A record for Imhus: one from a terminal's OMCC, the XGEM port whose Port-ID is its ONU-ID, is an OMCI message (R312, R420). -/
def State.imhHears (s : State) (w : Work) (rec_ : List Byte) : State :=
  let k := w.pkt
  if k.src < 64 && s.xgPortId k.xgem == (s.ctx k.term).onu then
    { s with imh := { s.imh with heard := s.imh.heard ++ [(k.term, rec_)] } }
  else s

/-- A record on its way to where its channel delivers it (R312, R313). -/
def State.deliverRec (s : State) (c : Nat) (w : Work) (rec_ : List Byte) : State :=
  let ring := bits (s.row 6 c 0) 11 0
  match bits (s.row 6 c 0) 17 16 with
  | 0 =>
    if s.ringOwner ring != 0 && s.ringTenant ring != w.pkt.bound then s.excDrop c 3
    else if !s.ringTakes ring then (s.excDrop c 2).ringDrop ring 1
    else s.ringRecord ring rec_ w.pkt.arrived
  | 1 => (s.emit (.record c rec_)).imhHears w rec_
  | _ => s

/-- A packet handed to the exception path with a reason (R312, R313). -/
def State.exception (s : State) (w : Work) (reason code pc : Nat) : State :=
  let s := s.count 4 3 reason
  if bit (s.row 7 reason 0) 17 then s
  else
    let c := bits (s.row 7 reason 0) 3 0
    let s := s.setExcChan c (s.chanRefill c)
    let x := s.excChan c
    if x.level < 10000000 then s.excDrop c 0
    else
      let s := s.setExcChan c { x with level := x.level - 10000000 }
      let snap := bits (s.row 6 c 3) 7 0
      if s.pathRoom (max 1 snap) then s.pathTake.deliverRec c w (excRecord w reason code pc snap)
      else s.tickFresh.excDrop c 1

/-! ### Verdict commit (R276, R277, R306, R307) -/

/-- The checks of an enq verdict: the reason that turns it into exc. -/
def State.enqReason (s : State) (w : Work) (q x : Nat) : Option Nat :=
  let tenantBad := match w.pkt.bound with
    | none => false
    | some t => s.queueTenant q != t || (s.xgValid x && (s.ctx (s.xgTerm x)).tenant != t)
  let e := (s.chainOf q).2.2.2
  if tenantBad then some 3
  else if e < 64 && !s.xgValid x then some 4
  else if e < 64 && !((s.ctx (s.xgTerm x)).st != .free && (s.ctx (s.xgTerm x)).port == e) then some 5 else none

/-- The first tenant mismatch in each ms is reported (R319). -/
def State.mismatch (s : State) (q : Nat) : State :=
  if s.cl.mismatchMs == some s.msNow then s
  else { s with cl := { s.cl with mismatchMs := some s.msNow } }.raise 5 0 0x5002 q

/-- The packet ends in an exception: its cells return once the record is built. -/
def State.endExc (s : State) (w : Work) (reason code pc : Nat) : State :=
  ((s.dropWork w.pkt.pid).exception w reason code pc).dropPkt w.pkt

/-- A packet for another pass: its place in source 99, its carried registers, its window's new origin (R277). -/
def State.recirculate (s : State) (w : Work) (e : Nat) : State :=
  if s.passLimit ≤ w.passNo then s.endExc w 1 0 0
  else if s.entryAddr w.pkt.pgen e = 0 then s.endExc w 2 0 0
  else
    let s := s.dropWork w.pkt.pid
    { s with pc := { s.pc with work := s.pc.work ++ [{ w with
      place := 99, passNo := w.passNo + 1, entry := some e, origin := w.origin + w.cursor, run := none, verdict := none
      cursor := 0, held := false, refused := false }] } }

/-- The verdict of a packet asks a block that is down: the scheduler or the buffer it is to lie in, the exception path (R35). -/
def State.verdictDown (s : State) (w : Work) : Bool :=
  match w.verdict with
  | some (.enq q x _) => if (s.enqReason w q x).isSome then s.blkDown 5 else s.blkDown 6 || s.blkDown 7
  | some (.exc ..) => s.blkDown 5
  | some (.rcv e) => s.blkDown 5 && (decide (s.passLimit ≤ w.passNo) || s.entryAddr w.pkt.pgen e == 0)
  | _ => false

/-- A verdict's request is withdrawn (R37): it is made again once its target is up; a second time it is a fault of the core whose pass gave
the verdict, and the packet is dropped. (DESIGN CHOICE, unsafe: log entry 119.) -/
def State.verdictWithdrawn (s : State) (w : Work) : State :=
  if !w.refused then s.putWork { w with held := true, refused := true }
  else
    let s := match w.core with
      | some c => s.coreFault c false 3
      | none => s
    (s.dropWork w.pkt.pid).dropPkt w.pkt

/-- A block is up: the verdicts whose requests were withdrawn make them again. -/
def State.verdictsWake (s : State) : State :=
  { s with pc := { s.pc with work := s.pc.work.map (fun w => { w with held := false }) } }

/-- VERDICT_COMMIT: the oldest packet of a place, once it has its verdict. -/
def execVerdictCommit (src : Fin 100) (s : State) : Res :=
  act s fun s => match s.pc.work.find? (fun w => w.place == src.val) with
    | none => s
    | some w => if s.cellsWait w.pkt.cells || (w.held && s.verdictDown w) then s
      else if s.verdictDown w then s.verdictWithdrawn w
      else match w.verdict with
      | none => s
      | some (.drp n) => ((s.dropWork w.pkt.pid).count 4 2 n).dropPkt w.pkt
      | some (.rcv e) => s.recirculate w e
      | some (.exc n c p) => s.endExc w n c p
      | some (.enq q x de) => match s.enqReason w q x with
        | some n => (s.when (n == 3) (·.mismatch q)).endExc w n 0 0
        | none => (s.dropWork w.pkt.pid).enqueue q { w.pkt with xgem := x, de := de }

/-- HOLD_MAX_TIMEOUT: the pass has held its thread longer than hold_max µs, 0 acting as 1 (R278). -/
def execHoldMaxTimeout (pid : Nat) (s : State) : Res :=
  act s fun s => match s.work pid with
    | none => s
    | some w => match w.run with
      | none => s
      | some x => if s.ts.run ≤ x.at_ + max 1 (s.rd F.PC_CTRL_hold_max) * 1000 * 2 ^ 40 then s else s.parseFault w x 3

/-! ### Images (R281, R282) -/

/-- A write of the owner to a PC register (R286). -/
def State.pcWrite (s : State) (r : Requester) (f : State → State) : State :=
  if s.regsOff 4 then s
  else if s.may r 4 then f s
  else match r with
    | .vf _ => s
    | _ => s.wr F.PC_PROG_STATUS_not_owner 1

/-- PC_PROG_DATA_HI_WRITE (R281). -/
def execPcProgDataHiWrite (r : Requester) (v : Word) (s : State) : Res :=
  act s fun s => s.pcWrite r fun s =>
    let a := s.rd F.PC_PROG_ADDR_addr
    let lo := s.rd F.PC_PROG_DATA_LO_word_lo
    if (s.gen .parse).ret.isSome then s.wr F.PC_PROG_STATUS_stage_err 1
    else
    let s := (((s.storeWord (!s.pc.cur.bank) a (v.toNat % 16 * 2 ^ 32 + lo)).wr
      F.PC_PROG_STATUS_staged_words (max (a + 1) (s.rd F.PC_PROG_STATUS_staged_words))).wr F.PC_PROG_ADDR_addr (a + 1)).stage .parse
    s.mirror r [(F.PC_PROG_ADDR_addr.off, a), (F.PC_PROG_DATA_LO_word_lo.off, lo), (F.PC_PROG_DATA_HI_word_hi.off, v.toNat)]
      (some a) 0

/-- The words staged in the second parse bank. -/
def State.stagedParse (s : State) : List Nat :=
  (List.range (s.rd F.PC_PROG_STATUS_staged_words)).map (fun a => s.parseWord (!s.pc.cur.bank) a)

/-- PC_PROG_COMMIT: the staged image and entry fields, or the entry fields alone. -/
def State.parseCommit (s : State) : State :=
  let n := s.rd F.PC_PROG_STATUS_staged_words
  let (s, ok) := s.commit .parse (n == 0 || !s.feat 12 || s.imageSigned 2 4 28 s.stagedParse)
  if !ok then s
  else
    let es := (List.range 99).foldl (fun t i => t.set 0 i (s.rd F.PC_SRC_ENTRY_entry i)) s.pc.cur.entries
    let c := s.pc.cur
    let new : ParseGen := if n = 0 then { c with entries := es } else { bank := !c.bank, len := n, entries := es }
    { s with pc := { s.pc with cur := new, old := c } }.wr F.PC_PROG_STATUS_staged_words 0

def execPcProgCommit (r : Requester) (v : Word) (s : State) : Res :=
  act s fun s => s.pcWrite r fun s =>
    if v.toNat % 2 = 0 then s
    else
      let s := s.parseCommit
      s.mirror r [(F.PC_PROG_COMMIT_commit.off, v.toNat)] (some (s.gen .parse).cur) (s.gen .parse).status

/-! ### Core commands (R284) -/

/-- PC_CORE_STATUS after a command. -/
def State.coreReply (s : State) (res c : Nat) : State :=
  let s := (s.wr F.PC_CORE_STATUS_result res).wr F.PC_CORE_STATUS_core c
  (s.wr F.PC_CORE_STATUS_tally (sat 0xFF (s.tally (.core c)).total)).wr F.PC_CORE_STATUS_fenced (b2n (s.fenced (.core c)))

/-- A PC_CORE_CMD command: 6, and not_owner, for any other requester than the owner, 1 while busy (R284, R286). -/
def State.coreCmd (s : State) (r : Requester) (ok : Bool) (f : State → State) : State :=
  if s.regsOff 4 then s
  else if !ok then (match r with
    | .vf _ => s
    | _ => (s.wr F.PC_CORE_STATUS_result 6).wr F.PC_PROG_STATUS_not_owner 1)
  else if s.on F.PC_CORE_STATUS_busy then s.wr F.PC_CORE_STATUS_result 1
  else f s

/-- CORE_QUERY. -/
def execCoreQuery (r : Requester) (c : BitVec 7) (s : State) : Res :=
  act s fun s => s.coreCmd r (s.owns r) (·.coreReply 0 c.toNat)

/-- CORE_REPAIR: a fenced core's self-test starts, and its tally clears. -/
def execCoreRepair (r : Requester) (c : BitVec 7) (s : State) : Res :=
  act s fun s => s.coreCmd r (s.may r 4) fun s =>
    let n := c.toNat
    if !s.fenced (.core n) then s.coreReply 2 n
    else
      let s := { s with pc := { s.pc with repair := some n }, tal := s.tal.set {} (Elem.core n).key { fenced := true } }
      (s.coreReply 0 n).wr F.PC_CORE_STATUS_busy 1

/-- CORE_REPAIR_DONE: tested well, the core loads its images and returns to dispatch (R284). -/
def execCoreRepairDone (ok : Bool) (s : State) : Res :=
  act s fun s => match s.pc.repair with
    | none => s
    | some c =>
      let s := { s with pc := { s.pc with repair := none } }.wr F.PC_CORE_STATUS_busy 0
      if ok then (((s.loadCore c).fenceClear (.core c)).raiseNext 4 c 0x4010 c).coreReply 0 c else s.coreReply 4 c

/-- PARSE_SELF_TEST_PASS: on a standby, one core at a time (R377). -/
def execParseSelfTestPass (core : BitVec 7) (ok : Bool) (s : State) : Res :=
  act s fun s =>
    let c := core.toNat
    if !s.isStandby || s.pc.testing != c || s.blkDown 4 then s
    else
      let s := { s with pc := { s.pc with testing := (c + 1) % 128 } }
      if ok || s.domDown (coreDomain c) then s
      else { s with pr := { s.pr with testFailAt := some s.ts.run } }.coreFault c false 1

end Sys2Proof.Machine
end

