-- ==== Sys2Proof/Machine/Qs.lean ====
section
/-! DEFINITION. The commands of the QS block (R233, R234, R244 to R246, R250 to R259, R331): table rows, queue status,
flush, bucket updates, gate lists, and the commits of shapers and gates. -/

namespace Sys2Proof.Machine

/-! ### QS_CMD (R258, R259) -/

/-- Rows of a table, and the bits each of its words holds. -/
def qsTable (t : Nat) : Nat × List Nat :=
  match t with
  | 0 => (65536, [0x3C000, 0x7FFF, 0xFFF, 0xFFF, 0x1FFFF, 0xFFF, 0x3FFFF, 0x3FFFF])
  | 1 => (32768, [0x27FFF, 0xFFF, 0x20FFF])
  | 2 => (32768, [0x20FFF, 0xFFF, 0x20FFF, 0x23FFF])
  | 3 => (4096, [0x2007F, 0xFFF, 0x20FFF, 0xFF])
  | 4 => (98, [0x3FFFF, 0x7F])
  | 5 => (4096, [0x3FFFF, 0x3FFF, 0x3FFFF, 0x3F])
  | 6 => (32768, [0x20FFF, 0xFFF])
  | 7 => (256, [0x3FFFF, 0xF, 0x3FFFF, 0x3FFF, 0x1FFFF])
  | 8 => (65536, [0x3FFFF, 0xFFF])
  | _ => (0, [])

/-- The staged object a table belongs to. -/
def qsStaged (t : Nat) : Option GenObj :=
  match t with
  | 5 => some .shapers
  | 7 => some .gates
  | 8 => some .gates
  | _ => none

/-- The words that a write command of a table carries. -/
def State.qsWords (s : State) (t : Nat) : List Nat :=
  (qsTable t).2.mapIdx (fun i m => s.rd F.QS_DATA_word i &&& m)

/-- A row's words as they stand. -/
def State.qsRow (s : State) (t row : Nat) : List Nat := (qsTable t).2.mapIdx (fun i _ => s.qw t row i)

def wordAt (ws : List Nat) (i : Nat) : Nat := ws.getD i 0

/-- A gate header's cycle, or an entry's interval. -/
def twoWords (lo hi : Nat) : Nat := lo + hi * 2 ^ 18

/-- The value is refused (result 4). -/
def qsInvalid (t row : Nat) (ws : List Nat) : Bool :=
  match t with
  | 0 => wordAt ws 2 == 0 || (bits (wordAt ws 0) 16 14 == 0 && wordAt ws 6 == 0)
  | 1 => wordAt ws 1 == 0
  | 2 => wordAt ws 1 == 0
  | 3 => wordAt ws 1 == 0
  | 5 => row == 0 || twoWords (wordAt ws 2) (wordAt ws 3) == 0
  | 7 =>
    let c := twoWords (wordAt ws 0) (wordAt ws 1)
    (c != 0 && (decide (c < 1000) || decide (4000000 < c))) || decide (255 < bits (wordAt ws 4) 16 8)
  | 8 => decide (twoWords (wordAt ws 0) (bits (wordAt ws 1) 11 8) < 64)
  | _ => false

/-- The terminal nodes, written, below tenant node n. -/
def State.terminalsBelow (s : State) (n : Nat) : List Nat :=
  (((s.qs.tab.filter (fun e => e.1 / 8 / 131072 == 2)).map (fun e => e.1 / 8 % 131072)).dedup).filter
    (fun i => s.parentRow 2 i == n)

/-- The write would link a terminal context of another tenant (R233, result 5). (DEDUCED, unsafe: log entry 35.) -/
def State.qsMismatch (s : State) (t row : Nat) (ws : List Nat) : Bool :=
  match t with
  | 2 =>
    let changed := bits (wordAt ws 0) 11 0 != bits (s.qw 2 row 0) 11 0 || wordAt ws 3 != s.qw 2 row 3
    changed && bit (wordAt ws 3) 17
      && (s.ctx (bits (wordAt ws 3) 13 0)).tenant != bits (s.qw 3 (bits (wordAt ws 0) 11 0) 3) 7 0
  | 3 => wordAt ws 3 != s.qw 3 row 3 && (s.terminalsBelow row).any (fun i =>
      bit (s.qw 2 i 3) 17 && (s.ctx (bits (s.qw 2 i 3) 13 0)).tenant != wordAt ws 3)
  | _ => false

/-- A queue below a node, or the queue itself, holds packets. -/
def State.holdsPackets (s : State) (level row : Nat) : Bool :=
  s.qs.queues.any (fun x => x.2.backlogged && (s.pathOf x.1).contains (level, row))

/-- The write moves a node or queue that holds packets (R234, result 3). -/
def State.qsMoves (s : State) (t row : Nat) (ws : List Nat) : Bool :=
  let w := if t = 0 then 1 else 0
  decide (t ≤ 3) && parentOf t (wordAt ws w) != parentOf t (s.qw t row w) && s.holdsPackets (4 - t) row

/-- The index lies beyond the table; a queue's status and flush name a queue (result 2). -/
def qsBeyond (op t row : Nat) : Bool := decide ((qsTable t).1 ≤ row) || (decide (2 ≤ op) && decide (65536 ≤ row))

def State.qsResult (s : State) (res row : Nat) : State := (s.wr F.QS_CMD_STATUS_result res).wr F.QS_CMD_STATUS_index row

/-- The register writes that gave a QS_CMD command (R379). -/
def State.qsWrites (s : State) (op t row : Nat) : List (Nat × Nat) :=
  (List.range 8).map (fun i => (F.QS_DATA_word.at_ i, s.rd F.QS_DATA_word i))
    ++ [(F.QS_CMD_op.off, op * 2 ^ 28 + t * 2 ^ 24 + row)]

/-- A QS_CMD command: 6, 1, 7, 2 in that order (R259); a standby takes queries alone (R377). f answers the state and the result.
(DEDUCED, unsafe: log entry 29.) -/
def State.qsCmd (s : State) (r : Requester) (op t row : Nat) (f : State → State × Nat) : State :=
  if s.regsOff 6 then s
  else if !(if op = 0 || op = 2 then s.owns r else s.may r 6) then (match r with
    | .vf _ => s
    | _ => s.wr F.QS_CMD_STATUS_result 6)
  else if s.on F.QS_CMD_STATUS_busy then s.wr F.QS_CMD_STATUS_result 1
  else if 9 ≤ t then s.qsResult 7 row
  else if qsBeyond op t row then s.qsResult 2 row
  else
    let ws := s.qsWrites op t row
    let (s', n) := f s
    let s' := s'.qsResult n row
    if n = 0 && (op = 1 || op = 3) then s'.mirror r ws none 0 else s'

/-- QS_ROW_READ. Staged tables read their staged values; profile row 0 reads 0. -/
def execQsRowRead (r : Requester) (table : BitVec 4) (idx : BitVec 17) (s : State) : Res :=
  act s fun s => s.qsCmd r 0 table.toNat idx.toNat fun s =>
    (State.each 8 (fun s i => s.wr F.QS_DATA_word (s.qw table.toNat idx.toNat i) i) s, 0)

/-- A row stored. -/
def State.qsStore (s : State) (t row : Nat) (ws : List Nat) : State :=
  { s with qs := { s.qs with tab := ws.zipIdx.foldl (fun m x => m.set 0 (rowKey t row x.2) x.1) s.qs.tab } }

/-- QS_ROW_WRITE: 8, 4, 5, 3 in that order. -/
def execQsRowWrite (r : Requester) (table : BitVec 4) (idx : BitVec 17) (s : State) : Res :=
  act s fun s => s.qsCmd r 1 table.toNat idx.toNat fun s =>
    let t := table.toNat
    let row := idx.toNat
    let ws := s.qsWords t
    match qsStaged t with
    | some o =>
      if (s.gen o).ret.isSome then (s, 8)
      else if qsInvalid t row ws then (s, 4)
      else ((s.qsStore t row ws).stage o, 0)
    | none =>
      if qsInvalid t row ws then (s, 4)
      else if s.qsMismatch t row ws then (s, 5)
      else if s.qsMoves t row ws then (s, 3)
      else ((s.qsStore t row ws).settleAll, 0)

/-- The gate of queue q stands open; a queue with no gate is never closed. -/
def State.gateOpen (s : State) (q : Nat) : Bool :=
  match s.gateOf q with
  | none => true
  | some (l, b) => ((s.gate l).regime s.absNs).isOpen b s.absNs

/-- QS_QUEUE_STATUS. -/
def execQsQueueStatus (r : Requester) (table : BitVec 4) (idx : BitVec 17) (s : State) : Res :=
  act s fun s => s.qsCmd r 2 table.toNat idx.toNat fun s =>
    let q := idx.toNat
    let x := s.queueAt q
    let d := x.depth
    let s1 := s.wr F.QS_DATA_word (d % 2 ^ 18) 0
    let s2 := s1.wr F.QS_DATA_word (d / 2 ^ 18 % 8 + b2n (s.queueElig (s.chainOf q).2.2.2 q) * 8 + b2n (s.gateOpen q) * 16
      + b2n (!s.inCredit 4 q) * 32) 1
    (s2.wr F.QS_DATA_word (sat 0x3FFFF (x.chip.length + x.fetch.length + x.deep.length)) 2, 0)

/-- Every packet of queue q dropped (R331): those in deep memory with their pages, those being fetched on their arrival. -/
def State.flush (s : State) (q : Nat) : State :=
  let x := s.queueAt q
  let s := (x.chip ++ x.fetch ++ x.deep).foldl (fun s k => s.qsDrop q { k with cells := if x.chip.contains k then k.cells else [] } 5) s
  let s := s.setQueue q { x with
    chip := [], dead := x.dead ++ List.zipWith (fun k ls => DeadFetch.mk k.cells ls) x.fetch (fetchRuns x.pages x.fetch), fetch := [], deep := []
    latched := false }
  s.pagesOver q

/-- QS_FLUSH. -/
def execQsFlush (r : Requester) (table : BitVec 4) (idx : BitVec 17) (s : State) : Res :=
  act s fun s => s.qsCmd r 3 table.toNat idx.toNat fun s =>
    let q := idx.toNat
    if bit (s.qw 0 q 0) 17 then (s, 4) else ((s.flush q).settle (s.chainOf q).2.2.2, 0)

/-! ### Buckets -/

/-- BUCKET_UPDATE (R244 to R246). -/
def execBucketUpdate (n : QNode) (s : State) : Res :=
  act s fun s =>
    if s.blkDown 6 then s
    else
      let (level, row) := match n with
        | .queue i => (4, i.toNat)
        | .service i => (3, i.toNat)
        | .terminal i => (2, i.toNat)
        | .tenant i => (1, i.toNat)
      (s.bucketUpdate level row).settle (s.egressAbove level row)

/-! ### Commits of shapers and gates -/

/-- A commit register's write by the owner (R259): result 6 for any other requester. -/
def State.qsCommit (s : State) (r : Requester) (v : Nat) (f : State → State) : State :=
  if s.regsOff 6 then s
  else if !s.may r 6 then (match r with
    | .vf _ => s
    | _ => s.wr F.QS_CMD_STATUS_result 6)
  else if v % 2 = 0 then s else f s

/-- The staged profiles, by row. -/
def State.stagedProfiles (s : State) : Tab Nat :=
  (((s.qs.tab.filter (fun e => e.1 / 8 / 131072 == 5)).map (fun e => e.1 / 8 % 131072)).dedup).foldl (fun t p =>
    t.set 0 p (twoWords (s.qw 5 p 0) (s.qw 5 p 1) * 2 ^ 24 + twoWords (s.qw 5 p 2) (s.qw 5 p 3))) []

/-- The policers that stand: those that have policed, and the valid rows, whose buckets are full until they do. -/
def State.policersHeld (s : State) : List Nat :=
  (s.qs.tab.filter (fun e => e.1 / 8 / 131072 == 6)).foldl
    (fun l e => let n := e.1 / 8 % 131072; if bit (s.qw 6 n 0) 17 then insertNat n l else l) (s.qs.policers.map (·.1))

/-- A policer's buckets refilled under the old profiles and limited to the new sizes: none is raised (R249). -/
def State.policersMeet (s : State) (profiles : Tab Nat) : State :=
  let now := s.runNs
  let pol := s.policersHeld.foldl (fun t n =>
    let (c, p) := s.policerProfiles n
    let x := (s.qs.policers.get none n).getD ⟨c.2 * 2 ^ 24, p.2 * 2 ^ 24, now⟩
    let lim := fun w => profiles.get 0 (bits (s.qw 6 n w) 11 0) % 2 ^ 24 * 2 ^ 24
    t.set none n (some ⟨min (refill x.tc x.last now c) (lim 0), min (refill x.tp x.last now p) (lim 1), now⟩)) s.qs.policers
  { s with qs := { s.qs with policers := pol, profiles := profiles } }

/-- QS_SHAPE_COMMIT (R245, R249). -/
def execQsShapeCommit (r : Requester) (v : Word) (s : State) : Res :=
  act s fun s => s.qsCommit r v.toNat fun s =>
    let (s, ok) := s.commit .shapers true
    let s := if ok then s.policersMeet s.stagedProfiles else s
    s.mirror r [(F.QS_SHAPE_COMMIT_commit.off, v.toNat)] (some (s.gen .shapers).cur) (s.gen .shapers).status

/-- The staged contents of gate list l. -/
def State.stagedList (s : State) (l : Nat) : GList := {
  cycle := twoWords (s.qw 7 l 0) (s.qw 7 l 1)
  base := twoWords (s.qw 7 l 2) (s.qw 7 l 3)
  gap := bits (s.qw 7 l 4) 7 0
  entries := if twoWords (s.qw 7 l 0) (s.qw 7 l 1) = 0 then []
    else (List.range (bits (s.qw 7 l 4) 16 8 + 1)).map (fun i =>
      (twoWords (s.qw 8 (l * 256 + i) 0) (bits (s.qw 8 (l * 256 + i) 1) 11 8), bits (s.qw 8 (l * 256 + i) 1) 7 0)) }

/-- The first boundary base + n × cycle, n not negative, at or after instant x. -/
def boundaryFrom (base : Int) (cycle : Nat) (x : Int) : Int :=
  if x ≤ base then base else base + ((x - base + (cycle - 1 : Nat)) / (cycle : Int)) * cycle

/-- The base resolved to the instant within 2^31 ns of a that carries it (R253). -/
def resolveBase (a : Int) (base : Nat) : Int := a + signed 32 (base + (2 ^ 32 - wrapTo 32 a))

/-- List l takes its staged contents at instant a (R253, R255). -/
def Gate.take (g : Gate) (new : GList) (a : Int) : Gate :=
  let t := a + 2000
  let base := resolveBase a new.base
  match g.start with
  | some st =>
    if g.cur.cycle = 0 then { cur := new, start := if new.cycle = 0 then none else some (boundaryFrom base new.cycle t) }
    else
      let e := st + ((t - st) / (g.cur.cycle : Int) + 1) * g.cur.cycle
      { cur := new, start := if new.cycle = 0 then none else some (boundaryFrom base new.cycle e), old := some (g.cur, st, e) }
  | none => { cur := new, start := if new.cycle = 0 then none else some (boundaryFrom base new.cycle t) }

/-- QS_GATE_COMMIT (R255). -/
def execQsGateCommit (r : Requester) (v : Word) (s : State) : Res :=
  act s fun s => s.qsCommit r v.toNat fun s =>
    let (s, ok) := s.commit .gates true
    let s := if ok then (State.each 256 (fun s l => s.setGate l ((s.gate l).take (s.stagedList l) s.absNs)) s).settleAll else s
    s.mirror r [(F.QS_GATE_COMMIT_commit.off, v.toNat)] (some (s.gen .gates).cur) (s.gen .gates).status

/-! ### Gate lists -/

/-- The old list's cycle in progress has ended by instant t. -/
def Gate.ended (g : Gate) (t : Int) : Bool :=
  match g.old with
  | none => true
  | some (l, _, e) => l.cycle == 0 || decide (e ≤ t)

/-- The new list's start has come by instant t. -/
def Gate.startDue (g : Gate) (t : Int) : Bool :=
  match g.start with
  | none => false
  | some st => g.cur.cycle != 0 && !g.started && decide (st ≤ t) && g.ended t

/-- The list starts (R254). -/
def State.gateStart (s : State) (l : Nat) : State :=
  let g := s.gate l
  match g.start with
  | none => s
  | some st =>
    let s := s.setGate l { g with started := true, old := none }
    (s.wr F.QS_GATE_ACTUAL_start_ns (wrapTo 32 st) l).raise 6 l 0x3001 (wrapTo 32 st)

/-- GATE_LIST_START. -/
def execGateListStart (l : BitVec 8) (s : State) : Res :=
  act s fun s => if (s.gate l.toNat).startDue s.absNs then (s.gateStart l.toNat).settleAll else s

/-- The old list is over: an idle list follows its gap mask; another keeps the end until its start. -/
def Gate.close (g : Gate) : Gate :=
  match g.old with
  | none => g
  | some (_, st, e) => { g with old := if g.cur.cycle = 0 then none else some ({}, st, e) }

/-- OLD_CYCLE_END (R255). -/
def execOldCycleEnd (l : BitVec 8) (s : State) : Res :=
  act s fun s => if (s.gate l.toNat).ended s.absNs then (s.setGate l.toNat (s.gate l.toNat).close).settleAll else s

/-- GATE_ENTRY_CHANGE (R250). Gate state is computed from the time base (R256); the queues bound to the list become eligible or
not. -/
def execGateEntryChange (_l : BitVec 8) (s : State) : Res := act s (·.settleAll)

/-- A phase step of d (2^-24 ns) has moved the time base on from instant t0 (R256): ends and starts it passed stay reached, and
each list it moved by more than 64 ns is reported. -/
def State.gatesStepped (s : State) (t0 : Int) (d : Int) : State :=
  let t1 := s.absNs
  s.qs.gates.foldl (fun s x =>
    let l := x.1
    let s := s.when (x.2.startDue t0) (·.gateStart l)
    let g := s.gate l
    let s := s.when (g.old.isSome && (g.ended t0 || g.ended t1)) (·.setGate l g.close)
    let works := g.cur.cycle != 0 || (match g.old with
      | some (o, _, _) => o.cycle != 0
      | none => false)
    s.when (works && decide (64 * 2 ^ 24 < d.natAbs)) (·.raise 6 l 0x3002 (satSigned 32 (stepNs d)))) s

end Sys2Proof.Machine
end

