-- ==== Sys2Proof/Machine/Bm.lean ====
section
/-! DEFINITION. The packet buffer's and deep memory's commands (R323, R327 to R347): fetches, spill writes, cells read out,
scrubbing, row repair, relocation, memory tests, thresholds. -/

namespace Sys2Proof.Machine

/-! ### Precedence in deep memory (R330) -/

/-- The lines of the exact-match store that an outstanding lookup waits for (R296). -/
def State.lookLines (s : State) (k : Work) (l : Look) : List Nat :=
  if l.kind = 0 && s.readsStore l.tbl l.key k.pkt.bound k.pkt.rgen then s.candidates l.tbl l.key else []

/-- An exact-store read waits on subchannel n. -/
def State.storeWaits (s : State) (n : Nat) : Bool :=
  s.pc.work.any (fun k => match k.run with
    | some x => x.looks.any (fun l => (s.lookLines k l).any (fun i => (s.lineHome i).1 == n))
    | none => false)

/-- The lines of queue q's oldest fetch in flight. -/
def State.fetchLines (s : State) (q : Nat) : List Nat :=
  let x := s.queueAt q
  match x.dead, x.fetch with
  | d :: _, _ => d.lines
  | [], k :: _ => nextLines x.pages k.cells.length
  | [], [] => []

/-- A fetch waits on subchannel n. -/
def State.fetchWaits (s : State) (n : Nat) : Bool := s.qs.queues.any (fun e => (s.fetchLines e.1).any (fun l => l / 2 ^ 28 == n))

/-- The subchannels a spill write goes to. -/
def SpillWrite.subs (w : SpillWrite) : List Nat := (w.pages.map (· / 2 ^ 24)).dedup

/-- A spill write waits on subchannel n. -/
def State.spillWaits (s : State) (n : Nat) : Bool := s.bm.spills.any (fun w => w.subs.contains n)

/-- The requests to deep memory, in their order of precedence (R330): refresh takes time alone, and a record of the cairn or firmware area
is written in one step, so that none waits for which the last rank could. -/
inductive DeepReq where
  | exact | fetch | spill | record | background
deriving DecidableEq, Repr

/-- No request of higher precedence than r waits on subchannel n (R330). (DEDUCED, unsafe: log entry 98.) -/
def State.deepTurn (s : State) (r : DeepReq) (n : Nat) : Bool :=
  match r with
  | .exact => true
  | .fetch => !s.storeWaits n
  | .spill => !s.storeWaits n && !s.fetchWaits n
  | .record | .background => !s.storeWaits n && !s.fetchWaits n && !s.spillWaits n

/-! ### Fetches and spill writes (R323, R327, R329, R331) -/

/-- The head of queue q's spilled packets can be fetched: fewer than fetch_depth on chip, free cells above arr_floor, its write
done (R329). -/
def State.fetchHead (s : State) (q : Nat) : Option Pkt :=
  let x := s.queueAt q
  match x.deep with
  | [] => none
  | k :: _ =>
    if x.latched && decide (x.chip.length + x.fetch.length < s.fetchDepth) && decide (s.arrFloor < s.freeCells)
        && s.feat 11 && !s.deepDown && !s.bm.spills.any (fun w => w.q == q && w.pid == k.pid)
    then some k else none

/-- FETCH_ISSUE. -/
def execFetchIssue (q : BitVec 16) (s : State) : Res :=
  act s fun s => match s.fetchHead q.toNat with
    | none => s
    | some k =>
      let (s, cs) := s.takeCells (cellsFor k.bytes.length)
      let x := s.queueAt q.toNat
      s.setQueue q.toNat { x with deep := x.deep.drop 1, fetch := x.fetch ++ [{ k with cells := cs }] }

/-- The pages and the latch of queue q after n of its lines are done with (R327, R331). -/
def State.fetched (s : State) (q n : Nat) : State :=
  let x := s.queueAt q
  let s := s.setQueue q { x with
    pages := markLines x.pages n, latched := x.latched && !(x.deep.isEmpty && x.fetch.isEmpty) }
  s.pagesOver q

/-- A fetched packet on chip at the end of its queue's packets, each cell with the poison it went with (R338), or dropped: a line was uncorrectable, or the reuse count its first
line's tag holds is not the descriptor's (R324, R329, R340). -/
def State.arrive (s : State) (q : Nat) (k : Pkt) (bad : Bool) : State :=
  if bad then s.dropPkt k
  else if k.tagGens.headD k.cgen != k.cgen then (s.dropPkt k).chainFault k
  else
    let x := s.queueAt q
    let bad := (k.lost.map (k.cells[·]?)).reduceOption
    let k := { k with cgen := s.bm.cgen.get 0 (k.cells.headD 0), tagGens := [], lost := [] }
    let s := { s with bm := { s.bm with poison := bad.foldl (fun l c => insertNat c l) s.bm.poison } }
    (s.setQueue q { x with chip := x.chip ++ [k] }).count 7 2 0

/-- FETCH_COMPLETE: the oldest fetch of the queue is on chip, or, of a packet dropped since, discarded. errs lists, by line, the symbols
in error. -/
def execFetchComplete (q : BitVec 16) (errs : List (List Nat)) (s : State) : Res :=
  act s fun s =>
    let n := q.toNat
    let x := s.queueAt n
    let ls := s.fetchLines n
    if s.deepDown || !ls.all (fun l => s.deepTurn .fetch (l / 2 ^ 28)) then s
    else
      let (t, bad) := State.readAll (fun s l => s.deepRead (l / 2 ^ 28) (l % 2 ^ 28)) s ls errs
      match x.dead, x.fetch with
      | d :: rest, _ => (t.setQueue n { x with dead := rest }).giveCells d.cells
      | [], k :: rest => (((t.setQueue n { x with fetch := rest }).fetched n k.cells.length).arrive n k bad).settleAll
      | [], [] => s

/-- What is written of a spilled packet: its cells, poison included (R321, R338). -/
def State.writeDeep (s : State) (q pid : Nat) (cells : List Nat) : State :=
  s.when (cells.any s.bm.poison.contains) fun s =>
    let x := s.queueAt q
    s.setQueue q { x with deep := x.deep.map (fun k => if k.pid == pid then
      { k with lost := (cells.zipIdx.filter (fun c => s.bm.poison.contains c.1)).map (·.2) } else k) }

/-- SPILL_WRITE_COMPLETE: the oldest write outstanding. -/
def execSpillWriteComplete (s : State) : Res :=
  act s fun s => match s.bm.spills with
    | [] => s
    | w :: t =>
      if s.deepDown || s.cellsWait w.cells || !w.subs.all (s.deepTurn .spill) then s
      else (({ (s.writeDeep w.q w.pid w.cells) with bm := { s.bm with spills := t } }.giveCells w.cells).pagesOver w.q).blockCheck

/-- CELL_LAST_BYTE_READ (R323). -/
def execCellLastByteRead (c : BitVec 21) (s : State) : Res :=
  act s fun s =>
    if s.bm.draining.contains c.toNat && !s.cellsWait [c.toNat] then s.giveCells [c.toNat] else s

/-! ### Scrubbing and row repair (R339 to R343) -/

/-- How many a sweep has read. -/
def Sweep.done (w : Sweep) : Nat := w.seen.length

/-- Row or line k read in a sweep of n, in which each counts once; the next sweep begins when this one's interval is over, at the soonest
(R341). -/
def Sweep.read (w : Sweep) (k n interval now : Nat) : Sweep :=
  let l := insertNat k w.seen
  if l.length < n then { w with seen := l } else { start := max now (w.start + interval) }

/-- The intervals of the sweeps in 2^-40 ns of the run count, 0 acting as 1 (R341). -/
def State.chipInterval (s : State) : Nat := max 1 (s.rd F.BM_SCRUB_CFG_chip_s) * 1000000000 * 2 ^ 40
def State.deepInterval (s : State) : Nat := max 1 (s.rd F.BM_SCRUB_CFG_scrub_h) * 3600000000000 * 2 ^ 40

/-- Lines of deep memory. -/
def State.deepLines (s : State) : Nat := s.deepGiB * 2 ^ 24

/-- An on-chip row read by the scrubber; one being copied waits (R342). The answer's second part says that it was uncorrectable. -/
def State.scrubRow (s : State) (b m r : Nat) (errs : List Nat) : State × Bool :=
  if s.rowWaits b m r then (s, false)
  else
    let (s, bad) := s.rowRead b m r errs
    ({ s with bm := { s.bm with chip := s.bm.chip.read (rowNo b m r) Config.chipRows s.chipInterval s.ts.run } }, bad)

/-- SCRUB_READ. A row of an engine's or core's own state that is uncorrectable is a hard fault of the engine or core too. -/
def execScrubRead (t : ScrubTarget) (errs : List Nat) (s : State) : Res :=
  act s fun s =>
    if s.bm.test.isSome || s.blkDown 7 then s
    else match t with
      | .row b m r => (s.scrubRow b.val m.toNat r.toNat errs).1
      | .engineRow e m r =>
        let (s, bad) := s.scrubRow 3 m.toNat r.toNat errs
        if bad then s.engineFault e.val true 15 else s
      | .coreRow c m r =>
        let (s, bad) := s.scrubRow 4 m.toNat r.toNat errs
        if bad then s.coreFault c.toNat true 15 else s
      | .line n l =>
        if !s.feat 11 || s.domDown 11 || s.deepLines ≤ l.toNat * 16 || !s.deepTurn .background n.val then s
        else
          let (s, bad) := s.deepRead n.val l.toNat errs
          let s := { s with bm := { s.bm with deep := s.bm.deep.read (lineNo n.val l.toNat) s.deepLines s.deepInterval s.ts.run } }
          if bad then s.raise 7 n.val 0x6031 l.toNat else s

/-- The sweep has not finished by the end of its interval, and has not been reported. -/
def Sweep.overdue (w : Sweep) (interval now : Nat) : Bool := !w.late && decide (w.start + interval ≤ now)

/-- SCRUB_SWEEP_LATE. -/
def execScrubSweepLate (deep : Bool) (s : State) : Res :=
  act s fun s =>
    if s.bm.test.isSome || s.blkDown 7 || (deep && (!s.feat 11 || s.domDown 11)) then s
    else if deep then
      if s.bm.deep.overdue s.deepInterval s.ts.run then
        ({ s with bm := { s.bm with deep := { s.bm.deep with late := true } } }.wr F.BM_SCRUB_STATUS_deep_late 1).raise 7 0 0x6030 1
      else s
    else if s.bm.chip.overdue s.chipInterval s.ts.run then
      ({ s with bm := { s.bm with chip := { s.bm.chip with late := true } } }.wr F.BM_SCRUB_STATUS_chip_late 1).raise 7 0 0x6030 0
    else s

/-- ROW_REPAIR_COMPLETE (R342): redirected, reported after the fence (R39, R49), which is cleared; content that could not be corrected is poison in a cell,
and Error in any other row. (DEDUCED, unsafe: log entry 54.) -/
def execRowRepairComplete (x : MacroId) (row : BitVec 10) (correctable : Bool) (s : State) : Res :=
  act s fun s =>
    let b := x.block.val
    let m := x.no.toNat
    let r := row.toNat
    let k := rowNo b m r
    if !s.bm.copying.contains k then s
    else
      let s := { s with bm := { s.bm with
        copying := s.bm.copying.filter (· != k), repaired := insertNat k s.bm.repaired
        poison := if !correctable && b == 7 then insertNat (m * 1024 + r) s.bm.poison else s.bm.poison
        gone := if !correctable && b != 7 then insertNat k s.bm.gone else s.bm.gone } }
      (s.raiseAfter (s.lastEvent (fun e => e.block == b && e.inst == m && e.code == 0xFF03 && e.arg == 2 * 2 ^ 28 + r)) 7 m 0x6010 r).fenceClear
        (.row b m r)

/-- The table lines of subchannel n that were uncorrectable where they lay and have not been written since the copy began. -/
def State.lostLines (s : State) (n : Nat) : List Nat :=
  ((s.bm.bad.filter (fun k => k / 2 ^ 28 == n && decide (k % 2 ^ 28 < tableLines))).map (fun k => k % 2 ^ 28 * 16 + n)).filter
    (fun l => !s.bm.rewritten.contains l)

/-- RELOCATION_COMPLETE (R344): 20 GiB in 64-byte lines over 16 subchannels, in units of 1,024 lines. Lines that could not be corrected,
those the copy found named by the command, are uncorrectable at their new place. -/
def execRelocationComplete (x : Relocated) (s : State) : Res :=
  act s fun s =>
    let n := x.sub.val
    if s.bm.relocating != some n || s.deepDown || !s.deepTurn .background n then s
    else
      let found := ((x.lost.map (·.toNat)).filter (fun l => l % 16 == n && !s.bm.rewritten.contains l)) ++ s.lostLines n
      let s := { s with bm := { s.bm with relocating := none, rewritten := [] } }
      let s := { s with bm := { s.bm with
        bad := found.foldl (fun b l => insertNat (lineNo (s.lineHome l).1 (s.lineHome l).2) b) s.bm.bad } }
      s.raise 7 n 0x6021 20480

/-! ### Memory tests and thresholds (R320, R332, R347) -/

/-- A write of the owner to a BM register (R320). -/
def State.bmWrite (s : State) (r : Requester) (f : State → State) : State :=
  if s.regsOff 7 then s
  else if s.owns r then f s
  else match r with
    | .vf _ => s
    | _ => s.wr F.BM_STATUS_not_owner 1

/-- A memory-test command: refused with 1 while busy. -/
def State.testCmd (s : State) (r : Requester) (f : State → State) : State :=
  s.bmWrite r fun s => if s.bm.test.isSome then s.wr F.BM_TEST_STATUS_result 1 else f s

/-- MEMORY_TEST_QUERY: the status stands as it is. (DEDUCED, unsafe: log entry 53.) -/
def execMemoryTestQuery (r : Requester) (s : State) : Res := act s fun s => s.testCmd r id

/-- A test starts, in TEST alone (3 elsewhere). -/
def State.testStart (s : State) (n : Nat) : State :=
  if s.glb.dev != .test then s.wr F.BM_TEST_STATUS_result 3
  else { s with bm := { s.bm with test := some n } }.wr F.BM_TEST_STATUS_busy 1

/-- PACKET_BUFFER_TEST. -/
def execPacketBufferTest (r : Requester) (s : State) : Res := act s fun s => s.testCmd r (·.testStart 1)

/-- What deep memory held is gone: the spilled packets, the snapshot staged, the firmware's records of terminals, and the exact-match
store, which in cache-only mode lies on chip (R291, R335, R347). Every line has been written whole. -/
def State.deepWiped (s : State) : State :=
  let s := { s with
    qs := { s.qs with queues := s.qs.queues.mapAll {} (fun _ x => { x with deep := x.deep.map (fun k => { k with lost := List.range (cellsFor k.bytes.length) }) }) }
    pr := { s.pr with snap := [] }, imh := { s.imh with terms := [] }, bm := { s.bm with bad := [] } }
  if s.cacheOnly then s else { s with cl := { s.cl with slots := [], cache := [] } }

/-- DEEP_MEMORY_TEST. -/
def execDeepMemoryTest (r : Requester) (s : State) : Res :=
  act s fun s => s.testCmd r fun s =>
    let s := s.testStart 2
    s.when (s.bm.test == some 2) State.deepWiped

/-- MEMORY_TEST_DONE. -/
def execMemoryTestDone (failUnit : Option (BitVec 16)) (s : State) : Res :=
  act s fun s =>
    if s.bm.test.isNone then s
    else
      let s := { s with bm := { s.bm with test := none } }.wr F.BM_TEST_STATUS_busy 0
      match failUnit with
      | none => s.wr F.BM_TEST_STATUS_result 0
      | some n => (s.wr F.BM_TEST_STATUS_result 2).wr F.BM_TEST_STATUS_fail_unit n.toNat

/-- The order of the thresholds (R332), in 4,096-cell units: spill_off < spill_on < low_max ≤ 512 − arr_floor. -/
def spillOrder (low on off floor : Nat) : Bool := decide (off < on) && decide (on < low) && decide (low + max 8 floor ≤ 512)

/-- BM_SPILL_WRITE. -/
def execBmSpillWrite (r : Requester) (v : Word) (s : State) : Res :=
  act s fun s => s.bmWrite r fun s =>
    let w := v.toNat
    if spillOrder (bits w 26 18) (bits w 17 9) (bits w 8 0) (s.rd F.BM_ADMIT_arr_floor) then
      ((s.wr F.BM_SPILL_low_max (bits w 26 18)).wr F.BM_SPILL_spill_on (bits w 17 9)).wr F.BM_SPILL_spill_off (bits w 8 0)
    else s.wr F.BM_STATUS_cfg_err 1

end Sys2Proof.Machine
end

