-- ==== Sys2Proof/Machine/Cl.lean ====
section
/-! DEFINITION. The commands of the CL block (R291 to R319): tables, exact entries, ternary entries, the rule-set commit, spread
members. -/

namespace Sys2Proof.Machine

/-! ### CL_CMD (R316, R318) -/

/-- Rows of a kind, and the bits each of its words holds. -/
def clTable (kind : Nat) : Nat × List Nat :=
  match kind with
  | 2 => (32, [0x3F01F, 0x3FFFF, 0xFF, 0x1FFFF])
  | 3 => (131072, [0x3FFFF, 0x23FFF, 0xFFFF, 0xFFFF])
  | 4 => (1024, [0x2FFFF])
  | 5 => (16384, [0xF])
  | 6 => (16, [0x30FFF, 0x3FFFF, 0xFFF, 0xFF])
  | 7 => (256, [0x2000F])
  | _ => (0, [])

def State.clResult (s : State) (n : Nat) : State := s.wr F.CL_CMD_STATUS_result n

/-- Key register k as CL_KEY or CL_MASK holds it. -/
def State.clReg (s : State) (f : Fld) (k : Nat) : Nat := s.rd f (2 * k) + s.rd f (2 * k + 1) % 16 * 2 ^ 32

def State.clKey (s : State) (n : Nat) : List Nat := (List.range n).map (s.clReg F.CL_KEY_bits)
def State.clMask (s : State) (n : Nat) : List Nat := (List.range n).map (s.clReg F.CL_MASK_bits)
def State.clAct1 (s : State) : Nat := s.clReg F.CL_ACT_bits 0
def State.clAct2 (s : State) : Nat := s.clReg F.CL_ACT_bits 1
def State.clIndex (s : State) : Nat := s.rd F.CL_INDEX_index

/-- A list of 36-bit registers shown in CL_KEY, CL_MASK or CL_ACT. -/
def State.clShow (s : State) (f : Fld) (n : Nat) (ws : List Nat) : State :=
  State.each n (fun s k => (s.wr f (ws.getD k 0 % 2 ^ 32) (2 * k)).wr f (ws.getD k 0 / 2 ^ 32) (2 * k + 1)) s

/-- CL_ARG after a command: occupied, visible now, visible next, tenant (R303). -/
def State.clArg (s : State) (occ live staged : Bool) (tenant : Nat) : State :=
  (((s.wr F.CL_ARG_valid (b2n occ)).wr F.CL_ARG_live (b2n live)).wr F.CL_ARG_staged_live (b2n staged)).wr F.CL_ARG_tenant tenant

/-- The register writes that gave a CL_CMD command (R379). -/
def State.clWrites (s : State) (op kind tbl : Nat) : List (Nat × Nat) :=
  let regs := fun (f : Fld) n => (List.range n).map (fun i => (f.at_ i, s.rd f i))
  [(F.CL_INDEX_index.off, s.clIndex), (F.CL_ARG_tenant.off, s.rd F.CL_ARG_valid * 256 + s.rd F.CL_ARG_tenant)]
    ++ (if 2 ≤ kind then regs F.CL_DATA_word 8 else regs F.CL_KEY_bits 16 ++ regs F.CL_MASK_bits 16 ++ regs F.CL_ACT_bits 4)
    ++ [(F.CL_CMD_op.off, op * 2 ^ 28 + kind * 2 ^ 24 + tbl * 2 ^ 20)]

/-- A CL_CMD command: 6, 1, 7 in that order; a standby takes reads and finds alone (R316, R377). f answers the state and the
result. -/
def State.clCmd (s : State) (r : Requester) (op kind tbl : Nat) (f : State → State × Nat) : State :=
  let query := op == 0 || op == 4
  if s.regsOff 5 then s
  else if !(if query then s.owns r else s.may r 5) then (match r with
    | .vf _ => s
    | _ => s.clResult 6)
  else if s.on F.CL_CMD_STATUS_busy then s.clResult 1
  else if 8 ≤ kind || (op = 1 && kind = 0) || (2 ≤ op && kind ≠ 0) then s.clResult 7
  else
    let ws := s.clWrites op kind tbl
    let (s', n) := f s
    let s' := s'.clResult n
    if n = 0 && !query then s'.mirror r ws (some s'.clIndex) 0 else s'

/-- A command on an exact entry: while deep memory serves no request, the store's read or write is withdrawn, and the command, busy, is
made again once it does (R37, R298, R346). (DEDUCED, unsafe: log entry 52.) -/
def State.clExact (s : State) (r : Requester) (op kind tbl : Nat) (f : State → State × Nat) : State :=
  let out := !s.regsOff 5 && (if op = 0 || op = 4 then s.owns r else s.may r 5) && !s.on F.CL_CMD_STATUS_busy
  if out && kind = 0 && !s.cacheOnly && s.deepDown then
    { s with cl := { s.cl with held := some (r, op, tbl) } }.wr F.CL_CMD_STATUS_busy 1
  else s.clCmd r op kind tbl f

/-! ### Visibility of what commands report -/

/-- Slots of the store (R291). -/
def State.storeSlots (s : State) : Nat := if s.cacheOnly then 262144 else 2 ^ 28

def State.clLive (s : State) (x : Slot) : Bool := s.slotSeen x (s.gen .rules).cur
def State.clStaged (s : State) (x : Slot) : Bool := s.slotSeen x s.ruleNext

/-- The bank of a ternary entry that the next generation will read. -/
def TEntry.next (e : TEntry) : TBank := if (e.cur != e.written) then e.bank1 else e.bank0
def TEntry.now (e : TEntry) : TBank := if e.cur then e.bank1 else e.bank0

/-- An index lies in the range of ternary table tbl, even for a pair (R299). -/
def State.ternIndexOk (s : State) (tbl i : Nat) : Bool :=
  let d := descRow true tbl
  s.descValid d && decide (s.descBase d ≤ i) && decide (i < s.descBase d + s.descSize d)
    && (decide (s.descN d ≤ 4) || i % 2 == 0)

/-! ### Read -/

def State.clReadExact (s : State) : State × Nat :=
  let i := s.clIndex
  if s.storeSlots ≤ i then (s, 9)
  else match s.slotAt i with
    | none => (((s.clArg false false false 0).clShow F.CL_KEY_bits 8 []).clShow F.CL_ACT_bits 2 [], 0)
    | some x => (((s.clArg true (s.clLive x) (s.clStaged x) x.tenant).clShow F.CL_KEY_bits 8 x.key).clShow F.CL_ACT_bits 2
        [x.act1, x.act2], 0)

/-- READ of a ternary entry (R303). (DEDUCED, unsafe: log entry 32.) -/
def State.clReadTern (s : State) (tbl : Nat) : State × Nat :=
  let i := s.clIndex
  if !s.ternIndexOk tbl i then (s, 9)
  else
    let e := s.ternAt i
    let pick := fun (e : TEntry) => if (s.ternAt i).now.valid then e.now else e.next
    let b := pick e
    let second := if 5 ≤ s.descN (descRow true tbl) then pick (s.ternAt (i + 1)) else {}
    let s := s.clArg (e.now.valid || e.next.valid) e.now.valid e.next.valid b.tenant
    let s := s.clShow F.CL_KEY_bits 8 ((List.range 4).map (b.key.getD · 0) ++ second.key)
    ((s.clShow F.CL_MASK_bits 8 ((List.range 4).map (b.mask.getD · 0) ++ second.mask)).clShow F.CL_ACT_bits 2 [b.act1, b.act2], 0)

/-- A row's word as a command reads it: a spread bucket shows its serving member (R311). -/
def State.clWord (s : State) (kind row w : Nat) : Nat :=
  let v := s.row kind row w
  if kind = 5 && w = 0 then v % 16 + s.serving (row / 256) (v % 16) * 16 else v

/-- The row is beyond the table, or is the spread table's descriptor. -/
def clBeyond (kind i : Nat) : Bool := decide ((clTable kind).1 ≤ i) || (kind == 2 && i == 15)

/-- CL_READ. -/
def execClRead (r : Requester) (kind tbl : BitVec 4) (s : State) : Res :=
  act s fun s => s.clExact r 0 kind.toNat tbl.toNat fun s =>
    match kind.toNat with
    | 0 => s.clReadExact
    | 1 => s.clReadTern tbl.toNat
    | k =>
      let i := s.clIndex
      if clBeyond k i then (s, 9) else (State.each 8 (fun s w => s.wr F.CL_DATA_word (s.clWord k i w) w) s, 0)

/-! ### Write (R299, R300, R308, R317, R318) -/

/-- A ternary entry's bank not in force for the current generation takes b. -/
def State.ternPut (s : State) (i : Nat) (b : TBank) : State :=
  let e := s.ternAt i
  let e := if e.cur then { e with bank0 := b, written := true } else { e with bank1 := b, written := true }
  { s with cl := { s.cl with tern := s.cl.tern.set {} i e } }

def State.clWriteTern (s : State) (tbl : Nat) : State × Nat :=
  let i := s.clIndex
  if !s.ternIndexOk tbl i then (s, 9)
  else if (s.gen .rules).ret.isSome then (s, 8)
  else
    let n := s.descN (descRow true tbl)
    let key := s.clKey n
    let mask := s.clMask n
    let ok := s.on F.CL_ARG_valid
    let t := s.rd F.CL_ARG_tenant
    let s := (s.ternPut i ⟨ok, t, key.take 4, mask.take 4, s.clAct1, s.clAct2⟩).stage .rules
    (if n ≤ 4 then s else s.ternPut (i + 1) ⟨ok, t, key.drop 4, mask.drop 4, s.clAct1, s.clAct2⟩, 0)

/-- The words that a write command of a kind carries. -/
def State.clWords (s : State) (kind : Nat) : List Nat := (clTable kind).2.mapIdx (fun i m => s.rd F.CL_DATA_word i &&& m)

def State.clStore (s : State) (kind row : Nat) (ws : List Nat) : State :=
  { s with rows := ws.zipIdx.foldl (fun m x => m.set 0 (rowKey kind row x.2) x.1) s.rows }

/-- A table's range: first and last, in buckets or entries. -/
def State.descRange (s : State) (d : Nat) : Nat × Nat :=
  (s.descBase d, s.descBase d + (if d < 16 then 2 ^ s.descLog2 d else s.descSize d))

/-- The table holds an entry visible in a live generation. -/
def State.tableUsed (s : State) (d : Nat) : Bool :=
  let gens := (s.gen .rules).cur :: (s.gen .rules).ret.toList
  if d < 16 then s.cl.slots.any (fun e => match e.2 with
    | some x => x.tbl == d && gens.any (s.slotSeen x)
    | none => false)
  else s.descValid d && s.cl.tern.any (fun e => decide ((s.descRange d).1 ≤ e.1) && decide (e.1 < (s.descRange d).2)
    && gens.any (fun g => (s.ternBank e.2 g).valid))

/-- A descriptor write's refusal: 3, 4, 10 (R295, R299, R317). s' is the state with the row stored. -/
def State.descRefusal (s s' : State) (d : Nat) : Nat :=
  let (lo, hi) := s'.descRange d
  let n := s'.descN d
  let others := (if d < 16 then List.range 15 else (List.range 16).map (· + 16)).filter (· != d)
  let overlap := others.any (fun o => s.descValid o && decide (lo < (s.descRange o).2) && decide ((s.descRange o).1 < hi))
  let size := s'.descSize d
  if s.tableUsed d then 3
  else if !s'.descValid d then 0
  else if d < 16 then
    if 26 < s'.descLog2 d || overlap || s.storeSlots < hi * 4 then 4
    else if !s.cacheOnly && s'.descPin d && 65536 < s.pinnedBut d + 4 * 2 ^ s'.descLog2 d then 10 else 0
  else if size = 0 || 65536 < size || overlap || 65536 < hi || (5 ≤ n && (lo % 2 = 1 || size % 2 = 1)) then 4 else 0

/-- An XGEM port context write's refusal: 3, 4 (R308, R318). -/
def State.xgRefusal (s s' : State) (x : Nat) : Nat :=
  let t := s'.xgTerm x
  let same := (s.rowsOf 3).any (fun y => y != x && s.xgValid y && s.xgPortId y == s'.xgPortId x
    && (s.ctx (s.xgTerm y)).port == (s.ctx t).port)
  let a := s.alloc (s'.xgCalloc x)
  if s.xgValid x && (s.xgTerm x != t || s.xgPortId x != s'.xgPortId x) then 3
  else if s'.xgEnc x = 3 || (s'.xgValid x && same) then 4
  else if s'.xgCirc x && (s'.xgCircBytes x = 0 || !a.valid || a.term != t) then 4 else 0

/-- A channel write's refusal. -/
def chanRefusal (ws : List Nat) : Nat :=
  if bits (ws.getD 0 0) 17 16 = 3 || ws.getD 2 0 = 0 || 144 < ws.getD 3 0 then 4 else 0

/-- A channel's rate or burst changes: what has passed is credited at the old rate, and the level limited to the new burst (R312). -/
def State.chanChange (s : State) (c burst : Nat) : State :=
  let x := s.cl.chans.get {} c
  let l := min (x.level + (s.runNs - x.last) * s.row 6 c 1) (bits (s.row 6 c 2) 11 0 * 10000000)
  { s with cl := { s.cl with chans := s.cl.chans.set {} c { x with level := min l (burst * 10000000), last := s.runNs } } }

/-- CL_WRITE. -/
def execClWrite (r : Requester) (kind tbl : BitVec 4) (s : State) : Res :=
  act s fun s => s.clCmd r 1 kind.toNat tbl.toNat fun s =>
    let k := kind.toNat
    let i := s.clIndex
    if k = 1 then s.clWriteTern tbl.toNat
    else if clBeyond k i then (s, 9)
    else
      let ws := s.clWords k
      let s' := s.clStore k i ws
      let n := match k with
        | 2 => s.descRefusal s' i
        | 3 => s.xgRefusal s' i
        | 6 => chanRefusal ws
        | _ => 0
      if n != 0 then (s, n) else ((if k = 6 then (s.chanChange i (ws.getD 2 0)).clStore k i ws else s'), 0)

/-! ### Exact entries (R292 to R294, R301 to R303) -/

/-- The slots that hold a key in a table, of a tenant where the table is partitioned. -/
def State.slotsOf (s : State) (tbl : Nat) (key : List Nat) (t : Nat) : List (Nat × Slot) :=
  (s.candidates tbl key).filterMap (fun i => match s.slotAt i with
    | some x => if x.tbl == tbl && x.key == key && (!s.descPart tbl || x.tenant == t) then some (i, x) else none
    | none => none)

/-- A command on an exact table: f gets the key and the tenant; 4 where the table has no descriptor. -/
def State.exactCmd (s : State) (tbl : Nat) (f : List Nat → Nat → State × Nat) : State × Nat :=
  if tbl = 15 || !s.descValid tbl then (s, 4)
  else f (s.clKey (s.descN tbl)) (if s.descPart tbl then s.rd F.CL_ARG_tenant else 0)

/-- The slot a command found, reported. -/
def State.clFound (s : State) (i : Nat) (x : Slot) : State :=
  (s.wr F.CL_INDEX_index i).clArg true (s.clLive x) (s.clStaged x) x.tenant

/-- An add: a key added at the next generation is changed in place; one live now is deleted at the next and added anew, if there is
room. -/
def State.clAddOp (s : State) (tbl : Nat) : State × Nat :=
  s.exactCmd tbl fun key t =>
    if (s.gen .rules).ret.isSome then (s, 8)
    else
      let held := s.slotsOf tbl key t
      let new : Slot := ⟨tbl, key, t, s.clAct1, s.clAct2, some s.ruleNext, none⟩
      match held.find? (fun e => e.2.added == some s.ruleNext) with
      | some (i, _) => (((s.setSlot i (some new)).stage .rules).clFound i new, 0)
      | none => match (s.candidates tbl key).find? (fun i => (s.slotAt i).isNone) with
        | none => (s, 5)
        | some i =>
          let s := held.foldl (fun s e => if e.2.deleted.isNone then s.setSlot e.1 (some { e.2 with deleted := some s.ruleNext }) else s) s
          (((s.setSlot i (some new)).stage .rules).clFound i new, 0)

/-- CL_ADD. -/
def execClAdd (r : Requester) (kind tbl : BitVec 4) (s : State) : Res :=
  act s fun s => s.clExact r 2 kind.toNat tbl.toNat (·.clAddOp tbl.toNat)

/-- A delete: a slot added at the next generation is free at once. -/
def State.clDeleteOp (s : State) (tbl : Nat) : State × Nat :=
  s.exactCmd tbl fun key t =>
    if (s.gen .rules).ret.isSome then (s, 8)
    else match (s.slotsOf tbl key t).find? (fun e => e.2.deleted.isNone) with
      | none => (s, 2)
      | some (i, x) =>
        if x.added == some s.ruleNext then
          (((s.setSlot i none).stage .rules).wr F.CL_INDEX_index i |>.clArg false false false x.tenant, 0)
        else
          let y := { x with deleted := some s.ruleNext }
          (((s.setSlot i (some y)).stage .rules).clFound i y, 0)

/-- CL_DELETE. -/
def execClDelete (r : Requester) (kind tbl : BitVec 4) (s : State) : Res :=
  act s fun s => s.clExact r 3 kind.toNat tbl.toNat (·.clDeleteOp tbl.toNat)

/-- A find: the slot visible now, else the one staged. -/
def State.clFindOp (s : State) (tbl : Nat) : State × Nat :=
  s.exactCmd tbl fun key t =>
    let l := s.slotsOf tbl key t
    match (l.find? (fun e => s.clLive e.2)).orElse (fun _ => l.find? (fun e => s.clStaged e.2)) with
    | none => (s, 2)
    | some (i, x) => (s.clFound i x, 0)

/-- CL_FIND. -/
def execClFind (r : Requester) (kind tbl : BitVec 4) (s : State) : Res :=
  act s fun s => s.clExact r 4 kind.toNat tbl.toNat (·.clFindOp tbl.toNat)

/-- Deep memory serves requests again: the command that waited for it is carried out (R37). -/
def State.clResume (s : State) : State :=
  match s.cl.held with
  | none => s
  | some (r, op, tbl) =>
    if s.deepDown then s
    else ({ s with cl := { s.cl with held := none } }.wr F.CL_CMD_STATUS_busy 0).clCmd r op 0 tbl (match op with
      | 0 => State.clReadExact
      | 2 => (·.clAddOp tbl)
      | 3 => (·.clDeleteOp tbl)
      | _ => (·.clFindOp tbl))

/-! ### The commit (R300 to R302) -/

/-- An entry at a commit. -/
def TEntry.commit (e : TEntry) : TEntry := { e with ret := e.cur, cur := e.cur != e.written, written := false }

/-- CL_RULE_COMMIT. -/
def execClRuleCommit (r : Requester) (v : Word) (s : State) : Res :=
  act s fun s =>
    if s.regsOff 5 then s
    else if !s.may r 5 then (match r with
      | .vf _ => s
      | _ => s.clResult 6)
    else if v.toNat % 2 = 0 then s
    else
      let (s, ok) := s.commit .rules true
      let s := if ok then { s with cl := { s.cl with tern := s.cl.tern.mapAll {} (fun _ e => e.commit) } } else s
      s.mirror r [(F.CL_RULE_COMMIT_commit.off, v.toNat)] (some (s.gen .rules).cur) (s.gen .rules).status

/-- The retiring rule set is over (R302): deleted slots are free, added ones lose their stamp, its negative entries go. -/
def State.rulesRetired (s : State) (old : Nat) : State :=
  { s with cl := { s.cl with
    slots := s.cl.slots.mapAll none (fun _ x => match x with
      | some x => if x.deleted.isSome then none else some { x with added := none }
      | none => none)
    cache := s.cl.cache.mapAll [] (fun _ l => l.filter (fun c => match c with
      | .neg _ _ _ g => g != old
      | .slot _ => true)) } }

/-! ### Spread members (R311) -/

/-- SPREAD_BUCKETS_MOVED. -/
def execSpreadBucketsMoved (g : BitVec 6) (m : BitVec 4) (s : State) : Res :=
  act s fun s =>
    let k := g.toNat * 16 + m.toNat
    if s.blkDown 5 || !s.memberValid k || s.memberUp k || s.cl.moved.contains k then s
    else { s with cl := { s.cl with moved := insertNat k s.cl.moved } }.raise 5 g.toNat 0x5003 m.toNat

/-- SPREAD_BUCKETS_RESTORED. -/
def execSpreadBucketsRestored (g : BitVec 6) (m : BitVec 4) (s : State) : Res :=
  act s fun s =>
    let k := g.toNat * 16 + m.toNat
    if s.blkDown 5 || !s.memberUp k || !s.cl.moved.contains k then s
    else { s with cl := { s.cl with moved := s.cl.moved.filter (· != k) } }.raise 5 g.toNat 0x5004 m.toNat

end Sys2Proof.Machine
end

