-- ==== Sys2Proof/Machine/Gens.lean ====
section
/-! DEFINITION. Retirement of generations (R27 to R34): what still carries a retiring one, what goes with it, the slow-retire
notice. -/

namespace Sys2Proof.Machine

/-- Packets in the parse stage that carry generation g of an object (R27). -/
def State.carriers (s : State) (rules : Bool) (g : Nat) : List Work :=
  s.pc.work.filter (fun w => w.begun && (if rules then w.pkt.rgen else w.pkt.pgen) == g)

/-- The trees whose open pitch runs generation g, with the pitch's opening. -/
def State.openPitches (s : State) (g : Nat) : List (Nat × Nat) :=
  s.trees.filterMap (fun e => match e.2.pitch with
    | some x => if x.gen = g then some (x.opened, e.1) else none
    | none => none)

/-- A gate list still to start, or still to end its old cycle (R255). -/
def Gate.busy (g : Gate) : Bool :=
  (g.cur.cycle != 0 && !g.started) || (match g.old with
    | some (l, _, _) => l.cycle != 0
    | none => false)

/-- A bucket that still runs a profile's old values (R245). -/
def State.bucketOld (s : State) (b : Bucket) : Bool := b.profile != 0 && (b.rate, b.cbs) != s.profileAt b.profile

/-- Work still carries the retiring generation g of an object. -/
def State.carried (s : State) (o : GenObj) (g : Nat) : Bool :=
  match o with
  | .parse => !(s.carriers false g).isEmpty
  | .rules => !(s.carriers true g).isEmpty
  | .grant => !(s.openPitches g).isEmpty
  | .gates => s.qs.gates.any (fun e => e.2.busy)
  | .shapers => s.qs.buckets.any (fun e => s.bucketOld e.2)

/-- Block row and codes of an object's events: retired, slow. -/
def genEvents (o : GenObj) : Nat × Nat × Nat :=
  match o with
  | .parse => (4, 0x4020, 0x4021) | .rules => (5, 0x5010, 0x5011) | .grant => (3, 0x2020, 0x2021)
  | .gates => (6, 0x3011, 0x3013) | .shapers => (6, 0x3010, 0x3012)

/-- The retiring generation retires once nothing carries it (R29). -/
def State.retireGen (s : State) (o : GenObj) : State :=
  let x := s.gen o
  match x.ret with
  | none => s
  | some g =>
    if s.carried o g then s
    else
      let s := s.setGen o { x with ret := none }
      let s := match o with
        | .parse => { s with pc := { s.pc with old := {} } }
        | .rules => s.rulesRetired g
        | _ => s
      s.raise (genEvents o).1 0 (genEvents o).2.1 g

/-- The packet of a list that arrived first: packets take their numbers as they arrive, and a recirculated one keeps its own. -/
def oldestWork (l : List Work) : Option Work :=
  l.foldl (fun m w => match m with
    | none => some w
    | some b => if w.pkt.pid < b.pkt.pid then some w else some b) none

/-- The oldest item in flight of a retiring generation (R33). Which of several busy gate lists is the oldest the spec does not say: the
first by number. (DESIGN CHOICE, unsafe: log entry 134.) How the owner of a bucket is coded it does not say either: free. -/
def State.oldestItem (s : State) (o : GenObj) (g : Nat) : Nat :=
  match o with
  | .parse => ((oldestWork (s.carriers false g)).map (fun w => w.pkt.src)).getD 0
  | .rules => ((oldestWork (s.carriers true g)).map (fun w => w.pkt.src)).getD 0
  | .grant => ((s.openPitches g).foldl (fun (m : Option (Nat × Nat)) e => match m with
      | none => some e
      | some b => if e.1 < b.1 then some e else some b) none |>.map (·.2)).getD 0
  | .gates => ((s.qs.gates.find? (fun e => e.2.busy)).map (·.1)).getD 0
  | .shapers => Config.free 4 s.fresh

/-- A generation still retires 10 ms after its commit, and that has not been reported yet (R33). -/
def State.slowNow (s : State) (o : GenObj) : Bool := !(s.gen o).slow && decide ((s.gen o).at_ + 10000000 * 2 ^ 40 ≤ s.ts.run)

/-- SLOW_RETIRE: once for a generation, 10 ms after its commit. (DESIGN CHOICE, safe: log entry 30.) -/
def execSlowRetire (o : GenObj) (s : State) : Res :=
  act s fun s => match (s.gen o).ret with
    | none => s
    | some g =>
      if !s.slowNow o then s
      else
        let s' := (s.setGen o { s.gen o with slow := true }).raise (genEvents o).1 0 (genEvents o).2.2 (s.oldestItem o g)
        if o = .shapers then s'.tickFresh else s'

end Sys2Proof.Machine
end

