-- ==== Sys2Proof/Machine/Glb.lean ====
section
/-! DEFINITION. The GLB block's own commands that touch no other block: lost events, tally slots, pace, unmapped accesses
(R26, R42, R44, R48, R51). -/

namespace Sys2Proof.Machine

/-- UNMAPPED_ACCESS. A read answers 0, a write is ignored, and either raises event 0x0004 (R51). -/
def execUnmappedAccess (write : Bool) (off : BitVec 24) (s : State) : Res :=
  act s fun s => (if write then s else { s with rdata := 0 }).raise 0 0 0x0004 off.toNat

/-- EVENTS_LOST. Once space has returned at a source that dropped events, it offers one event with their count (R42). -/
def execEventsLost (block : Fin 15) (inst : BitVec 11) (s : State) : Res :=
  act s fun s =>
    let k := block.val * 2048 + inst.toNat
    let n := s.evu.lost.get 0 k
    if n = 0 || 16 ≤ s.waiting block inst.toNat then s
    else ({ s with evu := { s.evu with lost := s.evu.lost.set 0 k 0 } }).raise block inst.toNat 0xFF10 (sat (2 ^ 32 - 1) n)

/-- TALLY_SLOT_END: once the slot's length has passed the next slot begins, without a gap (R44). -/
def execTallySlotEnd (s : State) : Res :=
  act s fun s =>
    let e := s.slots.start + s.slots.length
    if e ≤ s.ts.run then s.tallySlotEnd e else s

/-- TALLY_CFG_WRITE. A change of window_ms ends the current slot, and each slot that begins from then on has the new length; the
threshold holds for later faults (R48). -/
def execTallyCfgWrite (r : Requester) (v : Word) (s : State) : Res :=
  act s fun s => if !s.reach r 0 || s.notDecoded F.GLB_TALLY_CFG_window_ms.off then s
    else
      let w := bits v.toNat 31 16
      let s' := (s.wr F.GLB_TALLY_CFG_window_ms w).wr F.GLB_TALLY_CFG_threshold (bits v.toNat 7 0)
      s'.when (w != s.rd F.GLB_TALLY_CFG_window_ms) (·.tallySlotEnd s.ts.run)

/-- The domain that a pace monitor stands in (R506). -/
def monDomain (i : Nat) : Nat :=
  if i < 16 then i / 2 else if i < 24 then 8 else if i < 32 then 9 else if i < 40 then 10 else if i < 46 then 13
  else if i = 46 then 11 else 12

/-- A monitor whose domain is down is excluded (R506). -/
def State.monOut (s : State) (i : Nat) : Bool := s.domDown (monDomain i)

/-- The monitors in the loop. -/
def State.monIn (s : State) : List Nat := (List.range 48).filter (fun i => !s.monOut i)

/-- The monitor with the least margin, the lowest among equals (GLB_PACE, R507). -/
def State.worstMon (s : State) : Nat :=
  (s.monIn.foldl (fun m i => match m with
    | none => some i
    | some b => if s.rd F.PW_MON_margin i < s.rd F.PW_MON_margin b then some i else m) none).getD 0

/-- PACE_BELOW_FLOOR (R26, R471): the monitor's margin is 0, below_floor sets, source 4 is rung as it does, and the pace-low event is
raised with that margin. -/
def execPaceBelowFloor (mon : Fin 48) (s : State) : Res :=
  act s fun s => if s.monOut mon then s
    else
      let was := s.on F.GLB_PACE_below_floor
      let s := { s with pr := { s.pr with floorAt := some s.ts.run } }.wr F.PW_MON_margin 0 mon
      let s := (s.wr F.GLB_PACE_below_floor 1).raise 14 mon 0xD012 0
      s.when (!was) (·.ring 4)

end Sys2Proof.Machine
end

