-- ==== Sys2Proof/Machine/Hd.lean ====
section
/-! DEFINITION. The commands of the host interface (R448 to R470): rings, channels, beats, completions, writebacks, functions,
the link. -/

namespace Sys2Proof.Machine

/-! ### Ownership (R450) -/

/-- A write that the ring's owner may make: the physical function, or the virtual function that owns the ring. -/
def State.ringMay (s : State) (r : Requester) (ring : Nat) : Bool :=
  match r with
  | .pf => true
  | .vf i => s.feat 10 && s.ringOwner ring == i.val + 1
  | _ => false

/-- A write of the HD block: ignored with not_owner where its requester may not make it. -/
def State.hdWrite (s : State) (ok : Bool) (f : State → State) : State :=
  if s.regsOff 11 then s else if ok then f s else s.wr F.HD_STATUS_not_owner 1

/-! ### Rings (R455, R457, R468) -/

/-- Fields of HD_RING_CFG that the physical function writes while en = 0. -/
def State.ringFields (s : State) (ring v : Nat) : State :=
  let owner := bits v 23 17
  let s := (s.wr F.HD_RING_CFG_kind (bits v 2 1) ring).wr F.HD_RING_CFG_chan (bits v 16 12) ring
  if owner != 0 && (!s.feat 10 || decide (64 < owner)) then s.ringError ring else s.wr F.HD_RING_CFG_owner owner ring

/-- An enable is refused (R453, R455). (PRESUMED, unsafe: log entry 25.) -/
def State.ringRefused (s : State) (ring : Nat) : Bool :=
  let k := s.ringKind ring
  let o := s.ringOwner ring
  k == 3 || (k == 2 && o != 0) || decide (s.rd F.HD_RING_CFG_log2_size ring < 4)
    || (o != 0 && !s.on F.HD_VF_CFG_en (o - 1))

/-- A write of HD_RING_CFG. A virtual function's write of another kind, owner or channel is ignored with not_owner (R450). -/
def State.ringCfg (s : State) (pf : Bool) (ring v : Nat) : State :=
  let s := s.when (!pf && (bits v 2 1 != s.ringKind ring || bits v 16 12 != s.ringChan ring || bits v 23 17 != s.ringOwner ring))
    (·.wr F.HD_STATUS_not_owner 1)
  if s.ringOn ring then
    if bit v 0 then s
    else
      let s := s.ringWithdraw ring
      let n := (s.ringAt ring).recs.length
      let s := s.setRing ring { s.ringAt ring with recs := [], part := [] }
      ((s.ringDrop ring n).wr F.HD_RING_CFG_en 0 ring).chanStart (s.ringChan ring)
  else
    let s := s.when pf (·.ringFields ring v)
    let s := s.wr F.HD_RING_CFG_log2_size (bits v 11 8) ring
    if !bit v 0 then s
    else if s.ringRefused ring then s.ringError ring
    else (s.wr F.HD_RING_CFG_en 1 ring).chanStart (s.ringChan ring)

/-- RING_ENABLE. -/
def execRingEnable (r : Requester) (ring : BitVec 12) (v : Word) (s : State) : Res :=
  act s fun s => s.hdWrite (s.ringMay r ring.toNat) (·.ringCfg (r == .pf) ring.toNat v.toNat)

/-- RING_DISABLE. (DEDUCED, unsafe: log entry 24.) -/
def execRingDisable (r : Requester) (ring : BitVec 12) (v : Word) (s : State) : Res :=
  act s fun s => s.hdWrite (s.ringMay r ring.toNat) (·.ringCfg (r == .pf) ring.toNat v.toNat)

/-- RING_TAIL_WRITE: the producer index of an inject or receive ring; a write too far ahead is ignored and sets error. -/
def execRingTailWrite (r : Requester) (ring : BitVec 12) (v : Word) (s : State) : Res :=
  act s fun s => s.hdWrite (s.ringMay r ring.toNat) fun s =>
    let n := ring.toNat
    let t := v.toNat % 2 ^ 16
    if 2 ≤ s.ringKind n then s
    else if s.ringSize n - 1 < (t + 2 ^ 16 - s.ringHead n) % 2 ^ 16 then s.ringError n
    else (s.wr F.HD_RING_TAIL_tail t n).chanStart (s.ringChan n)

/-- RING_HEAD_WRITE: the consumer index of an event ring. -/
def execRingHeadWrite (r : Requester) (ring : BitVec 12) (v : Word) (s : State) : Res :=
  act s fun s => s.hdWrite (s.ringMay r ring.toNat) fun s =>
    let n := ring.toNat
    if s.ringKind n = 2 then (s.wr F.HD_RING_HEAD_head v.toNat n).chanStart (s.ringChan n) else s

/-- LOSS_RECORD. -/
def execLossRecord (ring : BitVec 12) (s : State) : Res :=
  act s fun s => if s.ringOn ring.toNat && s.ringKind ring.toNat == 2 then
      (s.ringLoss ring.toNat).chanStart (s.ringChan ring.toNat) else s

/-- RING_IRQ_TIMER: irq_us (0 acts as 1) after the first completion not yet announced. -/
def execRingIrqTimer (ring : BitVec 12) (s : State) : Res :=
  act s fun s =>
    let n := ring.toNat
    let x := s.ringAt n
    if x.since = 0 || !s.on F.HD_RING_IRQ_irq_en n
        || s.ts.run < x.sinceAt + max 1 (s.rd F.HD_RING_BUF_irq_us n) * microsecond then s
    else (s.setRing n { x with since := 0 }).ring (s.rd F.HD_RING_IRQ_irq_src n)

/-! ### Channels (R462, R465 to R469) -/

/-- The beat's target is down: the packet buffer, which holds an injected packet's beats and a record's (R466). -/
def State.beatWithdrawn (s : State) (t : Xfer) : Bool :=
  ((t.stage == .read && s.ringKind t.ring == 0) || (t.stage == .write && s.ringKind t.ring == 1)) && s.blkDown 7

/-- A channel goes on from where it stood: a beat whose target is still down waits on (R465, R466). -/
def State.chanGo (s : State) (c : Nat) : State :=
  let x := s.chanAt c
  let wait := x.withdrawn != 0 && (match x.xfer with
    | some t => s.beatWithdrawn t
    | none => false)
  ((s.setChan c { x with st := if wait then 4 else 1 }).issueReads c).chanStart c

/-- A write of HD_CH_CTRL. -/
def State.chCtrl (s : State) (c v : Nat) : State :=
  let s := ((s.wr F.HD_CH_CTRL_prio (bits v 6 4) c).wr F.HD_CH_CTRL_ro_en (bits v 3 3) c).wr F.HD_CH_CTRL_ns_en (bits v 2 2) c
  let was := s.on F.HD_CH_CTRL_en c
  let en := bit v 0 && !s.fenced (.chan c)
  let s := (s.wr F.HD_CH_CTRL_en (b2n en) c).wr F.HD_CH_CTRL_pause (bits v 1 1) c
  let s := if was && !en then
      let s := s.withdraw c
      s.when ((s.chanAt c).st != 5 && (s.chanAt c).st != 6) (fun s => s.setChan c { s.chanAt c with st := 0 })
    else s
  let x := s.chanAt c
  if bit v 1 && en && (x.st ≤ 1 || x.st == 4) then
    (s.leaveMover c).setChan c { x with st := if x.reads = 0 then 3 else 2 }
  else if !bit v 1 && en && !x.domain && (x.st == 2 || x.st == 3) then s.chanGo c
  else s.chanStart c

/-- CHANNEL_PAUSE. -/
def execChannelPause (r : Requester) (c : BitVec 5) (v : Word) (s : State) : Res :=
  act s fun s => s.hdWrite (r == .pf) (·.chCtrl c.toNat v.toNat)

/-- CHANNEL_RESUME. -/
def execChannelResume (r : Requester) (c : BitVec 5) (v : Word) (s : State) : Res :=
  act s fun s => s.hdWrite (r == .pf) (·.chCtrl c.toNat v.toNat)

/-- CHANNEL_DISABLE. -/
def execChannelDisable (r : Requester) (c : BitVec 5) (v : Word) (s : State) : Res :=
  act s fun s => s.hdWrite (r == .pf) (·.chCtrl c.toNat v.toNat)

/-- An HD_CH_CMD command: 6 for any other requester than the physical function, 1 while busy. -/
def State.chCmd (s : State) (r : Requester) (c : Nat) (f : State → State × Nat) : State :=
  if s.regsOff 11 then s
  else match r with
  | .pf =>
    if s.on F.HD_CH_CMD_STATUS_busy then s.wr F.HD_CH_CMD_STATUS_result 1
    else
      let (s, n) := f s
      (s.wr F.HD_CH_CMD_STATUS_result n).wr F.HD_CH_CMD_STATUS_chan c
  | .vf _ => s
  | _ => (s.wr F.HD_CH_CMD_STATUS_result 6).wr F.HD_STATUS_not_owner 1

/-- CHANNEL_QUERY. -/
def execChannelQuery (r : Requester) (c : BitVec 5) (s : State) : Res := act s fun s => s.chCmd r c.toNat fun s => (s, 0)

/-- CHANNEL_REPAIR (R469). -/
def execChannelRepair (r : Requester) (c : BitVec 5) (s : State) : Res :=
  act s fun s => s.chCmd r c.toNat fun s =>
    let n := c.toNat
    if !s.fenced (.chan n) then (s, 2)
    else
      let s := ((s.fenceClear (.chan n)).wr F.HD_CH_CTRL_en 0 n).raise 11 n 0xA002 0
      (s.setChan n { s.chanAt n with st := 0 }, 0)

/-- CHANNEL_STOP (R468). -/
def execChannelStop (r : Requester) (c : BitVec 5) (s : State) : Res :=
  act s fun s => s.chCmd r c.toNat fun s =>
    let n := c.toNat
    let s := (s.withdraw n).wr F.HD_CH_CTRL_en 0 n
    (s.when ((s.chanAt n).st != 5 && (s.chanAt n).st != 6) (fun s => s.setChan n { s.chanAt n with st := 0 }), 0)

/-! ### Beats (R461, R462, R464, R466) -/

def State.chPrio (s : State) (c : Nat) : Nat := s.rd F.HD_CH_CTRL_prio c

/-- The holder that gives its mover up to channel c: the lowest priority above or equal to its own, longest held first. -/
def State.victim (s : State) (c : Nat) : Option Nat :=
  s.hd.movers.foldl (fun (b : Option Nat) d => match b with
    | none => if s.chPrio c ≤ s.chPrio d then some d else none
    | some e => if s.chPrio e < s.chPrio d then some d else some e) none

/-- Channel c holds a mover: it has one, takes a free one, pre-empts, or takes its turn among equals. -/
def State.takeMover (s : State) (c : Nat) : Option State :=
  let hold := fun (s : State) =>
    { s with hd := { s.hd with movers := s.hd.movers ++ [c] } }.setChan c { s.chanAt c with preempted := false }
  if s.hd.movers.contains c then some s
  else if s.hd.movers.length < 8 then some (hold s)
  else match s.victim c with
    | none => none
    | some d =>
      let s := s.leaveMover d
      some (hold (if s.chPrio c < s.chPrio d then (s.setChan d { s.chanAt d with preempted := true }).count 11 3 d else s))

/-- An inject descriptor's bytes are all moved (R456, R459): it is held until its packet is in cells, and the channel goes on with the next; the
last one's packet goes to the parse stage. A descriptor of a dropped packet goes with that packet's status. -/
def State.descMoved (s : State) (c : Nat) (t : Xfer) : State :=
  let g := s.ringAt t.ring
  let s := (s.leaveMover c).setChan c { s.chanAt c with withdrawn := 0 }
  if g.spoilt != 0 then
    (s.setRing t.ring (g.spoil g.spoilt t.eop)).setChan c { s.chanAt c with xfer := some (t.done g.spoilt) }
  else
    let s := s.when t.eop fun s => { s with hd := { s.hd with inject := s.hd.inject ++ [Inject.mk t.ring g.part c t.stampReq] } }
    let s := s.setRing t.ring { g with part := if t.eop then [] else g.part, owed := g.owed ++ [{ t with stage := .held }] }
    (s.setChan c { s.chanAt c with xfer := none }).chanStart c

/-- A beat of an inject transfer: bytes from the buffer into the device. A packet longer than 16,383 bytes is dropped (R456). -/
def State.beatIn (s : State) (c : Nat) (t : Xfer) : State :=
  let n := min 64 t.buf.length
  let g := s.ringAt t.ring
  let long := g.spoilt != 0 || decide (16383 < g.part.length + n)
  let s := s.setRing t.ring (if g.spoilt != 0 then g else if long then g.spoil 2 false else { g with part := g.part ++ t.buf.take n })
  let t := { t with buf := t.buf.drop n, moved := t.moved + n }
  let s := s.count 11 2 c n
  if t.moved < t.len then (s.setChan c { s.chanAt c with xfer := some t, withdrawn := 0 }).issueReads c else s.descMoved c t

/-- A beat of a write to the host: bytes into the buffer, and a burst once its beats are there. With relaxed ordering a flush read
follows the last (R463). -/
def State.beatOut (s : State) (c : Nat) (t : Xfer) : State :=
  let n := min 64 (t.data.length - t.moved)
  let t := { t with moved := t.moved + n }
  let s := s.count 11 2 c n
  let k := t.moved - t.issued
  let out := decide (s.hd.mps ≤ k) || decide (t.data.length ≤ t.moved)
  let s := s.when (out && k != 0) (·.emit (.hostWrite (s.ringOwner t.ring) (t.addr + t.issued) ((t.data.drop t.issued).take k)
    (if t.loss then {} else s.chanAttr c)))
  let t := if out then { t with issued := t.moved } else t
  let x := { s.chanAt c with withdrawn := 0 }
  if t.data.length ≤ t.issued then
    let s := s.leaveMover c
    if s.on F.HD_CH_CTRL_ro_en c then
      (s.emit (.hostRead (s.ringOwner t.ring) (t.addr + t.issued - 1) 0 {})).setChan c { x with
        reads := x.reads + 1, xfer := some { t with stage := .flush } }
    else s.setChan c { x with xfer := some (t.done 0) }
  else s.setChan c { x with xfer := some t }

/-- The transfer has a beat to move. -/
def Xfer.beatReady (t : Xfer) (reads : Nat) : Bool :=
  match t.stage with
  | .read => decide (t.moved < t.len) && (decide (64 ≤ t.buf.length) || (!t.buf.isEmpty && (reads == 0 || t.asked == t.len)))
  | .write => decide (t.issued < t.data.length)
  | _ => false

/-- The transfer's next beat is its last, and a flush read follows it (R463). -/
def State.flushNext (s : State) (c : Nat) (t : Xfer) : Bool :=
  t.stage == .write && s.on F.HD_CH_CTRL_ro_en c && decide (t.data.length ≤ t.moved + 64)

/-- A beat is withdrawn a second time (R466): the descriptor goes with status 3, or the record is dropped and counted, its descriptor still
posted; the channel continues with the next. -/
def State.beatLost (s : State) (c : Nat) (t : Xfer) : State :=
  let s := s.leaveMover c
  let x := s.chanAt c
  if s.ringKind t.ring = 0 then
    (s.setRing t.ring ((s.ringAt t.ring).spoil 3 t.eop)).setChan c { x with withdrawn := 0, xfer := some (t.done 3) }
  else ((s.ringDrop t.ring 1).setChan c { x with withdrawn := 0, xfer := none }).chanStart c

/-- BEAT_MOVE. -/
def execBeatMove (c : BitVec 5) (s : State) : Res :=
  act s fun s =>
    let n := c.toNat
    let x := s.chanAt n
    match x.xfer with
    | none => s
    | some t =>
      if !s.chanRuns n || !t.beatReady x.reads || (s.flushNext n t && !s.tagFree) then s
      else if s.beatWithdrawn t then
        if x.withdrawn = 0 then (s.leaveMover n).setChan n { x with st := 4, withdrawn := 1 }
        else
          let s := s.chanFault n
          if (s.chanAt n).st == 5 then s
          else s.beatLost n t
      else match s.takeMover n with
        | none => s
        | some s => if t.stage == .read then s.beatIn n t else s.beatOut n t

/-! ### Completions and writebacks -/

/-- A descriptor read (R458). What is left of a dropped packet goes with that packet's status (DEDUCED, unsafe: log entry 23). -/
def State.descRead (s : State) (c : Nat) (t : Xfer) (d : List Byte) : State :=
  let x := s.chanAt c
  let addr := leNat (d.take 8)
  let flags := leNat ((d.drop 10).take 1)
  let len := leNat ((d.drop 8).take 2)
  if s.ringKind t.ring = 0 then
    let t := { t with stage := .read, addr := addr, len := len, eop := bit flags 0, stampReq := bit flags 1, irq := bit flags 2 }
    let g := s.ringAt t.ring
    let bad := if g.spoilt != 0 then g.spoilt else if len = 0 || 16383 < len then 2 else 0
    if bad != 0 then (s.setRing t.ring (g.spoil bad t.eop)).setChan c { x with xfer := some (t.done bad) }
    else (s.setChan c { x with xfer := some t }).issueReads c
  else
    let g := s.ringAt t.ring
    match g.recs with
    | [] => s.setChan c { x with xfer := none }
    | r :: rest =>
      let room := max 1 (s.rd F.HD_RING_BUF_buf_units t.ring) * 64
      (s.setRing t.ring { g with recs := rest }).setChan c { x with
        xfer := some { t with
          stage := .write, addr := addr, len := min room r.bytes.length, data := r.bytes.take room
          trunc := decide (room < r.bytes.length), stamp := r.stamp } }

/-- A tag is free again: the channels that waited for one go on (R448). -/
def State.tagsBack (s : State) : State := State.each 32 (fun s c => (s.issueReads c).chanStart c) s

/-- A read burst's completion for channel c (R458, R461, R463, R465); one in error stands in AER (R448). An event entry whose flush
read fails counts as not written (R457). -/
def State.readDone (s : State) (n : Nat) (data : List Byte) (ok : Bool) : State :=
  let s := s.when (!ok) fun s => { s with hd := { s.hd with aer := true } }
  let x := s.chanAt n
  let x := { x with reads := x.reads - 1 }
  let x := if x.st = 2 && x.reads = 0 then { x with st := 3 } else x
  let s := s.setChan n x
  match x.xfer with
  | none => (s.stopped n).chanStart n
  | some t => match t.stage with
    | .desc =>
      if ok && data.length == 32 then s.descRead n t data
      else (s.when (s.ringKind t.ring == 0) (fun s => s.setRing t.ring ((s.ringAt t.ring).spoil 3 false))).setChan n
        { x with xfer := some (t.done 3) }
    | .read =>
      let got := t.moved + t.buf.length
      let t := if ok then { t with buf := t.buf ++ data.take (t.asked - got) } else { t with status := 3 }
      let t := if x.reads = 0 then { t with asked := t.moved + t.buf.length } else t
      if t.status = 3 then
        let s := s.setRing t.ring ((s.ringAt t.ring).spoil 3 t.eop)
        s.setChan n { x with xfer := some (if x.reads = 0 then t.done 3 else t) }
      else (s.setChan n { x with xfer := some t }).issueReads n
    | .flush =>
      if !ok && s.ringKind t.ring == 2 then
        let g := s.ringAt t.ring
        let s := (s.setRing t.ring { g with lost := g.lost + 1, lostSeq := leNat (t.data.take 4) }).ringDrop t.ring 1
        (s.setChan n { x with xfer := none }).chanStart n
      else s.setChan n { x with xfer := some (t.done (if ok then 0 else 3)) }
    | _ => s

/-- READ_COMPLETION. The channels that waited for its tag go on. -/
def execReadCompletion (c : BitVec 5) (data : List Byte) (ok : Bool) (s : State) : Res :=
  act s fun s => if (s.chanAt c.toNat).reads = 0 then s
    else (s.readDone c.toNat data ok).when (!s.tagFree) State.tagsBack

/-- The first descriptor that ring r owes can be written back: it is done, or its packet's stamp has come (R459). -/
def State.owedReady (s : State) (r : Nat) : Option (State × Xfer) :=
  match (s.ringAt r).owed with
  | [] => none
  | t :: _ =>
    if t.stage == .back then some (s, t)
    else match t.pid with
      | none => none
      | some p => match s.hd.stamps.find? (fun e => e.1 == p) with
        | none => none
        | some (_, v) =>
          let s := { s with hd := { s.hd with stamps := s.hd.stamps.filter (fun e => e.1 != p) } }
          some (s, match v with
            | some st => { t.done 0 with stamp := st }
            | none => t.done 5)

/-- The rings of channel c that owe a writeback, in rising number. -/
def State.owing (s : State) (c : Nat) : List Nat :=
  (s.hd.rings.filter (fun e => s.ringChan e.1 == c && (s.owedReady e.1).isSome)).map (·.1)

/-- The channel may write to the host: its block and the link are up; while it is paused, by pause or by a domain's request, only what was
withdrawn is written back (R465, R467, R468). -/
def State.mayWrite (s : State) (c : Nat) (t : Xfer) : Bool :=
  s.hd.link && !s.blkDown 11 && (t.status == 4 || !(s.on F.HD_CH_CTRL_pause c || (s.chanAt c).domain))

/-- DESCRIPTOR_WRITEBACK: the channel's transfer that is over, in ring order behind what its ring owes, or the first that a ring of the
channel owes. A withdrawn channel is idle once its last burst is in. -/
def execDescriptorWriteback (c : BitVec 5) (s : State) : Res :=
  act s fun s =>
    let n := c.toNat
    let x := s.chanAt n
    match s.owing n, x.xfer with
    | r :: _, _ => match s.owedReady r with
      | none => s
      | some (s', t) =>
        if !s.mayWrite n t then s
        else ((s'.setRing r { s'.ringAt r with owed := (s'.ringAt r).owed.tail }).backDesc t).chanStart n
    | [], some t =>
      if x.reads != 0 || t.stage != .back || !(s.ringAt t.ring).owed.isEmpty || !s.mayWrite n t then s
      else ((s.writeBack n t).stopped n).chanStart n
    | [], none => s

/-! ### Functions and the link (R449 to R454, R486) -/

/-- The rings of the owners given are withdrawn and disabled (R454): how many were enabled. -/
def State.flr (s : State) (owner : Nat → Bool) : State × Nat :=
  let rs := s.ringsHeld.filter (fun r => owner (s.ringOwner r))
  (rs.foldl State.ringGone s, (rs.filter s.ringOn).length)

/-- The reset of function f is complete, once no burst of its rings is out (R454). -/
def State.flrEnd (s : State) (f n : Nat) : State := { s with hd := { s.hd with flrs := s.hd.flrs ++ [(f, n)] } }.flrDone

/-- VF_FLR. The pending sources at the function's vector are cleared (R486). -/
def execVfFlr (f : Fin 64) (s : State) : Res :=
  act s fun s =>
    let (s, n) := s.flr (· == f.val + 1)
    let s := { s with ic := { s.ic with pend := s.ic.pend.filter (fun src => s.icFn (s.icTarget src) != some (f.val + 1)) } }
    ({ s with hd := { s.hd with vtab := s.hd.vtab.set {} f.val {} } } : State).flrEnd (f.val + 1) n

/-- VF Enable is cleared for every virtual function: each is reset as by an FLR (R454). -/
def State.vfOff (s : State) : State :=
  if !s.hd.vfs then s
  else
    let s := (s.flr (· != 0)).1
    { s with hd := { s.hd with vfs := false, vtab := [] } }

/-- The register fields of a stretch of BAR0 back at their reset values. -/
def State.resetRange (s : State) (lo hi : Nat) : State :=
  { s with rf := s.rf.filter (fun e => !(decide (lo ≤ e.1 / 64) && decide (e.1 / 64 < hi))) }

def hostVectors : List Nat := (List.range 64).map (· + 4)

/-- PF_FLR, which clears VF Enable as PCIe has it (PRESUMED, unsafe: log entry 25). -/
def execPfFlr (s : State) : Res :=
  act s fun s =>
    let (s, n) := s.flr (fun _ => true)
    let s := ({ s with hd := { s.hd with vfs := false, vtab := [], table := none, pba := [] } } : State).resetRange 0x900100 0x900300
    (s.icClearHost hostVectors).flrEnd 0 n

/-- PCIE_LINK_DOWN: a link-down, a hot reset or PERST_N. -/
def execPcieLinkDown (s : State) : Res :=
  act s fun s => ({ s.resetRange 0x900000 0xA00000 with hd := {} }).icClearHost hostVectors

/-- PCIE_LINK_UP: trained at a speed of 1 to 5 on 1, 2, 4 or 8 lanes (R448). What the host then sets in configuration space, which no
row brings, is free: a payload of 128, 256 or 512 bytes, a read request of 128 to 4,096, VF Enable (which it may clear again so, R454), the
physical function's MSI-X table. (PRESUMED, unsafe: log entry 25.) -/
def execPcieLinkUp (speed : BitVec 3) (width : BitVec 4) (s : State) : Res :=
  act s fun s => if !endpoint.speeds.contains speed.toNat || !endpoint.widths.contains width.toNat then s
    else
      let n := s.fresh
      let vfs := Config.free 20 n % 2 == 1
      let s := if vfs then s else s.vfOff
      let s := { s with hd := { s.hd with
        link := true, mps := endpoint.payloads.getD (Config.free 18 n % 3) 128, mrrs := 128 * 2 ^ (Config.free 19 n % 6), vfs := vfs
        table := some n } }.tickFresh
      let s := (s.wr F.HD_STATUS_speed speed.toNat).wr F.HD_STATUS_width width.toNat
      State.each 32 State.chanStart s

/-- VF_CFG_WRITE (R454): ignored while feature bit 10 is not accepted (R21). -/
def execVfCfgWrite (r : Requester) (i : Fin 64) (v : Word) (s : State) : Res :=
  act s fun s => s.hdWrite (r == .pf) fun s => s.when (s.feat 10) fun s =>
    let t := bits v.toNat 7 0
    if t != s.rd F.HD_VF_CFG_tenant i && s.ringsOn.any (fun r => s.ringOwner r == i.val + 1) then s.wr F.HD_STATUS_cfg_err 1
    else (s.wr F.HD_VF_CFG_tenant t i).wr F.HD_VF_CFG_en (bits v.toNat 8 8) i

/-- VEC_MAP_WRITE (R451). (DEDUCED, safe: log entry 26.) -/
def execVecMapWrite (r : Requester) (i : Fin 64) (v : Word) (s : State) : Res :=
  act s fun s => s.hdWrite (r == .pf) fun s =>
    let fn := bits v.toNat 6 0
    let second := bit v.toNat 7 && fn != 0 && (List.range 64).any (fun j =>
      j != i.val && s.on F.HD_VEC_MAP_valid j && s.rd F.HD_VEC_MAP_fn j == fn)
    if second || 64 < fn then s.wr F.HD_STATUS_cfg_err 1
    else
      let x := (s.wr F.HD_VEC_MAP_valid (bits v.toNat 7 7) i).wr F.HD_VEC_MAP_fn fn i
      if x.icExplicit (i.val + 4) && !s.icExplicit (i.val + 4) && (x.icBest (i.val + 4)).isSome then x.icMsix (i.val + 4) else x

/-- The word at offset off of virtual function f + 1's MSI-X table and pending bits (R452), as PCIe lays them out. -/
def State.vfMsixWord (s : State) (f off : Nat) : Nat :=
  let e := s.hd.vtab.get {} f
  match off with
  | 0x4000 => e.addr % 2 ^ 32
  | 0x4004 => e.addr / 2 ^ 32
  | 0x4008 => e.data
  | 0x400C => b2n e.masked
  | 0x4800 => b2n e.pend
  | _ => 0

/-- A write of virtual function f + 1's MSI-X table: a message kept pending leaves as its mask is cleared. -/
def State.vfMsixWrite (s : State) (f off v : Nat) : State :=
  let e := s.hd.vtab.get {} f
  let e' : Msix := match off with
    | 0x4000 => { e with addr := e.addr / 2 ^ 32 * 2 ^ 32 + v }
    | 0x4004 => { e with addr := v * 2 ^ 32 + e.addr % 2 ^ 32 }
    | 0x4008 => { e with data := v }
    | 0x400C => { e with masked := bit v 0 }
    | _ => e
  let send := e'.pend && !e'.masked
  let s := { s with hd := { s.hd with vtab := s.hd.vtab.set {} f { e' with pend := e'.pend && !send } } }
  if !send then s
  else match (List.range 64).find? (fun v => s.icFn (v + 4) == some (f + 1)) with
    | some v => s.emit (.msix v (f + 1) e'.addr e'.data)
    | none => s

/-- The offsets of VF BAR0 that R452 assigns. -/
def vfMapped (off : Nat) : Bool :=
  decide (off < 0x1004) || (decide (0x2000 ≤ off) && decide (off < 0x2800)) || (decide (0x4000 ≤ off) && decide (off < 0x4010))
    || (decide (0x4800 ≤ off) && decide (off < 0x4808)) || decide (0x8000 ≤ off)

/-- VF_UNMAPPED_ACCESS (R452). -/
def execVfUnmappedAccess (f : Fin 64) (off : BitVec 16) (write : Bool) (s : State) : Res :=
  act s fun s =>
    let s := if write then s else { s with rdata := 0 }
    if !s.feat 10 || vfMapped off.toNat then s else s.raise 11 (f.val + 1) 0xA005 off.toNat

end Sys2Proof.Machine
end

