-- ==== Sys2Proof/Machine/RegFind.lean ====
section
/-! DEFINITION. Finding registers by byte offset (R3, R6, R50): the block of an offset, the register and element of a slot, its
word, a word put into its fields. -/

namespace Sys2Proof.Machine

/-- The row of R50 that a byte offset in BAR0 lies in. -/
def blockAt (off : Nat) : Option Nat :=
  if off < 0x700000 then some (off / 0x100000)
  else if off < 0x780000 then some 7
  else if off < 0x7C0000 then some 8
  else if off < 0x800000 then some 9
  else if off < 0x900000 then some 10
  else if off < 0xA00000 then some 11
  else if off < 0xA80000 then some 12
  else if off < 0xB00000 then some 13
  else if off < 0xC00000 then some 14 else none

/-- The element of a register at a byte offset, and whether it is the upper slot of a pair. -/
def RegD.slotAt (r : RegD) (off : Nat) : Option (Nat × Bool) :=
  if off < r.off then none
  else
    let d := off - r.off
    let st := if r.count = 1 then 8 else r.stride
    let i := d / st
    if r.count ≤ i then none
    else if d % st = 0 then some (i, false)
    else if r.is64 && d % st == 4 then some (i, true) else none

/-- The register of a slot, its element, and whether it is the upper slot of a pair. -/
def regAt (off : Nat) : Option (RegD × Nat × Bool) :=
  match blockAt off with
  | none => none
  | some b => (regsOf b).findSome? (fun r => (r.slotAt off).map (fun x => (r, x.1, x.2)))

/-- The value of a whole register of which the reader given shows the fields. -/
def RegD.value (r : RegD) (get : Fld → Nat) : Nat := (r.flds.map (fun f => get f % 2 ^ f.w * 2 ^ f.lo)).sum

/-- The slot of a whole value. -/
def halfOf (hi : Bool) (v : Nat) : Nat := if hi then v / 2 ^ 32 else v % 2 ^ 32

/-- A whole value with one slot replaced. -/
def putHalf (hi : Bool) (v w : Nat) : Nat := if hi then w * 2 ^ 32 + v % 2 ^ 32 else v / 2 ^ 32 * 2 ^ 32 + w

/-- A field's new value where one slot of its register is written with w. -/
def RegD.fieldOf (r : RegD) (get : Fld → Nat) (hi : Bool) (w : Nat) (f : Fld) : Nat :=
  putHalf hi (r.value get) w / 2 ^ f.lo % 2 ^ f.w

/-- A field that a write of its register sets: what a snapshot carries of a register (R384). -/
def Fld.kept (f : Fld) : Bool := f.acc = .rw || f.acc = .rwg

/-- The writable fields of the slot's register take their bits of a word: a mirrored register (R384). -/
def State.putSlot (s : State) (off v : Nat) : State :=
  match regAt off with
  | none => s
  | some (r, i, hi) => r.flds.foldl (fun s f => if f.kept then s.wr f (r.fieldOf (fun g => s.rd g i) hi v f) i else s) s

/-- The word that the field store holds in the writable fields of a slot. -/
def State.slotWord (s : State) (off : Nat) : Nat :=
  match regAt off with
  | none => 0
  | some (r, i, hi) => halfOf hi (r.value (fun g => if g.kept then s.rd g i else 0))

/-- A key of the field store names a writable field of a mirrored block (R377, R384). -/
def mirroredKey (k : Nat) : Bool :=
  match regAt (k / 64) with
  | none => false
  | some (r, _, _) => decide (0x100000 ≤ k / 64) && decide (k / 64 < 0x700000) && r.flds.any (fun f => f.lo == k % 64 && f.kept)

end Sys2Proof.Machine
end

