-- ==== Sys2Proof/Machine/PrOps.lean ====
section
/-! DEFINITION. The operations of pair and cascade (R378 to R408): health, takeover, promotion, yield, the application of cairns
and snapshot records, what a snapshot sends. -/

namespace Sys2Proof.Machine

/-! ### Health (R388) -/

/-- health_to in ns: below 0x14 acts as 0x14, above 0x64 as 0x64. -/
def State.healthTo (s : State) : Nat := max 0x14 (min 0x64 (s.rd F.PR_PAIR_CFG_health_to)) * 1000

/-- The last record, while one has arrived within health_to. -/
def State.peerRec (s : State) : Option Nat :=
  match s.pr.peer with
  | none => none
  | some r => if s.pr.silent || s.healthTo ≤ (s.ts.run - s.pr.peerAt) / 2 ^ 40 then none else some r

/-- PR_PEER_HEALTH. -/
def State.peerHealth (s : State) : Nat := s.peerRec.getD 0

/-- The port of a cascade or pair that the time base follows (R353, R406). -/
def State.followPort (s : State) : Option Nat :=
  if !s.glb.modeIn then none
  else match s.glb.role with
    | .standby => some (s.rd F.PR_PAIR_CFG_pair_port)
    | .follower => match s.pr.anchor with
      | none => none
      | some a => if s.cascWorks then ((s.reachable.find? (fun e => e.1 == a)).map (·.2.port)) else none
    | _ => none

/-- Hops to the device that is followed. -/
def State.followHops (s : State) : Nat :=
  match s.glb.role, s.pr.anchor with
  | .follower, some a => ((s.reachable.find? (fun e => e.1 == a)).map (·.2.hops)).getD 1
  | _, _ => 1

/-- The time base is not slaved, or stands within 4 ns per hop. (DEDUCED, unsafe: log entry 60.) -/
def State.timeOk (s : State) : Bool :=
  !s.slaved || (match s.followPort with
    | none => false
    | some p => decide ((s.rope p).offset.natAbs ≤ 4 * s.followHops * 2 ^ 24))

/-- below_floor has not been set in the last 1 ms. -/
def State.paceOk (s : State) : Bool :=
  !s.on F.GLB_PACE_below_floor && (match s.pr.floorAt with
    | none => true
    | some t => decide (1000000 ≤ (s.ts.run - t) / 2 ^ 40))

/-- No self-test pass has failed in the last 1 s. -/
def State.selftestOk (s : State) : Bool :=
  match s.pr.testFailAt with
  | none => true
  | some t => decide (10 ^ 9 ≤ (s.ts.run - t) / 2 ^ 40)

/-- A spare engine exists; on a standby, every engine passes self-test. -/
def State.spareOk (s : State) : Bool :=
  if s.isStandby then s.ge.bistFailed.isEmpty && (List.range 17).all (fun e => !s.fenced (.engine e))
  else s.rd F.GE_ENG_STATUS_spare != 0x1F

/-- Every lane that is enabled is up, or in the electrical idle of its port. (DEDUCED, unsafe: log entry 50.) -/
def State.lanesOk (s : State) : Bool :=
  (List.range 176).all (fun l => !s.on F.SL_LANE_CTRL_en l || (s.lane l).st == .up || (s.lane l).st == .idle)

/-- The tree of even or lone port p has a yield-class fault. -/
def State.treeFailed (s : State) (p : Nat) : Bool :=
  let used := (s.treePorts p).any (fun q => s.on F.TP_CTRL_port_en q || s.on F.UB_TREE_CFG_rx_en q)
  (s.treePorts p).any (fun q => ((s.port q).framing && s.tpHas q 0) || (s.receiving q && s.treeHas q 1))
    || (used && (s.rd F.GE_QUAD_MAP_engine (p / 4) == 0x1F || (s.pr.floorHeld && s.on F.GLB_PACE_below_floor)))

def State.failedTrees (s : State) : Nat := ((List.range 64).filter (fun p => s.treeNo p == p && s.treeFailed p)).length

/-- PR_HEALTH. -/
def State.health (s : State) : Nat :=
  let cores := ((List.range 128).filter (fun c => s.fenced (.core c))).length
  let deep := (List.range 16).all (fun n => !s.fenced (.sub n))
  cores * 2 ^ 24 + s.failedTrees * 2 ^ 16 + b2n s.timeOk * 2 ^ 12 + b2n s.paceOk * 2 ^ 11 + b2n deep * 2 ^ 10
    + b2n s.spareOk * 2 ^ 9 + b2n s.lanesOk * 2 ^ 8 + b2n s.selftestOk * 2 ^ 7
    + b2n (if s.isActive then bit s.peerHealth 6 else s.pr.sync == 3) * 2 ^ 6 + b2n s.pr.yieldAt.isSome * 2 ^ 5
    + b2n s.belay.claim * 2 ^ 4 + s.glb.dev.code

/-- The health record goes to the partner, and through a cascade to the anchor (R388, R406). -/
def State.healthSend (s : State) : State :=
  let s := if s.feat 7 then s.ropeSend (s.rd F.PR_PAIR_CFG_pair_port) 0x02 [s.health] else s
  if s.cascWorks then
    let b := [0, s.cascId, s.health, 0, b2n s.qualifies]
    (s.ropeSend 0 0x40 b).ropeSend 1 0x40 b
  else s

/-! ### Yield (R393 to R395) -/

/-- A yield with its cause (2, 3 revert), at the first frame instant at least 20 µs ahead; refused unless the partner's record shows
it synchronised. The second part says that it was accepted. -/
def State.yieldNow (s : State) (cause : Nat) : State × Bool :=
  if !bit s.peerHealth 6 then (s, false)
  else
    let m := if 20 * 19440 ≤ s.cyclesLeft * 125 then s.ts.frame + 1 else s.ts.frame + 2
    ({ s with pr := { s.pr with yieldAt := some (m, cause) } }.healthSend, true)

/-- auto_yield: more failed trees than the standby, or pace_ok 0 while the standby's is 1 (R394). -/
def State.autoYield (s : State) : State :=
  match s.peerRec with
  | none => s
  | some h =>
    if s.isActive && s.glb.dev == .run && s.on F.PR_PAIR_CFG_auto_yield && s.pr.yieldAt.isNone
        && (decide (bits h 23 16 < s.failedTrees) || (!s.paceOk && bit h 11)) then (s.yieldNow 2).1
    else s

/-- The role itself, with the mirror's state begun anew; whether the device has been synchronised since it entered RUN stands (R390). -/
def State.modeRole (s : State) (role : Role) : State :=
  { s with
    glb := { s.glb with role := role }
    pr := { s.pr with
      cnSent := 0, cnApplied := none, cnHigh := 1, stream := [], waiting := [], snap := [], asked := none, stamps := [], pairLink := none
      pairBad := none, lateRun := [], lateFor := [], yieldAt := none, absent := false, protLost := false
      revertFrom := none } }

/-- The role changes between active and standby (R11, R389, R409): the event, source 5, the pair link to form anew. -/
def State.roleChange (s : State) (role : Role) (cause : Nat) : State :=
  let s := (s.setSync 0).modeRole role
  ((s.modeEvent.raise 9 0 0x8001 (role.code + cause * 2 ^ 8)).ring 5).elect

/-! ### Takeover and promotion (R389 to R391) -/

/-- The claim of a takeover begins, while BELAY_SEEN reads released (R374). -/
def State.beginTakeover (s : State) (cause : Nat) : State :=
  if s.belay.seen || s.belay.claim then s
  else { s with belay := s.belay.claims true s.ts.run, pr := { s.pr with cause := cause } }

/-- BELAY_SEEN reads released while the partner's records report that it claims (R392, R409): reported once. -/
def State.belayFaultCheck (s : State) : State :=
  let f := s.isStandby && !s.belay.seen && bit s.peerHealth 4
  let was := s.pr.belayFault
  let s := { s with pr := { s.pr with belayFault := f } }
  s.when (f && !was) (·.raise 9 0 0x8002 0)

/-- The partner has gone: its record announces a release, or records have stopped (R389). none: neither. -/
def State.partnerGone (s : State) : Option Nat :=
  match s.peerRec with
  | some h =>
    if bit h 5 then some 2 else if bits h 2 0 = 5 || bits h 2 0 = 1 then some 1 else none
  | none => if s.pr.silent then some 1 else none

/-- A standby takes over by R389, or, never synchronised since it entered RUN, reports the partner absent (R390). -/
def State.tryTakeover (s : State) : State :=
  let s := s.belayFaultCheck
  if !s.isStandby || s.glb.dev != .run || s.belay.seen || s.belay.claim then s
  else match s.partnerGone with
    | none => s
    | some c =>
      if !s.pr.everSync then
        (if s.pr.absent then s else { s with pr := { s.pr with absent := true } }.raise 9 0 0x8008 0)
      else s.beginTakeover (if s.pr.sync = 3 then c else 6)

/-! ### The application of mirrored state (R379, R380, R384) -/

def actOf (n : Nat) : ActSt :=
  match n % 8 with
  | 0 => .free | 1 => .waiting | 2 => .assigned | 3 => .operating | 4 => .lost | 5 => .disabled | 6 => .leaving | _ => .allocated

def pstOf (n : Nat) : PState :=
  match n % 4 with
  | 0 => .empty | 1 => .training | _ => .trained

/-- An allocation context from its words (R178). -/
def allocOf (old : Alloc) (ws : List Nat) : Alloc :=
  let w0 := ws.getD 0 0
  { old with
    valid := bit w0 17, shadowOk := bit w0 15, allocId := w0 % 2 ^ 14, term := ws.getD 1 0 % 2 ^ 14
    words := (List.range 6).map (fun k => ws.getD (k + 2) 0) }

/-- A mirrored context at run count run: the partner's record, with this device's own drift, which starts from 0 as the context enters
Operating from Assigned (R124, R149). Its EqD is inherited unless it stands as this
device measured it (R385). -/
def mirrorCtx (run : Nat) (old : Ctx) (st : ActSt) (port onu : Nat) (sn : Option Nat) (eqd : Int) (corr : Option Int) : Ctx :=
  let same := old.eqd == eqd || (old.st == .operating && st == .operating && old.onu == onu)
  if st == .free then { frees := old.frees }
  else { old with
    st := st, port := port, onu := onu, sn := sn, eqd := eqd, corr := corr, since := if old.st == st then old.since else run
    c := if old.st == .assigned && st == .operating then 0 else old.c
    inherited := if same && old.st != .free then old.inherited else true }

/-- One mirrored change applied. -/
def State.applyChange (s : State) : StateChange → State
  | .context t st p o sn eqd corr =>
    s.setCtx t (mirrorCtx s.ts.run (s.ctx t) (actOf st.toNat) p.val o.toNat (sn.map (·.toNat)) eqd corr)
  | .onuHold p o u => { s with
      onuHolds := (p.val, o.toNat, u.toNat) :: s.onuHolds.filter (fun h => !(h.1 == p.val && h.2.1 == o.toNat)) }
  | .allocHold a id p u => { s with
      allocHolds := (a.toNat, id.toNat, p.val, u.toNat) :: s.allocHolds.filter (fun h => h.1 != a.toNat) }
  | .allocContext a ws => s.setAlloc a.toNat (allocOf (s.alloc a.toNat) (ws.map (·.toNat)))
  | .keySwitched t slot =>
    let k := s.keyCtx t
    s.setKeyCtx t { k with active := slot, pend := none, grace := some (!slot, s.ts.frame) }
  | .preset t n => s.setPreset t { s.preset t with peer := pstOf n.toNat }

/-- One absolute cairn applied. A map that comes after its frame was treated as late is not used for it (R381). -/
def State.applyAbsolute (s : State) : Cairn → State
  | .map p f m =>
    if s.pr.lateFor.get 0 p == f + 1 then s
    else
      let x := s.port p
      s.setPort p { x with maps := x.maps.set none f (some m) }
  | .ploam p f sfc ms =>
    let x := s.port p
    s.setPort p { x with mirSfc := x.mirSfc.set 0 f (sfc + 1), mirPloam := x.mirPloam.set [] f ms }
  | .keep p ws => { s with ge := { s.ge with
      keep := ws.zipIdx.foldl (fun t e => t.set 0 (p.val * 512 + e.2 % 512) e.1.toNat) s.ge.keep } }
  | .change c => s.applyChange c
  | .command _ => s

/-- a lies after b, by signed difference on 32 bits. -/
def cnAfter (a b : Nat) : Bool := decide (0 < signed 32 (a + (2 ^ 32 - b % 2 ^ 32)))

/-- The number of a live cairn with its turns of 2^32 counted in: the nearest to that of the last one applied. (DEDUCED, unsafe: log
entry 47.) -/
def State.cnLong (s : State) (cn : Nat) : Nat :=
  match s.pr.cnApplied with
  | none => (2 ^ 32 + signed 32 cn).toNat
  | some n => (s.pr.cnHigh * 2 ^ 32 + n + signed 32 (cn + (2 ^ 32 - n % 2 ^ 32))).toNat

/-- The highest number that a cn can stand for, not above top: a record never comes before its object's last change. -/
def cnUpTo (top cn : Nat) : Nat := top - (top + 2 ^ 32 - cn % 2 ^ 32) % 2 ^ 32

/-- The number of the last live cairn that has come, or, where none has, the cn itself. -/
def State.cnTop (s : State) (cn : Nat) : Nat :=
  match s.pr.waiting.getLast?, s.pr.cnApplied with
  | some e, _ => s.cnLong e.1
  | none, some n => s.pr.cnHigh * 2 ^ 32 + n
  | none, none => s.cnLong cn

/-- An absolute cairn or record applied unless its object holds a value stamped with an equal or higher cn (R379), both with their turns
counted in. -/
def State.stamped (s : State) (cn obj : Nat) (f : State → State) : State :=
  if obj != 0 && decide (cn + 1 ≤ s.pr.stamps.get 0 obj) then s
  else
    let s := f s
    if obj = 0 then s else { s with pr := { s.pr with stamps := s.pr.stamps.set 0 obj (cn + 1) } }

/-- The objects of the snapshot records that are not changes. -/
def recObj : SnapRec → Nat
  | .change c => changeObj c
  | .map p f m => cairnObj (.map p f.toNat m)
  | .keep p ws => cairnObj (.keep p ws)
  | .register a _ => 10 + a.toNat * 16
  | .image g a _ => 11 + (b2n g * 2 ^ 20 + a) * 16
  | .key t b _ => 12 + (t.val * 2 + b2n b) * 16
  | .qsWord k _ => 13 + k * 16
  | .clWord k _ => 14 + k * 16
  | .exact i .. => 15 + i * 16
  | .ternary i b .. => 16 + (i * 2 + b2n b) * 32
  | .entry g n _ => 32 + (n * 2 + b2n g) * 512
  | .profile k _ => 96 + k * 512
  | .gateList l .. => 160 + l * 512
  | .generation o .. => 224 + objNo o * 512
  | .owner t .. => 256 + t.val * 512
  | .keyPending t .. => 288 + t.val * 512
  | .groupKey p b _ => 320 + (p.val * 2 + b2n b) * 512
  | .staged g a _ => 352 + (b2n g * 2 ^ 20 + a) * 512

/-- One snapshot record applied. -/
def State.applyRec (s : State) : SnapRec → State
  | .change c => s.applyChange c
  | .map p f m => s.applyAbsolute (.map p f.toNat m)
  | .keep p ws => s.applyAbsolute (.keep p ws)
  | .register a v => s.putSlot (a.toNat * 4) v.toNat
  | .image true a w =>
    if s.ge.cur then { s with ge := { s.ge with bank1 := s.ge.bank1.set 0 a w.toNat, len := max (a + 1) s.ge.len } }
    else { s with ge := { s.ge with bank0 := s.ge.bank0.set 0 a w.toNat, len := max (a + 1) s.ge.len } }
  | .image false a w =>
    let g := { s.pc.cur with len := max (a + 1) s.pc.cur.len }
    { s with pc := { s.pc with cur := g } }.storeWord g.bank a w.toNat
  | .entry true n e => { s with ge := { s.ge with entries := s.ge.entries.set 0 n e } }
  | .entry false n e => { s with pc := { s.pc with cur := { s.pc.cur with entries := s.pc.cur.entries.set 0 n e } } }
  | .profile k v => { s with qs := { s.qs with profiles := s.qs.profiles.set 0 k v } }
  | .gateList l cy ba ga es st =>
    { s with qs := { s.qs with gates := s.qs.gates.set {} l { cur := ⟨cy, ba, ga, es⟩, start := st, started := st.isSome } } }
  | .key t b k => s.setKeyCtx t ((s.keyCtx t).setSlot b ⟨true, k.toNat⟩)
  | .qsWord k v => { s with qs := { s.qs with tab := s.qs.tab.set 0 k v } }
  | .clWord k v => { s with rows := s.rows.set 0 k v }
  | .exact i tbl key ten a1 a2 ad de =>
    { s with cl := { s.cl with slots := s.cl.slots.set none i (some ⟨tbl, key, ten, a1, a2, ad, de⟩) } }
  | .ternary i b valid ten key mask a1 a2 =>
    let x := s.cl.tern.get {} i
    let y : TBank := ⟨valid, ten, key, mask, a1, a2⟩
    { s with cl := { s.cl with tern := s.cl.tern.set {} i (if b == x.cur then { x with bank0 := y } else { x with bank1 := y }) } }
  | .generation o g st => s.setGen o { s.gen o with cur := g, staged := st }
  | .owner t n a b => s.setCtx t { s.ctx t with tenant := n, prog0 := a, prog1 := b }
  | .keyPending t p slot sfc => s.setKeyCtx t { s.keyCtx t with pend := some (p.val, slot, sfc) }
  | .groupKey p b k =>
    let x := s.port p
    s.setPort p (if b then { x with group1 := ⟨true, k.toNat⟩ } else { x with group0 := ⟨true, k.toNat⟩ })
  | .staged true a w =>
    if s.ge.cur then { s with ge := { s.ge with bank0 := s.ge.bank0.set 0 a w.toNat } }
    else { s with ge := { s.ge with bank1 := s.ge.bank1.set 0 a w.toNat } }
  | .staged false a w => s.storeWord (!s.pc.cur.bank) a w.toNat

/-! ### What a snapshot sends (R384) -/

/-- What the registers of a context's tenant and its program words hold (R384). -/
def State.ownerRecords (s : State) : List SnapRec :=
  s.taken.map (fun t => .owner (Fin.ofNat 16384 t) (s.ctx t).tenant (s.ctx t).prog0 (s.ctx t).prog1)

/-- The images staged for the next commit: the words of the banks that are not in force (R384). -/
def State.stagedRecords (s : State) : List SnapRec :=
  (if s.ge.cur then s.ge.bank0 else s.ge.bank1).map (fun e => .staged true e.1 (BitVec.ofNat 36 e.2))
  ++ (if s.pc.cur.bank then s.pc.bank0 else s.pc.bank1).map (fun e => .staged false e.1 (BitVec.ofNat 36 e.2))

/-- A slot's record, where it holds a key. -/
def slotRecord (x : KeySlot) (f : BitVec 128 → SnapRec) : List SnapRec := if x.valid then [f (BitVec.ofNat 128 x.key)] else []

/-- The key slots of contexts and ports, the active slots, the switches that wait for their frame (R384). -/
def State.keyRecords (s : State) : List SnapRec :=
  s.keys.flatMap (fun e =>
    slotRecord e.2.slot0 (.key (Fin.ofNat 16384 e.1) false) ++ slotRecord e.2.slot1 (.key (Fin.ofNat 16384 e.1) true)
    ++ [.change (.keySwitched (Fin.ofNat 16384 e.1) e.2.active)]
    ++ (match e.2.pend with
      | some (p, slot, sfc) => [.keyPending (Fin.ofNat 16384 e.1) (Fin.ofNat 64 p) slot sfc]
      | none => []))
  ++ s.tp.flatMap (fun e => slotRecord e.2.group0 (.groupKey (Fin.ofNat 64 e.1) false) ++ slotRecord e.2.group1 (.groupKey (Fin.ofNat 64 e.1) true))

/-- The records of terminals, allocations, holds, map sequences and keep regions (R384). -/
def State.terminalRecords (s : State) : List SnapRec :=
  List.flatten [
    s.taken.map (fun t => .change (s.ctxRecord t)),
    s.ownerRecords,
    s.onuHolds.map (fun h => .change (.onuHold (Fin.ofNat 64 h.1) (BitVec.ofNat 10 h.2.1) (BitVec.ofNat 32 h.2.2))),
    s.allocHolds.map (fun h => .change (.allocHold (BitVec.ofNat 16 h.1) (BitVec.ofNat 14 h.2.1) (Fin.ofNat 64 h.2.2.1)
      (BitVec.ofNat 32 h.2.2.2))),
    (s.allocs.filter (·.2.valid)).map (fun e => .change (.allocContext (BitVec.ofNat 16 e.1) (s.allocWords e.1))),
    s.tp.flatMap (fun e => e.2.maps.filterMap (fun m => m.2.map (.map (Fin.ofNat 64 e.1) (BitVec.ofNat 32 m.1)))),
    ((List.range 64).filter (fun p => s.ge.keep.any (fun e => e.1 / 512 == p))).map (fun p =>
      .keep (Fin.ofNat 64 p) ((List.range 512).map (fun i => BitVec.ofNat 18 (s.ge.keep.get 0 (p * 512 + i)))))]

/-- The records of images, keys and tables (R384). -/
def State.tableRecords (s : State) : List SnapRec :=
  List.flatten [
    (if s.ge.cur then s.ge.bank1 else s.ge.bank0).map (fun e => .image true e.1 (BitVec.ofNat 36 e.2)),
    (if s.pc.cur.bank then s.pc.bank1 else s.pc.bank0).map (fun e => .image false e.1 (BitVec.ofNat 36 e.2)),
    s.stagedRecords,
    s.keyRecords,
    s.qs.tab.map (fun e => .qsWord e.1 e.2),
    s.rows.map (fun e => .clWord e.1 e.2),
    s.cl.slots.filterMap (fun e => e.2.map (fun x => .exact e.1 x.tbl x.key x.tenant x.act1 x.act2 x.added x.deleted)),
    s.cl.tern.flatMap (fun e =>
      let f := fun (b : Bool) (x : TBank) => SnapRec.ternary e.1 b x.valid x.tenant x.key x.mask x.act1 x.act2
      [f false (if e.2.cur then e.2.bank1 else e.2.bank0), f true (if e.2.cur then e.2.bank0 else e.2.bank1)]),
    s.ge.entries.map (fun e => .entry true e.1 e.2),
    s.pc.cur.entries.map (fun e => .entry false e.1 e.2),
    s.qs.profiles.map (fun e => .profile e.1 e.2),
    s.qs.gates.map (fun e => .gateList e.1 e.2.cur.cycle e.2.cur.base e.2.cur.gap e.2.cur.entries (if e.2.started then e.2.start else none))]

/-- The records of the mirrored registers, each word once (R384). -/
def State.registerRecords (s : State) : List SnapRec :=
  (((s.rf.filter (fun e => mirroredKey e.1)).map (fun e => e.1 / 64)).dedup).flatMap (fun a =>
    ((match regAt a with
      | some (d, _, _) => if d.is64 then [a, a + 4] else [a]
      | none => []) : List Nat).map (fun b => .register (BitVec.ofNat 22 (b / 4)) (BitVec.ofNat 32 (s.slotWord b))))

/-- The mirrored state of this device as snapshot records: contexts, holds, allocations, maps, keep regions, images in force and staged, keys,
tables, generations, registers. -/
def State.snapshot (s : State) : List SnapRec :=
  List.flatten [
    s.terminalRecords,
    s.tableRecords,
    [GenObj.parse, .rules, .grant, .gates, .shapers].map (fun o => .generation o (s.gen o).cur (s.gen o).staged),
    s.registerRecords]

/-- The cn of the last change of a record's object (R384): of the last cairn that carried it, else of the last command cairn, which is
no earlier; the number before 0 where no cairn of this stream has. (DEDUCED, unsafe: log entry 47.) -/
def State.recCn (s : State) (r : SnapRec) : Nat :=
  match s.pr.stamps.get 0 (recObj r), s.pr.stamps.get 0 0 with
  | 0, 0 => 2 ^ 32 - 1
  | 0, n + 1 => n
  | n + 1, _ => n

/-- A snapshot record as it goes over rope port p. -/
def State.recordOut (s : State) (p : Nat) (r : SnapRec) : State :=
  let cn := s.recCn r
  (s.emit (.snap cn s.evu.seq r)).ropeFrames p (messageSymbols 0x20 (Config.recordBody cn s.evu.seq r))

/-- A snapshot of all mirrored state goes to the standby: each record with the cn of its object's last change, then the end. -/
def State.sendSnapshot (s : State) (p : Nat) : State :=
  let cn := (s.pr.cnSent + (2 ^ 32 - 1)) % 2 ^ 32
  let s := s.wr F.PR_PAIR_STATUS_cairn_gen (s.rd F.PR_PAIR_STATUS_cairn_gen + 1)
  let s := s.snapshot.foldl (fun s r => s.recordOut p r) s
  s.ropeSend p 0x21 [cn]

/-- The standby asks for a snapshot: its own mirror of it starts empty (R383). -/
def State.askSnapshot (s : State) : State :=
  match s.pr.pairLink with
  | none => s
  | some p =>
    let s := { s with pr := { s.pr with snap := [], waiting := [], asked := none } }.setSync 1
    s.ropeSend p 0x30 [1]

/-- Synchronisation is lost (R380, R381): a snapshot is asked for. -/
def State.syncLost (s : State) : State := if s.isStandby && s.pr.sync != 0 then s.askSnapshot else s

/-- A standby is synchronised (R382): it has applied a snapshot and every cairn since, holds the map for the frame in transmission
on every tree it frames, and waits for no cairn. -/
def State.syncCheck (s : State) : State :=
  if s.isStandby && (s.pr.sync == 2 || s.pr.sync == 4) && s.pr.waiting.isEmpty && s.pr.asked.isNone
      && s.tp.all (fun e => !e.2.framing || !e.2.heldMap) then s.setSync 3
  else s

/-! ### The cairn area (R330, R335, R338, R346, R384) -/

/-- The staged records still to be written, as far as deep memory serves them now: record i of a snapshot is line i of the cairn area.
(DESIGN CHOICE, safe: log entry 97.) -/
def State.snapResume (s : State) : State :=
  s.pr.snap.zipIdx.foldl (fun s e =>
    let l := cairnLine + e.2
    if !e.1.late || s.deepDown || !s.deepTurn .record (s.lineHome l).1 then s
    else { s with pr := { s.pr with snap := s.pr.snap.modify e.2 (fun x => { x with late := false }) } }.lineWritten l) s

/-- The staged records read back: the second part says that one of them returned Error. -/
def State.snapRead (s : State) : State × Bool :=
  if s.feat 11 then State.readAll State.regionRead s ((List.range s.pr.snap.length).map (· + cairnLine)) [] else (s, false)

end Sys2Proof.Machine
end

