-- ==== Sys2Proof/Machine/Imhus.lean ====
section
/-! DEFINITION. Service levels and the Imhus firmware (R410 to R427): the mailbox and its commands, templates and bindings,
provisioning, key rotation, alarms. -/

namespace Sys2Proof.Machine

/-- The state that a command leaves. -/
def State.doing (s : State) (f : State → Res) : State :=
  match f s with
  | .next t => t
  | _ => s

/-! ### When Imhus works (R412, R414, R416) -/

/-- Imhus is loaded and no guide core has halted. -/
def State.imhRuns (s : State) : Bool := s.imh.loaded && s.imh.halted.isEmpty

/-- The level that the mailbox goes by: the one in force, else the one that MODE asks for. -/
def State.mbxLevel (s : State) : Nat := if s.glb.modeIn then s.glb.level else s.rd F.GLB_MODE_mode / 4

/-- Template and binding records act (R416). -/
def State.recordsAct (s : State) : Bool := s.imhRuns && s.live && s.glb.level != 0 && !s.isStandby

/-- Imhus decides what R410 gives it: a mode of level 1 or 2 is in force. -/
def State.imhDecides (s : State) : Bool := s.imhRuns && s.live && s.glb.level != 0

/-! ### The mailbox (R413, R414) -/

/-- Payload byte k of the request. -/
def State.mbxByte (s : State) (k : Nat) : Nat := s.rd F.GLB_MBX_REQ_word (1 + k / 4) / 2 ^ (8 * (k % 4)) % 256

/-- n payload bytes from k on, little-endian. -/
def State.mbxLe (s : State) (k n : Nat) : Nat := ((List.range n).map (fun i => s.mbxByte (k + i) * 256 ^ i)).sum

def State.mbxHead (s : State) : Nat := s.rd F.GLB_MBX_REQ_word 0
def State.mbxLen (s : State) : Nat := min 252 (bits s.mbxHead 23 16)
def State.mbxTag (s : State) : Nat := bits s.mbxHead 15 8
def State.mbxCode (s : State) : Nat := bits s.mbxHead 7 0
def State.mbxPayload (s : State) : List Nat := (List.range s.mbxLen).map s.mbxByte

/-- A serial number at payload byte k: vendor_id, then vssn, each a little-endian field of 4 bytes. -/
def State.mbxSerial (s : State) (k : Nat) : Nat := s.mbxLe k 4 * 2 ^ 32 + s.mbxLe (k + 4) 4

/-- The codes of the table of R414. -/
def mbxCodes : List Nat := [1, 2, 3, 0x10, 0x11, 0x12, 0x13, 0x14, 0x20, 0x30, 0x31, 0x40, 0x41, 0x50, 0x51, 0x70]

/-- A mailbox command of a code: Imhus takes it once, and its reply waits for MAILBOX_REPLY. levels are those that serve it; safe
tells that SAFE does; block that it acts on a block, so that a standby refuses it (R415). f answers the result and the reply's
contents. -/
def State.mbx (s : State) (code : Nat) (levels : List Nat) (safe block : Bool) (f : State → State × Nat × List Nat) : State :=
  if !s.on F.GLB_MBX_STATUS_busy || s.imh.cmd.isSome || s.mbxCode != code || !s.imhRuns then s
  else
    let (s, res, l) :=
      if !levels.contains s.mbxLevel then (s, 5, [])
      else if (s.glb.dev == .safe && !safe) || (s.isStandby && block) then (s, 6, [])
      else f s
    { s with imh := { s.imh with cmd := some (res :: (if l.isEmpty then [] else Config.mbxReply code l)) } }

/-- A command whose final result comes later takes a slot, or is refused with 7 where 8 are pending. -/
def State.mbxPend (s : State) (code : Nat) (f : State → Nat → State) : State × Nat × List Nat :=
  match (List.range 8).find? (fun i => (s.imh.pend.get none i).isNone) with
  | none => (s, 7, [])
  | some i => (f { s with imh := { s.imh with pend := s.imh.pend.set none i (some (s.mbxTag, code)) } } i, 2, [])

/-- Event 0x0F01 or 0x0F02 with tag and result, and source 2 (R413, R471). -/
def State.mbxEvent (s : State) (code tag res : Nat) : State := (s.raise 0 0 code (tag + res * 2 ^ 8)).ring 2

/-- MAILBOX_REPLY: the reply of the command Imhus has taken; 3 for a code it does not know. -/
def execMailboxReply (s : State) : Res :=
  act s fun s =>
    let r := match s.imh.cmd with
      | some l => some l
      | none => if mbxCodes.contains s.mbxCode || !s.imhRuns then none else some [3]
    match r with
    | none => s
    | some l =>
      if !s.on F.GLB_MBX_STATUS_busy then s
      else
        let res := l.headD 0
        let bs := (l.drop 1).take 252
        let tag := s.mbxTag
        let s := { s with imh := { s.imh with cmd := none } }.wr F.GLB_MBX_STATUS_busy 0
        let s := (s.wr F.GLB_MBX_STATUS_result res).wr F.GLB_MBX_STATUS_tag tag
        let s := s.wr F.GLB_MBX_RSP_word (bs.length * 2 ^ 16 + tag * 2 ^ 8 + s.mbxCode) 0
        let s := (List.range ((bs.length + 3) / 4)).foldl (fun s w =>
          s.wr F.GLB_MBX_RSP_word (((List.range 4).map (fun i => bs.getD (w * 4 + i) 0 % 256 * 256 ^ i)).sum) (w + 1)) s
        s.mbxEvent 0x0F01 tag res

/-! ### Stores (R415, R417, R418) -/

def State.template (s : State) (i : Nat) : Template := s.imh.templates.get {} i
def State.setTemplate (s : State) (i : Nat) (x : Template) : State :=
  { s with imh := { s.imh with templates := s.imh.templates.set {} i x } }

def State.templateCap (s : State) : Nat := if s.feat 11 then 1024 else 64
def State.bindingCap (s : State) : Nat := if s.feat 11 then 16384 else 2048

/-- A chunk at an offset of what has come so far; the last one ends the body. None beyond its end or past 8 KiB.
(DEDUCED, unsafe: log entry 56.) -/
def putChunk (body : List Nat) (off : Nat) (chunk : List Nat) (last : Bool) : Option (List Nat) :=
  if body.length < off || 8192 < off + chunk.length then none
  else some (body.take off ++ chunk ++ if last then [] else body.drop (off + chunk.length))

/-- VERSION: the firmware's version is not given by the spec. (DESIGN CHOICE, safe: log entry 55.) -/
def execVersion (s : State) : Res :=
  act s fun s => s.mbx 0x01 [0, 1, 2] true false fun s =>
    (s.tickFresh, 0, [Config.free 8 s.fresh, s.imh.templates.length, s.imh.bindings.length])

/-- STATUS: level, owner of key management (1 Imhus), time lock, alarm count. -/
def execStatus (s : State) : Res :=
  act s fun s => s.mbx 0x02 [0, 1, 2] true false fun s =>
    (s.tickFresh, 0, [s.mbxLevel, b2n (s.live && s.glb.level != 0), Config.free 6 s.fresh, s.imh.alarms.length])

/-- DIGEST, over both stores as they stand, staged versions too (R415). -/
def execDigest (s : State) : Res :=
  act s fun s => s.mbx 0x03 [0, 1, 2] false false fun s =>
    let ts := s.imh.templates.flatMap (fun e =>
      e.1 :: b2n e.2.whole :: e.2.body.length :: e.2.body ++ (match e.2.staged with
        | none => [0]
        | some b => 1 :: b2n e.2.ready :: b.length :: b))
    let bs := s.imh.bindings.flatMap (fun b => [b.sn, b.tree, b.template, b.tenant, b.onu, b2n b.directed])
    (s, 0, [crc32c (Config.storeBytes 0 ts), crc32c (Config.storeBytes 1 bs)])

/-- TEMPLATE_PUT: a new template, or a new version of one in use. -/
def execTemplatePut (s : State) : Res :=
  act s fun s => s.mbx 0x10 [0, 1, 2] false false fun s =>
    let id := s.mbxLe 0 2
    let off := s.mbxLe 2 2 % 2 ^ 15
    let last := bit (s.mbxLe 2 2) 15
    let x := s.template id
    let old := if x.whole then x.staged.getD [] else x.body
    if s.mbxLen < 4 then (s, 4, [])
    else if x == {} && decide (s.templateCap ≤ s.imh.templates.length) then (s, 7, [])
    else match putChunk old off (s.mbxPayload.drop 4) last with
      | none => (s, 4, [])
      | some b =>
        if x.whole then (s.setTemplate id { x with staged := some b, ready := last }, 0, [])
        else (s.setTemplate id { x with body := b, whole := last }, 0, [])

/-- TEMPLATE_DEL. -/
def execTemplateDel (s : State) : Res :=
  act s fun s => s.mbx 0x11 [0, 1, 2] false false fun s =>
    let id := s.mbxLe 0 2
    if s.mbxLen < 2 then (s, 4, [])
    else if s.template id == {} then (s, 8, [])
    else if s.imh.bindings.any (fun b => b.template == id) then (s, 6, [])
    else (s.setTemplate id {}, 0, [])

/-- Imhus allocates a context for a binding, binds its serial number, and, directed, sets dir_en on its tree (R416). The second
part is the context, none where the pool or the ONU-ID refuses. -/
def State.imhBind (s : State) (b : Binding) : State × Option Nat :=
  let s := ((s.wr F.GE_CTX_ARG_port b.tree).wr F.GE_CTX_ARG_onu_id b.onu).wr F.GE_CTX_TENANT_tenant b.tenant
  let s := (s.wr F.GE_CTX_SN_vendor_id (b.sn / 2 ^ 32)).wr F.GE_CTX_SN_vssn (b.sn % 2 ^ 32)
  let s := s.doing (execContextAllocate .guide (b.onu == 0xFFFF))
  if s.rd F.GE_CTX_STATUS_result != 0 then (s, none)
  else
    let t := s.rd F.GE_CTX_STATUS_term
    let s := s.doing (execContextBind .guide)
    let n := s.treeNo b.tree
    if b.directed && !s.on F.GE_DISC_CFG_dir_en n then
      let s := s.wr F.GE_DISC_CFG_dir_en 1 n
      (s.mirror .guide [(F.GE_DISC_CFG_dir_en.at_ n, s.slotWord (F.GE_DISC_CFG_dir_en.at_ n))] none 0, some t)
    else (s, some t)

/-- BIND. -/
def execBind (s : State) : Res :=
  act s fun s => s.mbx 0x12 [0, 1, 2] false false fun s =>
    let b : Binding := {
      sn := s.mbxSerial 0, tree := s.mbxLe 8 1, template := s.mbxLe 9 2, tenant := s.mbxLe 11 1, onu := s.mbxLe 12 2, directed := bit (s.mbxLe 14 1) 0 }
    if s.mbxLen < 15 || 64 ≤ b.tree || (1023 ≤ b.onu && b.onu != 0xFFFF) then (s, 4, [])
    else if s.template b.template == {} then (s, 8, [])
    else if s.imh.bindings.any (fun c => c.sn == b.sn) then (s, 6, [])
    else if s.bindingCap ≤ s.imh.bindings.length then (s, 7, [])
    else
      let s := { s with imh := { s.imh with bindings := s.imh.bindings ++ [b] } }
      if s.recordsAct && b.directed && (s.boundTo b.sn).isNone then
        (match s.imhBind b with
          | (s, some _) => (s, 0, [])
          | (s, none) => (s, 7, []))
      else (s, 0, [])

/-- UNBIND: where records act, the terminal is freed. -/
def execUnbind (s : State) : Res :=
  act s fun s => s.mbx 0x13 [0, 1, 2] false false fun s =>
    let sn := s.mbxSerial 0
    if s.mbxLen < 8 then (s, 4, [])
    else if !s.imh.bindings.any (fun b => b.sn == sn) then (s, 8, [])
    else
      let s := { s with imh := { s.imh with bindings := s.imh.bindings.filter (fun b => b.sn != sn) } }
      match s.boundTo sn with
      | some t => if s.recordsAct then ((s.wr F.GE_CTX_ARG_term t).doing (execContextFree .guide), 0, []) else (s, 0, [])
      | none => (s, 0, [])

/-- The terminals of a list have their records installed, those that wait already once more at the end. -/
def State.installDue (s : State) (ts : List Nat) : State :=
  { s with imh := { s.imh with flowsDue := s.imh.flowsDue.filter (!ts.contains ·) ++ ts } }

/-- A staged version that has come whole takes its place, and every terminal that holds the template's records takes it, in batches
(R418). -/
def State.applyTemplate (s : State) (id : Nat) : State :=
  let x := s.template id
  let body := if x.ready then x.staged.getD x.body else x.body
  let s := s.when x.ready (·.setTemplate id { x with body := body, staged := none, ready := false })
  let ts := (s.imh.terms.filter (fun e => e.2.template == id && e.2.held)).map (·.1)
  { s with imh := { s.imh with
    terms := s.imh.terms.mapAll {} (fun t o => if ts.contains t then { o with body := body, again := true } else o) } }.installDue ts

/-- APPLY: its terminals are re-provisioned, in batches; the final result comes later (R418). -/
def execApply (s : State) : Res :=
  act s fun s => s.mbx 0x14 [1, 2] false true fun s =>
    let id := s.mbxLe 0 2
    if s.mbxLen < 2 then (s, 4, [])
    else if s.template id == {} then (s, 8, [])
    else s.mbxPend 0x14 (fun s i => { s with imh := { s.imh with apply := s.imh.apply.set 0 i (id + 1) } }.applyTemplate id)

/-- TERM_QUERY: context, state, template, OMCI state. -/
def execTermQuery (s : State) : Res :=
  act s fun s => s.mbx 0x20 [1, 2] false false fun s =>
    if s.mbxLen < 8 then (s, 4, [])
    else match s.boundTo (s.mbxSerial 0) with
      | none => (s, 8, [])
      | some t =>
        let o := s.imh.terms.get {} t
        (s, 0, [t, (s.ctx t).st.code, o.template, o.tries, b2n o.done, b2n o.alarm])

def AlarmKind.code : AlarmKind → Nat
  | .transmitPath => 0 | .treeDown => 1 | .branchCut => 2 | .powerLoss => 3 | .terminalLost => 4 | .protection => 5 | .time => 6
  | .omci => 7 | .misWiring => 8 | .overflow => 9

def AlarmScope.code : AlarmScope → Nat
  | .device => 0 | .tree p => 1 + p.val * 4 | .term t => 2 + t.val * 4

/-- An alarm placed by its root's EVSEQ. -/
def placeAlarm (a : Alarm) : List Alarm → List Alarm
  | [] => [a]
  | b :: t => if a.root < b.root then a :: b :: t else b :: placeAlarm a t

/-- ALARM_LIST: up to 12 active alarms from the start index, in the order of their roots, each with no EVSEQ of its clearing yet. -/
def execAlarmList (s : State) : Res :=
  act s fun s => s.mbx 0x30 [0, 1, 2] true false fun s =>
    if s.mbxLen < 2 then (s, 4, [])
    else
      let l := (((s.imh.alarms ++ s.imh.overflow.toList).foldl (fun t a => placeAlarm a t) []).drop (s.mbxLe 0 2)).take 12
      (s, 0, l.length :: l.flatMap (fun a =>
        [a.id, Sys2Proof.Machine.AlarmKind.code a.kind, Sys2Proof.Machine.AlarmScope.code a.scope, a.severity, a.root, 0]))

/-- ALARM_CFG: the soak times. -/
def execAlarmCfg (s : State) : Res :=
  act s fun s => s.mbx 0x31 [1, 2] false false fun s =>
    ({ s with imh := { s.imh with
      raiseSoak := Config.mbxArg 0x31 0 s.mbxPayload, clearSoak := Config.mbxArg 0x31 1 s.mbxPayload } }, 0, [])

/-- PAIR_POLICY (R424): the policy kept; PR_PAIR_CFG takes it where its register is there (R21, R52). -/
def execPairPolicy (s : State) : Res :=
  act s fun s => s.mbx 0x41 [1, 2] false false fun s =>
    let a := fun i => Config.mbxArg 0x41 i s.mbxPayload
    let s := s.when (s.feat 7 && !s.blkDown 9) fun s =>
      ((s.wr F.PR_PAIR_CFG_auto_yield (a 0)).wr F.PR_PAIR_CFG_revertive (a 1)).wr F.PR_PAIR_CFG_revert_hold (a 2)
    ({ s with imh := { s.imh with takeUnsynced := a 3 % 2 == 1 } }, 0, [])

/-- TIME_STEER (R351, R354): an increment, then a step; 4 where either is ignored, whose error flag is then set. -/
def execTimeSteer (s : State) : Res :=
  act s fun s => s.mbx 0x50 [1] false false fun s =>
    if s.mbxLen < 13 then (s, 4, [])
    else if s.slaved then (s, 6, [])
    else
      let n := s.mbxLe 0 6
      let ok := incrLegal n
      let s := s.wr F.TS_INCR_incr (s.rd F.TS_INCR_incr / 2 ^ 32 * 2 ^ 32 + s.mbxLe 0 4)
      let s := s.doing (execTsIncrWrite .guide (BitVec.ofNat 32 (s.mbxLe 4 2)))
      let s := s.wr F.TS_ADJ_frac (s.mbxLe 10 3)
      if s.mbxLe 6 7 = 0 then (s, if ok then 0 else 4, [])
      else
        let ok := ok && s.stepLegal (s.mbxLe 6 4)
        (s.doing (execTsAdjWrite .guide (BitVec.ofNat 32 (s.mbxLe 6 4))), if ok then 0 else 4, [])

/-- PTP_CFG (R426). -/
def execPtpCfg (s : State) : Res :=
  act s fun s => s.mbx 0x51 [2] false false fun s => ({ s with imh := { s.imh with ptp := some s.mbxPayload } }, 0, [])

/-! ### Provisioning (R416, R418 to R420, R425) -/

/-- The binding of a context. -/
def State.bindingOf (s : State) (t : Nat) : Option Binding :=
  match (s.ctx t).sn with
  | some sn => s.imh.bindings.find? (fun b => b.sn == sn)
  | none => none

def State.omci (s : State) (t : Nat) : Omci := s.imh.terms.get {} t
/-- The record of terminal t in the firmware area, and its line (R335). -/
def State.setOmci (s : State) (t : Nat) (x : Omci) : State :=
  { s with imh := { s.imh with terms := s.imh.terms.set {} t x } }.when (s.feat 11 && !s.deepDown) (·.lineWritten (firmwareLine + t))

/-! ### OMCI (R420, R421) -/

/-- The managed entities that Imhus serves (R421). -/
def omciClasses : List Nat := [2, 5, 6, 7, 11, 45, 47, 84, 131, 134, 171, 256, 257, 262, 263, 266, 268, 273, 274, 277, 278, 280, 281, 309,
  310, 332, 341, 426]

/-- The requests of a list whose managed entities Imhus serves; other classes are left to the terminal's defaults (R421). -/
def omciServed (l : List OmciReq) : List OmciReq := l.filter (fun q => omciClasses.contains q.cls)

/-- The request that resets a terminal's MIB, and the one that asks for its MIB data sync (R420, R425). -/
def mibReset : OmciReq := ⟨.mibReset, 2, 0, []⟩
def mibCheck : OmciReq := ⟨.get, 2, 0, []⟩

/-- The OMCI part of a terminal's provisioning: MIB reset, then the instances of its template (R420). -/
def omciSequence (body : List Nat) (t : Nat) : List OmciReq :=
  mibReset :: (if body.isEmpty then [] else omciServed (Config.omciInstances body t))

/-- The first request not yet answered goes over terminal t's OMCC as its first try; one is outstanding at a time (R421). -/
def State.omciAsk (s : State) (t : Nat) (x : Omci) : State :=
  match x.todo with
  | [] => s.setOmci t { x with tries := 0 }
  | q :: _ => (s.setOmci t { x with tries := 1, at_ := s.ts.run }).emit (.omci t 1 q)

/-- The whole sequence of terminal t from its start (R420). -/
def State.omciBegin (s : State) (t : Nat) (x : Omci) : State :=
  let l := omciSequence x.body t
  s.omciAsk t { x with todo := l, whole := l }

/-- The steps that come after the OMCI part end: the XGEM ports and queues are enabled (R420). -/
def State.omciEnd (s : State) (t : Nat) (x : Omci) : State := (s.setOmci t { x with done := true, alarm := false }).installDue [t]

/-- Terminal t's answer to the outstanding request: the next one goes, and after the last, where a key is valid already, the ports are
enabled; a MIB that differs is provisioned anew (R420, R425). (DEDUCED, safe: log entry 58.) -/
def State.omciHeard (s : State) (t : Nat) (bytes : List Byte) : State :=
  let x := s.omci t
  match x.todo with
  | [] => s
  | q :: rest =>
    if x.tries = 0 || !Config.omciAnswers q bytes then s
    else if q == mibCheck && Config.mibDiffers x.body bytes then (s.omciBegin t { x with alarm := false }).installDue [t]
    else
      let s := s.omciAsk t { x with todo := rest, alarm := false }
      let k := s.keyCtx t
      s.when (rest.isEmpty && !x.done && (k.slot0.valid || k.slot1.valid)) (fun s => s.omciEnd t (s.omci t))

/-- Imhus reads what the terminals' OMCCs have brought. -/
def State.imhAnswers (s : State) : State :=
  let l := s.imh.heard
  if l.isEmpty then s else l.foldl (fun s e => if s.recordsAct then s.omciHeard e.1 e.2 else s) { s with imh := { s.imh with heard := [] } }

/-- ONU_IMAGE: a chunk is kept; a target template starts the download to its terminals. -/
def execOnuImage (s : State) : Res :=
  act s fun s => s.mbx 0x70 [1, 2] false true fun s =>
    let id := Config.mbxArg 0x70 1 s.mbxPayload
    if Config.mbxArg 0x70 0 s.mbxPayload = 0 then
      ({ s with imh := { s.imh with image := s.imh.image ++ s.mbxPayload } }, 0, [])
    else if s.template id == {} then (s, 8, [])
    else s.mbxPend 0x70 fun s _ =>
      let l := omciServed (Config.omciDownload s.imh.image)
      let ts := (s.imh.terms.filter (fun e => e.2.template == id && e.2.done)).map (·.1)
      ts.foldl (fun s t =>
        let x := s.omci t
        let y := { x with todo := x.todo ++ l, whole := x.todo ++ l }
        if x.tries = 0 then s.omciAsk t y else s.setOmci t y) { s with imh := { s.imh with image := [] } }

/-! ### Contribution flows (R426, R427) -/

/-- A ternary entry of a tenant, written or taken out as the owner writes one (R299). -/
def State.ternStage (s : State) (tenant : Nat) (e : TernRow) (valid : Bool := true) : State :=
  let s := (s.wr F.CL_INDEX_index e.index).clArg valid false false tenant
  let s := (s.clShow F.CL_KEY_bits 8 e.key).clShow F.CL_MASK_bits 8 e.mask
  (s.clShow F.CL_ACT_bits 2 [e.act1, e.act2]).doing (execClWrite .guide 1 (BitVec.ofNat 4 e.tbl))

/-- A row of a queue table, written as the owner writes one (R258). -/
def State.rowStage (s : State) (t row : Nat) (ws : List Nat) : State :=
  (ws.zipIdx.foldl (fun s w => s.wr F.QS_DATA_word w.1 w.2) s).doing (execQsRowWrite .guide (BitVec.ofNat 4 t) (BitVec.ofNat 17 row))

/-- The nanosecond field at the last 1PPS edge, which is a PTP second at contribution level. -/
def State.ptpSecond (s : State) : Nat := s.rd F.TS_PPS_STAMP_stamp / 2 ^ 32

/-- A gate list staged with its base on a PTP second (R250, R253, R427). -/
def State.listStage (s : State) (f : Flow) : State :=
  let s := s.rowStage 7 f.list [f.cycle % 2 ^ 18, f.cycle / 2 ^ 18, s.ptpSecond % 2 ^ 18, s.ptpSecond / 2 ^ 18,
    (f.entries.length - 1) * 2 ^ 8 + f.gap]
  f.entries.zipIdx.foldl (fun s e => s.rowStage 8 (f.list * 256 + e.2) [e.1.1 % 2 ^ 18, e.1.1 / 2 ^ 18 * 2 ^ 8 + e.1.2]) s

/-- The ternary entry of a Flow record of a tenant: class 0 for gated video and audio, 1 otherwise (R427). -/
def flowRow (tenant : Nat) (f : Flow) : TernRow := Config.flowEntry tenant f.addr f.udp (if f.gated then 0 else 1)

/-- A Flow record of a tenant: its ternary entry; its gate list, where time was aligned on 1PPS (R426, R427). -/
def State.flowStage (s : State) (tenant : Nat) (f : Flow) : State :=
  let s := s.ternStage tenant (flowRow tenant f)
  s.when (f.gated && s.imh.alignedPps) (·.listStage f)

/-- The ternary entries of the Flow records of a template's bytes, with the entry that maps the tenant's PTP event messages to class 1. -/
def flowRows (body : List Nat) (tenant : Nat) : List TernRow :=
  if body.isEmpty then [] else Config.ptpEntry tenant 1 :: (Config.flows body).map (flowRow tenant)

/-- Another terminal of the tenant than t has this entry installed. -/
def State.flowShared (s : State) (t tenant : Nat) (e : TernRow) : Bool :=
  s.imh.terms.any (fun x => x.1 != t && x.2.tenant == tenant && (flowRows x.2.rows tenant).contains e)

/-- The Flow records of terminal t's template bytes are installed for its tenant; entries of old bytes that neither the new ones nor another
terminal of the tenant gives are taken out. -/
def State.flowsOf (s : State) (t tenant : Nat) (old body : List Nat) : State :=
  let new := flowRows body tenant
  let s := ((flowRows old tenant).filter (fun e => !new.contains e && !s.flowShared t tenant e)).foldl (fun s e => s.ternStage tenant e false) s
  if body.isEmpty then s
  else ((Config.flows body).foldl (fun s f => s.flowStage tenant f) s).ternStage tenant (Config.ptpEntry tenant 1)

/-- An XGEM port context, written as the owner writes one (R308, R316). -/
def State.xgemStage (s : State) (x : Nat) (ws : List Nat) : State :=
  (ws.zipIdx.foldl (fun s w => s.wr F.CL_DATA_word w.1 w.2) (s.wr F.CL_INDEX_index x)).doing (execClWrite .guide 3 0)

/-- An allocation context of terminal t from its words: written where the terminal holds its Alloc-ID, else allocated (R181). -/
def State.allocStage (s : State) (t : Nat) (ws : List Nat) : State :=
  let s := s.tblData (ws.headD 0 :: t :: ws.drop 2)
  match s.allocs.find? (fun e => e.2.valid && e.2.term == t && e.2.allocId == ws.headD 0 % 2 ^ 14) with
  | some e => s.doing (execGeTableWrite .guide 1 false (BitVec.ofNat 16 e.1))
  | none => s.doing (execAllocContextAllocate .guide 1 false)

/-- A classification row of a tenant, exact or ternary, put in or taken out (R294, R299). -/
def State.classStage (s : State) (tenant : Nat) (e : Bool × TernRow) (valid : Bool := true) : State :=
  if !e.1 then s.ternStage tenant e.2 valid
  else
    let s := (s.clArg valid false false tenant).clShow F.CL_KEY_bits 8 e.2.key
    let s := s.clShow F.CL_ACT_bits 2 [e.2.act1, e.2.act2]
    if valid then s.doing (execClAdd .guide 0 (BitVec.ofNat 4 e.2.tbl)) else s.doing (execClDelete .guide 0 (BitVec.ofNat 4 e.2.tbl))

/-- The rows of a kind that a template's bytes give a terminal; a template without bytes gives none. -/
def rowsFrom {α : Type} (f : List Nat → Nat → List α) (body : List Nat) (t : Nat) : List α := if body.isEmpty then [] else f body t

/-- What old bytes gave terminal t and new ones do not give it any more is taken out: allocation contexts freed, XGEM port contexts and
queues emptied, classification rows deleted (R418). -/
def State.portsOut (s : State) (t tenant : Nat) (old body : List Nat) : State :=
  let ids := fun b => (rowsFrom Config.allocRows b t).map (fun ws => ws.headD 0 % 2 ^ 14)
  let s := ((ids old).filter (!(ids body).contains ·)).foldl (fun s i =>
    match s.allocs.find? (fun e => e.2.valid && e.2.term == t && e.2.allocId == i) with
    | some e => s.doing (execAllocContextFree .guide 1 false (BitVec.ofNat 16 e.1))
    | none => s) s
  let nums := fun (f : List Nat → Nat → List (Nat × List Nat)) b => (rowsFrom f b t).map (·.1)
  let gone := fun f => (nums f old).filter (!(nums f body).contains ·)
  let s := (gone Config.xgemRows).foldl (fun s x => s.xgemStage x (List.replicate 8 0)) s
  let s := (gone Config.queueRows).foldl (fun s q => s.rowStage 0 q (List.replicate 8 0)) s
  ((rowsFrom Config.classRows old t).filter (!(rowsFrom Config.classRows body t).contains ·)).foldl (fun s e => s.classStage tenant e false) s

/-- The allocation contexts, XGEM ports, queues and classification rows that a template's bytes give terminal t (R416, R420). -/
def State.portsOf (s : State) (t tenant : Nat) (body : List Nat) : State :=
  let s := (rowsFrom Config.allocRows body t).foldl (fun s ws => s.allocStage t ws) s
  let s := (rowsFrom Config.xgemRows body t).foldl (fun s e => s.xgemStage e.1 e.2) s
  let s := (rowsFrom Config.queueRows body t).foldl (fun s e => s.rowStage 0 e.1 e.2) s
  (rowsFrom Config.classRows body t).foldl (fun s e => s.classStage tenant e) s

/-- One terminal of a batch: an APPLY begins its OMCI sequence anew; the rows of a provisioned one are installed in place of those it had,
those of a terminal that is gone taken out. -/
def State.installOne (s : State) (t : Nat) : State :=
  let x := s.omci t
  let s := s.when (x.again && x.held) (·.omciBegin t { x with again := false })
  let x := s.omci t
  let live := x.held && x.done
  if x.held && !x.done then s
  else
    let ten := if live then (s.ctx t).tenant else x.tenant
    let body := if live then x.body else []
    let old := if ten = x.tenant then x.rows else []
    let s := s.when (ten != x.tenant) (fun s => (s.portsOut t x.tenant x.rows []).flowsOf t x.tenant x.rows [])
    let s := (s.portsOut t ten old body).portsOf t ten body
    let s := s.when (s.glb.level == 2) (·.flowsOf t ten old body)
    s.setOmci t (if live then { s.omci t with rows := body, tenant := ten } else {})

/-- The records that wait are installed in batches of at most 256 terminals, at level 2 the Flow records with them, each
batch under one commit per staged object; a batch that meets a retiring generation waits (R30, R418, R420, R427).
(DESIGN CHOICE, unsafe: log entry 57.) -/
def State.flowsGo (s : State) : State :=
  if !s.recordsAct || s.imh.flowsDue.isEmpty || (s.gen .rules).ret.isSome || (s.gen .gates).ret.isSome then s
  else
    let ts := s.imh.flowsDue.take 256
    let s := ts.foldl State.installOne { s with imh := { s.imh with flowsDue := s.imh.flowsDue.drop 256 } }
    let s := s.when (s.gen .rules).staged (·.doing (execClRuleCommit .guide 1))
    s.when (s.gen .gates).staged (·.doing (execQsGateCommit .guide 1))

/-- Provisioning of a bound terminal begins with its MIB reset: under the version that it was provisioned with before, or, new, under the
one in force, which a staged version only becomes by an APPLY (R418, R420). -/
def State.provision (s : State) (t : Nat) : State :=
  match s.bindingOf t with
  | none => s
  | some b =>
    let o := s.omci t
    let kept := o.held && o.template == b.template
    s.omciBegin t { o with
      template := b.template, body := if kept then o.body else (s.template b.template).body, held := true, done := false, again := false }

/-- MAILBOX_FINAL_RESULT. -/
def execMailboxFinalResult (i : Fin 8) (result : BitVec 8) (s : State) : Res :=
  act s fun s => match s.imh.pend.get none i with
    | none => s
    | some (tag, _) =>
      { s with imh := { s.imh with pend := s.imh.pend.set none i none, apply := s.imh.apply.set 0 i 0 } }.mbxEvent 0x0F02 tag result.toNat

/-- The root of an alarm has appeared with event seq. -/
def State.rootAdd (s : State) (k : AlarmKind) (sc : AlarmScope) (seq : Nat) : State :=
  if s.imh.roots.any (fun r => r.1 == k && r.2.1 == sc) then s
  else { s with imh := { s.imh with roots := s.imh.roots ++ [(k, sc, seq)] } }

/-- OMCI_RETRY: an unanswered request again at 1 s intervals, three tries in all; then the alarm's root, and the whole sequence anew
every 60 s, counted from its last try (R420). (DEDUCED, unsafe: log entry 117.) -/
def execOmciRetry (t : Term) (s : State) : Res :=
  act s fun s =>
    let o := s.omci t
    match o.todo with
    | [] => s
    | q :: _ =>
      if !s.recordsAct || o.tries = 0 || s.ts.run < o.at_ + second then s
      else if o.tries < 3 then (s.setOmci t { o with tries := o.tries + 1, at_ := s.ts.run }).emit (.omci t (o.tries + 1) q)
      else
        let s := (s.setOmci t { o with alarm := true }).rootAdd .omci (.term t) s.evu.seq
        if s.ts.run < o.at_ + 60 * second then s else s.omciAsk t { o with alarm := true, todo := o.whole }

/-- key_period in seconds, 3,600 where the template gives none (R416). -/
def keyPeriod (body : List Nat) : Nat := if body.isEmpty then 3600 else Config.keySeconds body

/-- KEY_ROTATION_DUE: the first key, once the terminal's OMCI sequence is answered, goes to slot 0, and its XGEM ports and queues are
enabled; then every key_period a new one to the slot that is not active, with the switch scheduled 16 frames ahead (R66, R420). -/
def execKeyRotationDue (t : Term) (key : BitVec 128) (s : State) : Res :=
  act s fun s =>
    let c := s.ctx t
    let k := s.keyCtx t
    let first := !k.slot0.valid && !k.slot1.valid
    let slot := if first then false else !k.active
    let o := s.omci t
    let due := if first then o.held && o.todo.isEmpty else o.done && decide (o.keyAt + keyPeriod o.body * second ≤ s.ts.run)
    if !s.recordsAct || c.st != .operating || (s.bindingOf t).isNone || !due then s
    else
      let p := Fin.ofNat 64 c.port
      let n := key.toNat
      let s := ((s.wr F.TP_KEY_DATA0_key n p).wr F.TP_KEY_DATA1_key (n / 2 ^ 32) p).wr F.TP_KEY_DATA2_key (n / 2 ^ 64) p
      let s := ((s.wr F.TP_KEY_DATA3_key (n / 2 ^ 96) p).doing (execKeyWrite .guide p false slot t)).setOmci t { o with keyAt := s.ts.run }
      if first then s.omciEnd t (s.omci t)
      else (s.wr F.TP_KEY_SFC_switch_sfc (s.nextSfc p + 16) p).doing (execKeySwitch .guide p false slot t)

/-- At the entry to RUN, and at a promotion, every directed binding that has no context gets one (R416). -/
def State.imhStart (s : State) : State :=
  if !s.recordsAct then s
  else
    let s := s.imh.bindings.foldl (fun s b =>
      if b.directed && (s.boundTo b.sn).isNone then (s.imhBind b).1 else s) s
    if s.glb.level = 2 && !s.imh.alignedPps && !s.imh.roots.any (fun r => r.1 == .time) then
      { s with imh := { s.imh with roots := s.imh.roots ++ [(.time, .device, s.evu.seq)] } }
    else s

/-- After a promotion the MIB data sync of every Operating terminal with a binding is checked; its rows came by cairn (R425).
(DEDUCED, safe: log entry 58.) -/
def State.imhPromoted (s : State) : State :=
  if !s.recordsAct then s
  else
    let s := s.imhStart
    s.taken.foldl (fun s t =>
      match s.bindingOf t with
      | none => s
      | some b =>
        if (s.ctx t).st != .operating then s
        else
          let o := s.omci t
          let body := if o.held && o.template == b.template then o.body else (s.template b.template).body
          s.omciAsk t { o with
            template := b.template, body := body, held := true, done := true, rows := body, tenant := (s.ctx t).tenant
            keyAt := if o.held then o.keyAt else s.ts.run, todo := [mibCheck], whole := [mibCheck] }) s

/-- Imhus takes the found list of a tree: a serial number bound to this tree is accepted; another is left to age out, or, where the tree's
binding policy says so, disabled by a context of its own (R124, R140, R419). (DESIGN CHOICE, safe: log entry 136.) -/
def State.imhFound (s : State) (n : Nat) : State :=
  (s.actTree n).found.foldl (fun s e =>
    if e.dup then
      (if s.imh.roots.any (fun r => r.1 == .misWiring && r.2.1 == .tree (Fin.ofNat 64 n)) then s
      else { s with imh := { s.imh with roots := s.imh.roots ++ [(.misWiring, .tree (Fin.ofNat 64 n), s.evu.seq)] } })
    else
      let take := fun (s : State) =>
        let a := s.actTree n
        s.setActTree n { a with found := a.found.filter (fun x => x.sn != e.sn), taken := some e }
      match s.imh.bindings.find? (fun b => b.sn == e.sn && s.treeNo b.tree == n) with
      | none =>
        if !Config.disablesUnbound n || s.imh.bindings.any (·.sn == e.sn) then s
        else (match (take s).imhBind ⟨e.sn, n, 0, 0, 0xFFFF, false⟩ with
          | (s, some _) => s.doing (execContextDisable .guide)
          | (s, none) => s)
      | some b =>
        match (take s).imhBind b with
        | (s, some _) => s.doing (execActivateNow .guide)
        | (s, none) => s) s

/-! ### Alarms (R422, R423) -/

/-- Imhus's boundary clock has lost its PTP lock (R422, R426): at contribution level, configured, no uplink port that PTP_CFG names is up, or
the clock is not locked, which no row brings. (DESIGN CHOICE, safe: log entry 137.) -/
def State.ptpLost (s : State) : Bool :=
  s.live && s.glb.level == 2 && (match s.imh.ptp with
    | none => false
    | some cfg => !(((Config.ptpPorts cfg).take 4).any s.ulUp && Config.ptpLock cfg s.ts.run))

/-- The root of an alarm is present. (DEDUCED, unsafe: log entry 59.) -/
def State.rootHeld (s : State) (k : AlarmKind) (sc : AlarmScope) : Bool :=
  match k, sc with
  | .transmitPath, .tree p => s.tpHas p 0
  | .treeDown, .tree p => s.treeHas p 0 || s.treeHas p 1
  | .branchCut, .tree p => s.imh.cut.any (fun t => s.onTree t p && (s.ctx t).st == .lost)
  | .terminalLost, .term t | .powerLoss, .term t => bit (s.trx t).defects 0
  | .protection, _ => s.pr.protLost || s.pr.pairBad.isSome
  | .time, _ => s.pr.holdover || s.ptpLost || (s.live && s.glb.level == 2 && !s.imh.alignedPps)
      || (s.on F.TS_CTRL_align_src && !s.on F.TS_STATUS_pps_seen)
  | .omci, .term t => (s.omci t).alarm
  | .misWiring, .tree p => (s.actTree p).found.any (·.dup)
  | .overflow, _ => decide (4096 ≤ s.imh.alarms.length)
  | _, _ => false

/-- An alarm is suppressed by another's root (R422). -/
def State.suppressed (s : State) (k : AlarmKind) (sc : AlarmScope) : Bool :=
  match sc with
  | .term t =>
    let p := Fin.ofNat 64 (s.treeNo (s.ctx t).port)
    let ps := (s.treePorts p).map (Fin.ofNat 64)
    (ps.any (fun q => s.rootHeld .transmitPath (.tree q)) && (k == .terminalLost || k == .omci))
      || (ps.any (fun q => s.rootHeld .treeDown (.tree q)) && (k == .terminalLost || k == .omci || k == .powerLoss))
      || (k == .terminalLost && s.imh.roots.any (fun r => r.1 == .powerLoss && r.2.1 == sc) && s.rootHeld .powerLoss sc)
      || (k == .terminalLost && s.imh.roots.any (fun r => r.1 == .branchCut && r.2.1 == .tree p) && s.imh.cut.contains t.val)
  | _ => false

/-- An alarm with its event (R423). The spec does not say how ids and severities are given. -/
def State.addAlarm (s : State) (k : AlarmKind) (sc : AlarmScope) (seq : Nat) : State × Alarm :=
  let id := Config.free 7 s.imh.nextId % 2 ^ 32
  ({ s with imh := { s.imh with nextId := s.imh.nextId + 1 } }.raise 0 0 0x0F10 id,
    ⟨id, k, sc, Config.severity (Sys2Proof.Machine.AlarmKind.code k), seq⟩)

/-- An alarm's root has been present, or absent, for a time. -/
def State.rootFor (s : State) (k : AlarmKind) (sc : AlarmScope) (present : Bool) (time : Nat) : Bool :=
  time = 0 || s.lasting.roots.any (fun e => e.1 == k && e.2.1 == sc && e.2.2.1 == present && decide (e.2.2.2 + time ≤ s.ts.run))

/-- The soak of a root before its alarm: raise_soak for a lost terminal, none for the others (R422). (DEDUCED, unsafe: log entry 117.) -/
def State.raiseTime (s : State) (k : AlarmKind) : Nat := if k == .terminalLost then s.imh.raiseSoak * (second / 10) else 0

/-- ALARM_RAISE_SOAK: a root that has held for its soak becomes an alarm; past 4,096 only the one overflow alarm does, which is kept apart
from those (R423). (DESIGN CHOICE, unsafe: log entry 138.) -/
def execAlarmRaiseSoak (k : AlarmKind) (sc : AlarmScope) (s : State) : Res :=
  act s fun s =>
    match s.imh.roots.find? (fun r => r.1 == k && r.2.1 == sc) with
    | none => s
    | some (_, _, seq) =>
      let active := s.imh.alarms.any (fun a => a.kind == k && a.scope == sc)
      let held := (s.rootHeld k sc || k == .protection) && s.rootFor k sc true (s.raiseTime k)
      if !s.imhDecides || active || !held || s.suppressed k sc then s
      else if 4096 ≤ s.imh.alarms.length then
        (if s.imh.overflow.isSome then s
        else
          let (s, a) := s.addAlarm .overflow .device seq
          { s with imh := { s.imh with overflow := some a } })
      else
        let (s, a) := s.addAlarm k sc seq
        { s with imh := { s.imh with alarms := s.imh.alarms ++ [a] } }

/-- ALARM_CLEAR_SOAK: the root has stayed absent for clear_soak (R423). -/
def execAlarmClearSoak (k : AlarmKind) (sc : AlarmScope) (s : State) : Res :=
  act s fun s =>
    match (s.imh.alarms ++ s.imh.overflow.toList).find? (fun a => a.kind == k && a.scope == sc) with
    | none => s
    | some a =>
      if !s.imhDecides || s.rootHeld k sc || !s.rootFor k sc false (s.imh.clearSoak * (second / 10)) then s
      else
        { s with imh := { s.imh with
          alarms := s.imh.alarms.filter (fun b => !(b.kind == k && b.scope == sc))
          roots := s.imh.roots.filter (fun r => !(r.1 == k && r.2.1 == sc))
          overflow := if k == AlarmKind.overflow then none else s.imh.overflow } }.raise 0 0 0x0F11 a.id

/-- A freed terminal's rows are to be taken out. -/
def State.imhForgets (s : State) (t : Nat) : State :=
  let o := s.omci t
  if o.rows.isEmpty then s.setOmci t {} else (s.setOmci t { rows := o.rows, tenant := o.tenant }).installDue [t]

/-- A terminal that entered Lost counts towards a branch cut: a quarter of the tree's Operating terminals within 100 ms, with no
dLOS (R422). -/
def State.branchCheck (s : State) (t stamp seq : Nat) : State :=
  let p := s.treeNo (s.ctx t).port
  let lost := (s.imh.lost.filter (fun e => e.1 != t)) ++ [(t, stamp)]
  let s := { s with imh := { s.imh with lost := lost } }
  let near := lost.filter (fun e => s.onTree e.1 p && decide ((stamp + 2 ^ 32 - e.2) % 2 ^ 32 ≤ 100000000))
  let up := (s.onTreeList p).filter (fun u => (s.ctx u).st == .operating)
  if near.length + up.length ≤ 4 * near.length && !s.treeHas p 0 then
    { s with imh := { s.imh with cut := near.foldl (fun (l : List Nat) (e : Nat × Nat) => insertNat e.1 l) s.imh.cut } }.rootAdd .branchCut (.tree (Fin.ofNat 64 p)) seq
  else s

/-- A terminal that gave a dying gasp and lost its signal within 1 s has lost its power (R422). -/
def State.powerCheck (s : State) (t seq : Nat) : State :=
  match (s.trx t).dyingAt with
  | some d => if s.ts.run ≤ d + second then s.rootAdd .powerLoss (.term (Fin.ofNat 16384 t)) seq else s
  | none => s

/-- What Imhus does on a committed event (R419, R420, R422). -/
def State.imhReads (s : State) (seq block inst code arg stamp : Nat) : State :=
  if !s.imhDecides then s
  else
    let tree := AlarmScope.tree (Fin.ofNat 64 inst)
    match block, code with
    | 1, 0x0100 => s.rootAdd .transmitPath tree seq
    | 2, 0x0100 => s.rootAdd .treeDown tree seq
    | 2, 0x0101 => s.rootAdd .treeDown tree seq
    | 2, 0x0400 => (s.rootAdd .terminalLost (.term (Fin.ofNat 16384 arg)) seq).powerCheck (arg % 16384) seq
    | 9, 0x8001 => s.rootAdd .protection .device seq
    | 9, 0x8003 => s.rootAdd .protection .device seq
    | 9, 0x8006 => s.rootAdd .protection .device seq
    | 9, 0x8022 => s.rootAdd .time .device seq
    | 8, 0x7005 => s.rootAdd .time .device seq
    | 3, 0x1001 => if s.recordsAct then s.imhFound inst else s
    | 3, 0x1010 =>
      let t := arg % 2 ^ 16
      match arg / 2 ^ 16 % 8 with
      | 3 => if s.recordsAct then s.provision t else s
      | 4 => s.branchCheck t stamp seq
      | 0 => s.imhForgets t
      | _ => s
    | _, _ => s

/-- Imhus reads a committed event, and installs what waits. -/
def State.imhEvent (s : State) (seq block inst code arg stamp : Nat) : State := (s.imhReads seq block inst code arg stamp).flowsGo

/-- Imhus as time begins to pass: it reads the terminals' answers, forgets who is cut off no longer and roots that are gone before their
alarm (R423; that of a protection alarm is momentary, log entry 59), and notes the loss of its PTP lock. -/
def State.imhWatch (s : State) : State :=
  if !s.imhDecides then s
  else
    let s := s.imhAnswers
    let s := s.when s.ptpLost (·.rootAdd .time .device s.evu.seq)
    { s with imh := { s.imh with
      cut := s.imh.cut.filter (fun t => (s.ctx t).st == .lost)
      roots := s.imh.roots.filter (fun r => r.1 == .protection || s.rootHeld r.1 r.2.1
        || s.imh.alarms.any (fun a => a.kind == r.1 && a.scope == r.2.1)) } }

/-- GUIDE_CORE_HALT: a fatal fault at levels 1 and 2 (R412); else event 0x0F20, whose arg the spec does not give. -/
def execGuideCoreHalt (core : Fin 4) (s : State) : Res :=
  act s fun s =>
    let s := { s with imh := { s.imh with halted := insertNat core.val s.imh.halted } }
    if s.live && s.glb.level != 0 then s.toSafe 2 false
    else (s.raise 0 0 0x0F20 (Config.free 9 s.fresh)).tickFresh

end Sys2Proof.Machine
end

