-- ==== Sys2Proof/Machine/Domains.lean ====
section
/-! DEFINITION. Power domains (R500 to R505): requests down and up, quiescence, what goes with a domain, the moves to and from
BIVOUAC that wait for one. -/

namespace Sys2Proof.Machine

/-! ### Channels and a domain (R467) -/

/-- Every enabled channel pauses at its next beat boundary. -/
def State.chansPause (s : State) : State :=
  State.each 32 (fun s c =>
    let x := s.chanAt c
    if !s.on F.HD_CH_CTRL_en c || x.st == 5 || x.st == 6 then s.setChan c { x with domain := true }
    else (s.leaveMover c).setChan c { x with domain := true, st := if x.reads = 0 then 3 else 2 }) s

/-- The channels resume by themselves. -/
def State.chansResume (s : State) : State :=
  State.each 32 (fun s c =>
    let x := s.chanAt c
    if !x.domain then s
    else if s.on F.HD_CH_CTRL_pause c || !(x.st == 2 || x.st == 3) then (s.setChan c { x with domain := false }).chanStart c
    else (s.setChan c { x with domain := false }).chanGo c) s

/-- The channels that wait for a target which was down go on (R466). -/
def State.chansWake (s : State) : State :=
  State.each 32 (fun s c =>
    let x := s.chanAt c
    if x.st = 4 then ((s.setChan c { x with st := 1 }).issueReads c).chanStart c else s) s

/-! ### Down -/

/-- PW_DOM_STATUS.down with bit d set to v. -/
def State.setDomDown (s : State) (d : Nat) (v : Bool) : State :=
  let w := s.rd F.PW_DOM_STATUS_down
  let rest := w - (if bit w d then 2 ^ d else 0)
  s.wr F.PW_DOM_STATUS_down (rest + b2n v * 2 ^ d)

/-- What refuses a request down, in the order of R501; 0 for none. Domain 15 stands with the fixed ones.
(DEDUCED, unsafe: log entry 61.) -/
def State.domRefusal (s : State) (d : Nat) : Nat :=
  if s.glb.dev == .boot || s.glb.dev == .safe then 2
  else if d = 10 || 13 ≤ d then 5
  else if d < 8 && (List.range 8).any (fun i => s.on F.TP_CTRL_port_en (d * 8 + i) || s.on F.UB_TREE_CFG_rx_en (d * 8 + i)) then 4
  else if d = 8 || d = 9 then
    (if s.domDown (17 - d) || (List.range 64).all (fun i => s.fenced (.core ((9 - d) * 64 + i))) then 4 else 0)
  else 0

/-- The blocks of domain d take no new work, and complete or refuse what they hold (R501). (DEDUCED, safe: log entry 62.) -/
def State.domStop (s : State) (d : Nat) : State :=
  match d with
  | 8 => (List.range 64).foldl State.withdrawCore s
  | 9 => ((List.range 64).map (· + 64)).foldl State.withdrawCore s
  | 11 => s.blockCheck
  | 12 => s.chansPause
  | _ => s

/-- Domain d stands still (R346, R467, R500). -/
def State.quiescent (s : State) (d : Nat) : Bool :=
  match d with
  | 8 | 9 => s.pc.work.all (fun w => match w.run with
    | some x => coreDomain x.core != d
    | none => true)
  | 11 => s.qs.queues.all (fun e => !e.2.latched) && s.bm.relocating.isNone
  | 12 => (List.range 32).all (fun c => (s.chanAt c).reads == 0 && (s.chanAt c).st != 2 && (s.chanAt c).st != 6)
  | _ => true

/-- Deep memory is up: the requests to it that were withdrawn are made again (R37, R346): a command on an exact entry, records of a
snapshot. -/
def State.deepUp (s : State) : State :=
  if s.deepDown then s else s.snapResume.clResume

/-- The blocks of domain d take work again. -/
def State.domGo (s : State) (d : Nat) : State :=
  match d with
  | 11 => s.blockCheck.deepUp
  | 12 => s.chansResume
  | _ => s

/-- A parse half that comes up loads the current and the staged image from the image store (R502). -/
def State.halfLoads (s : State) (d : Nat) : State :=
  if d = 8 || d = 9 then ((List.range 64).map (· + (d - 8) * 64)).foldl State.loadCore s else s

/-- The result of a domain command. -/
def State.domResult (s : State) (n d : Nat) : State := (s.wr F.PW_DOM_CMD_STATUS_result n).wr F.PW_DOM_CMD_STATUS_domain d

/-- The domain command in progress ends. -/
def State.domDone (s : State) (n : Nat) : State :=
  match s.pw.dom with
  | none => s
  | some (d, _) =>
    let s := { s with pw := { s.pw with dom := none } }
    if s.on F.PW_DOM_CMD_STATUS_busy then (s.wr F.PW_DOM_CMD_STATUS_busy 0).domResult n d else s

/-- A domain command: 6 from another requester than the owner, 1 while a command or a state move runs (R499, R503). -/
def State.domCmd (s : State) (r : Requester) (f : State → State) : State :=
  match r with
  | .vf _ => s
  | _ =>
    if !s.owns r then s.wr F.PW_DOM_CMD_STATUS_result 6
    else if s.pw.dom.isSome || s.glb.move.isSome then s.wr F.PW_DOM_CMD_STATUS_result 1
    else f s

/-- DOMAIN_QUERY. -/
def execDomainQuery (r : Requester) (d : BitVec 4) (s : State) : Res := act s fun s => s.domCmd r (·.domResult 0 d.toNat)

/-- DOMAIN_DOWN_REQUEST. A domain that is down already stays so. -/
def execDomainDownRequest (r : Requester) (d : BitVec 4) (s : State) : Res :=
  act s fun s => s.domCmd r fun s =>
    let n := d.toNat
    let res := s.domRefusal n
    if res != 0 || s.domDown n then s.domResult res n
    else
      let s := { s with pw := { s.pw with dom := some (n, true), domAt := s.ts.run } }
      ((s.wr F.PW_DOM_CMD_STATUS_busy 1).wr F.PW_DOM_CMD_STATUS_domain n).domStop n

/-- STATE_REQUEST_BIVOUAC: the move, and half B's work stopped where it is asked down (R504). -/
def execStateRequestBivouac (r : Requester) (s : State) : Res :=
  act s fun s =>
    let s := s.request r .bivouac
    if s.glb.move == some .bivouac && s.pw.dom == some (9, true) then s.domStop 9 else s

/-- DOMAIN_QUIESCENT: the domain goes down, and a move to BIVOUAC that waited for it completes. -/
def execDomainQuiescent (s : State) : Res :=
  act s fun s => match s.pw.dom with
    | some (d, true) =>
      if !s.quiescent d then s
      else
        let s := s.metersDown.setDomDown d true
        let s := (if d < 8 then s.groupLanesDown d else s).domDone 0
        let s := (s.raise 14 d 0xD001 0).blockCheck.metersDown
        if s.glb.move == some .bivouac then s.moved .bivouac (some 0) else s
    | _ => s

/-- DOMAIN_TIMEOUT: not quiescent within dom_timeout (0 acts as 1), refused with 3; the domain stays up. A move to BIVOUAC completes without it (R504). -/
def execDomainTimeout (s : State) : Res :=
  act s fun s => match s.pw.dom with
    | some (d, true) =>
      if s.quiescent d || s.ts.run < s.pw.domAt + max 1 (s.rd F.PW_DOM_CFG_dom_timeout) * microsecond then s
      else
        let s := ((s.domDone 3).domGo d).raise 14 d 0xD003 3
        if s.glb.move == some .bivouac then s.moved .bivouac (some 0) else s
    | _ => s

/-! ### Up -/

/-- DOMAIN_UP_REQUEST. A domain that is up stays so. -/
def execDomainUpRequest (r : Requester) (d : BitVec 4) (s : State) : Res :=
  act s fun s => s.domCmd r fun s =>
    let n := d.toNat
    if !s.domDown n then s.domResult 0 n
    else
      let s := { s with pw := { s.pw with dom := some (n, false) } }
      (s.wr F.PW_DOM_CMD_STATUS_busy 1).wr F.PW_DOM_CMD_STATUS_domain n

/-- DOMAIN_UP_COMPLETE: a tree group brings its lanes up, the channels resume, the rods of HD restart (R467, R493, R502). A move
from BIVOUAC that waited for half B completes. -/
def execDomainUpComplete (s : State) : Res :=
  act s fun s => match s.pw.dom with
    | some (d, false) =>
      let s := ((s.domDone 0).setDomDown d false).halfLoads d
      let s := if d < 8 then s.groupLanesUp d else if d = 12 then s.rodsRestart 11 else s
      let s := (s.domGo d).raise 14 d 0xD002 0
      if s.glb.move == some .run then s.moved .run (some 0) else s
    | _ => s

end Sys2Proof.Machine
end

