-- ==== Sys2Proof/Machine/Resets.lean ====
section
/-! DEFINITION. Resets and boot (R510 to R516): the kinds of reset, block reset, the stages of BOOT. -/

namespace Sys2Proof.Machine

/-! ### Kinds 1 to 3 -/

/-- A reset of kind 1, 2 or 3: every register and table at its reset value, the straps sampled anew. What stays is what lies
outside: the waiting commands, what has left, the reading of BELAY_SEEN, the fuse. Power-on alone clears safe_cause.
(DEDUCED, safe: log entry 65.) -/
def State.bootReset (s : State) (kind : Nat) (st : Straps) (auth : Bool) : State :=
  let cause := if kind = 1 then 0 else s.rd F.PW_RESET_CAUSE_safe_cause
  let z : State := { State.reset with
    pending := s.pending, rdata := s.rdata, out := s.out, fresh := s.fresh
    belay := { seen := s.belay.seen }
    pw := { straps := st } }
  (((z.wr F.PW_RESET_CAUSE_kind kind).wr F.PW_RESET_CAUSE_safe_cause cause).wr F.PW_BOOT_STATUS_auth_req (b2n auth)).wr
    F.PW_BOOT_STATUS_boot_src (b2n st.bootSrc)

/-- POWER_ON_RESET: the supplies are back, so a device that they held starts. -/
def execPowerOnReset (st : Straps) (authReq : Bool) (s : State) : Res := .next (s.bootReset 1 st authReq)

/-- PIN_RESET. -/
def execPinReset (st : Straps) (s : State) : Res := act s fun s => s.bootReset 2 st (s.on F.PW_BOOT_STATUS_auth_req)

/-- A PW_RESET_CMD command with its key: 6, 1 while a block reset runs (R499, R511). -/
def State.resetCmd (s : State) (r : Requester) (key : Byte) (f : State → State) : State :=
  match r with
  | .vf _ => s
  | _ =>
    if key != 0xA5 then s
    else if !s.owns r then s.wr F.PW_RESET_STATUS_result 6
    else if s.pw.blkCmd.isSome then s.wr F.PW_RESET_STATUS_result 1
    else f s

/-- DEVICE_RESET. -/
def execDeviceReset (r : Requester) (key : Byte) (st : Straps) (s : State) : Res :=
  act s fun s => s.resetCmd r key fun s => s.bootReset 3 st (s.on F.PW_BOOT_STATUS_auth_req)

/-! ### Block reset (R511) -/

/-- The byte range of a block row (R50). -/
def blockRange (b : Nat) : Nat × Nat :=
  match b with
  | 7 => (0x700000, 0x780000) | 8 => (0x780000, 0x7C0000) | 9 => (0x7C0000, 0x800000) | 10 => (0x800000, 0x900000)
  | 11 => (0x900000, 0xA00000) | 12 => (0xA00000, 0xA80000) | 13 => (0xA80000, 0xB00000) | 14 => (0xB00000, 0xC00000)
  | _ => (b * 0x100000, b * 0x100000 + 0x100000)

/-- The registers of a block at their reset values. -/
def State.blockRegs (s : State) (b : Nat) : State :=
  let (lo, hi) := blockRange b
  let own := resetFields.filter (fun e => decide (lo ≤ e.1 / 64) && decide (e.1 / 64 < hi))
  let s := s.resetRange lo hi
  { s with rf := own.foldl (fun t e => Tab.insert t e.1 e.2) s.rf }

/-- The packets of the parse stage are dropped, and their cells freed. -/
def State.dropStage (s : State) : State :=
  let s := s.pc.work.foldl (fun s w => s.dropPkt w.pkt) s
  { s with pc := { s.pc with work := [] } }

/-- The packets of every queue are dropped, with their cells and pages. -/
def State.dropQueues (s : State) : State :=
  let s := s.qs.queues.foldl (fun s e =>
    let s := ((e.2.chip ++ e.2.fetch).foldl State.dropPkt s).giveCells (e.2.dead.flatMap (·.cells))
    (e.2.deep.foldl (fun s k => s.stampNote k none) s).givePages e.2.pages) s
  let s := s.giveCells (s.bm.spills.flatMap (·.cells))
  { s with qs := { s.qs with queues := [] }, bm := { s.bm with spills := [] } }

/-- The state of a block at its reset values, its tables cleared; what the watch domain and the PCIe controller hold stays, and what is
fenced, retired, redirected or relocated stays so: only a repair or a reset to BOOT ends that (R46, R342, R343). -/
def State.blockState (s : State) (b : Nat) : State :=
  match b with
  | 1 => { s.giveCells (s.tp.flatMap (fun e => (e.2.rem.map (·.cells)).getD [])) with tp := [], keys := [] }
  | 2 => { s with ub := [], presets := [], termRx := [], chains := [], fillRun := [] }
  | 3 => ({ s with ctxs := [], onuHolds := [], act := [], allocs := [], allocHolds := [], ge := {}, trees := [] }.setGen .grant {})
  | 4 =>
    let s := s.dropStage
    { s with pc := { pids := s.pc.pids } }.setGen .parse {}
  | 5 => { s with cl := {}, rows := resetRows }.setGen .rules {}
  | 6 =>
    let s := s.dropQueues
    ({ s with qs := { tab := resetQs } }.setGen .gates {}).setGen .shapers {}
  | 7 =>
    let s := s.dropStage.dropQueues
    { s with
      tp := s.tp.mapAll {} (fun _ x => { x with rem := none })
      bm := { repaired := s.bm.repaired, bare := s.bm.bare, copying := s.bm.copying, gone := s.bm.gone, spares := s.bm.spares
              retired := s.bm.retired, reserve := s.bm.reserve, relocating := s.bm.relocating, rewritten := s.bm.rewritten
              degraded := s.bm.degraded, bad := s.bm.bad, chip := { start := s.ts.run }, deep := { start := s.ts.run }
              blocked := s.on F.GLB_FEAT_LOCK_lock && !s.feat 11 } }
  | 8 => { s with ts := {
      tb := s.ts.tb, wrap := s.ts.wrap, turns := s.ts.turns, run := s.ts.run, phase := s.ts.phase, frame := s.ts.frame
      started := s.ts.started, frameStamp := s.ts.frameStamp } }
  | 9 => { s with pr := {} }
  | 10 => { s with lanes := s.lanes.mapAll {} (fun l _ => if s.fenced (.lane l) then { st := .fenced } else {}) }
  | 11 =>
    let chans := (List.range 32).foldl (fun (t : Tab Dma) c => t.set {} c (if s.fenced (.chan c) then { st := 5 } else {})) []
    { s with hd := {
      mps := s.hd.mps, mrrs := s.hd.mrrs, link := s.hd.link, vfs := s.hd.vfs, table := s.hd.table, pba := s.hd.pba, vtab := s.hd.vtab
      aer := s.hd.aer, flrs := s.hd.flrs, chans := chans } }.flrDone
  | 13 => { s with pm := { boundary := s.ts.run } }
  | _ => s

/-- The registers that report what boot found and what the PCIe link is, which a block reset does not change. -/
def keptFields : List Fld :=
  [F.BM_DEEP_CFG_capacity, F.BM_DEEP_CFG_density, F.BM_DEEP_CFG_width, F.BM_DEEP_CFG_ranks, F.BM_DEEP_CFG_speed,
   F.HD_STATUS_width, F.HD_STATUS_speed]

/-- The CL block goes down: the lookups it has accepted complete withdrawn (R35, R298). -/
def State.looksWithdrawn (s : State) : State :=
  { s with pc := { s.pc with work := s.pc.work.map (fun w => { w with run := w.run.map (fun x => { x with
    looks := x.looks.map (fun l => if l.kind = 2 then l else { l with kind := 2, res := lookStatus 2 }) }) }) } }

/-- BLOCK_RESET: 3 for GLB, PW and what is no row, 2 outside READY and TEST. The block goes down; rope lanes that go with SL end
their links. (DEDUCED, unsafe: log entry 63.) -/
def execBlockReset (r : Requester) (key : Byte) (block : BitVec 4) (s : State) : Res :=
  act s fun s => s.resetCmd r key fun s =>
    let b := block.toNat
    if b = 0 || 14 ≤ b then s.wr F.PW_RESET_STATUS_result 3
    else if s.glb.dev != .ready && s.glb.dev != .test then s.wr F.PW_RESET_STATUS_result 2
    else
      let s := { s with pw := { s.pw with blk := b :: s.pw.blk, blkCmd := some b } }
      let s := ((s.wr F.PW_RESET_STATUS_busy 1).metersDown).when (b == 5) State.looksWithdrawn
      if b = 10 then s.ropesIdle else s

/-- After a reset of the GE block the engines that stand fenced are out of service as before (R46, R170). -/
def State.enginesAside (s : State) : State :=
  State.each 17 (fun s e => s.when (s.fenced (.engine e)) (·.engineFenced e)) { s with evu := { s.evu with last := none } }

/-- BLOCK_RESET_COMPLETE: the block is up at its reset values, its rods restart, the collector takes what was latched, what waited for it
goes on (R37). -/
def execBlockResetComplete (s : State) : Res :=
  act s fun s => match s.pw.blkCmd with
    | none => s
    | some b =>
      let kept := keptFields.map (fun f => (f, s.rd f))
      let s := ((s.blockState b).blockRegs b)
      let s := kept.foldl (fun s e => s.wr e.1 e.2) s
      let s := { s with pw := { s.pw with blk := s.pw.blk.filter (· != b), blkCmd := none } }
      let s := ((s.wr F.PW_RESET_STATUS_busy 0).wr F.PW_RESET_STATUS_result 0).rodsRestart b
      let s := if b = 12 then s.icUp else s
      let s := s.when (b == 3) State.enginesAside
      s.blockCheck.deepUp.verdictsWake.chansWake

/-! ### Boot (R512 to R516) -/

/-- BOOT_DATA_WRITE. -/
def execBootDataWrite (r : Requester) (v : Word) (s : State) : Res :=
  act s fun s => if !s.pcieBoot || !s.owns r then s
    else
      let a := s.rd F.PW_BOOT_ADDR_addr
      { s with pw := { s.pw with bootImg := s.pw.bootImg.set 0 (a / 4 * 4) v.toNat } }.wr F.PW_BOOT_ADDR_addr (a + 4)

/-- BOOT_GO. -/
def execBootGo (r : Requester) (v : Word) (s : State) : Res :=
  act s fun s => if !s.pcieBoot || !s.owns r || v.toNat % 2 = 0 then s
    else { s with pw := { s.pw with bootGo := true } }.wr F.PW_BOOT_STATUS_stage 2

/-- What the headers gave (R513, R514): the fallback used, an image that runs, the error where the device must stay in BOOT. -/
def loadOutcome (l : BootLoad) (auth : Bool) : Bool × Nat × Option Nat :=
  if l.headerOk && (!l.imhusPresent || l.imhusVerified) then (false, b2n l.imhusPresent, none)
  else
    let fb := l.fallbackPresent
    if fb && l.fallbackOk && l.fallbackVerified then (true, 1, none)
    else
      let header := l.headerOk || (fb && l.fallbackOk)
      (fb, if header then 2 else 0, if auth then some (if header then 2 else 1) else none)

/-- BOOT_LOAD_COMPLETE. Without a valid configuration record no DDR5 training follows (R515). (DEDUCED, unsafe: log entry 64.) -/
def execBootLoadComplete (l : BootLoad) (s : State) : Res :=
  act s fun s =>
    if s.glb.dev != .boot || 3 ≤ s.rd F.PW_BOOT_STATUS_stage || (s.pw.straps.bootSrc && !s.pw.bootGo) then s
    else
      let (fb, imhus, err) := loadOutcome l (s.on F.PW_BOOT_STATUS_auth_req)
      let s := (s.wr F.PW_BOOT_STATUS_fallback (b2n fb)).wr F.PW_BOOT_STATUS_imhus imhus
      let s := { s with pw := { s.pw with keys := l.keysOk.toNat } }
      match err with
      | some e => (s.wr F.PW_BOOT_STATUS_error e).wr F.PW_BOOT_STATUS_stage 3
      | none =>
        if l.recordOk then s.wr F.PW_BOOT_STATUS_stage 4
        else (s.wr F.PW_BOOT_STATUS_error 3).wr F.PW_BOOT_STATUS_stage 5

/-- A value of BM_DEEP_CFG names a configuration that the device supports (R333): width, density, ranks, capacity in 8 GiB, speed. -/
def deepLegal (v : Nat) : Bool :=
  match bits v 9 8, bits v 11 10, bits v 7 4, bits v 23 16 with
  | 0, 0, 1, 8 | 0, 2, 1, 16 | 1, 0, 1, 16 | 1, 1, 1, 24 | 1, 2, 1, 32 => true
  | 1, 0, 2, 32 => decide (2 ≤ bits v 1 0)
  | _, _, _, _ => false

/-- MEMORY_TRAINING_COMPLETE: the configuration of the record is what BM_DEEP_CFG reports (R333). -/
def execMemoryTrainingComplete (ok : Bool) (deepCfg : Word) (s : State) : Res :=
  act s fun s =>
    if s.glb.dev != .boot || s.rd F.PW_BOOT_STATUS_stage != 4 then s
    else
      let v := deepCfg.toNat
      let s := ((s.wr F.BM_DEEP_CFG_capacity (bits v 23 16)).wr F.BM_DEEP_CFG_density (bits v 11 10)).wr F.BM_DEEP_CFG_width (bits v 9 8)
      let s := (s.wr F.BM_DEEP_CFG_ranks (bits v 7 4)).wr F.BM_DEEP_CFG_speed (bits v 1 0)
      (s.wr F.PW_BOOT_STATUS_deep_ok (b2n (ok && deepLegal v))).wr F.PW_BOOT_STATUS_stage 5

/-- The features offered (R17). -/
def State.offer (s : State) : Nat :=
  0x34FF + (if s.rd F.PW_BOOT_STATUS_imhus = 1 then 0x300 else 0) + (if s.on F.PW_BOOT_STATUS_deep_ok then 0x800 else 0)

/-- BOOT_SELF_TEST_COMPLETE: failing engines and cores are fenced and counted; with at least 16 engines, 120 cores and every row
repaired the device moves to READY. -/
def execBootSelfTestComplete (engFail : BitVec 17) (coreFail : BitVec 128) (rowsRepaired : Bool) (s : State) : Res :=
  act s fun s =>
    if s.glb.dev != .boot || s.rd F.PW_BOOT_STATUS_stage != 5 then s
    else
      let es := (List.range 17).filter (bit engFail.toNat)
      let cs := (List.range 128).filter (bit coreFail.toNat)
      let s := es.foldl (fun s e => s.engineFault e true 15) s
      let s := cs.foldl (fun s c => s.coreFault c true 15) s
      let s := (s.wr F.PW_BOOT_STATUS_eng_fail es.length).wr F.PW_BOOT_STATUS_core_fail cs.length
      let s := { s with pw := { s.pw with rowBad := !rowsRepaired } }
      if es.length ≤ 1 && cs.length ≤ 8 && rowsRepaired then
        let s := (s.wr F.PW_BOOT_STATUS_stage 6).wr F.GLB_FEAT_OFFER_offer s.offer
        { s with imh := { s.imh with loaded := s.rd F.PW_BOOT_STATUS_imhus == 1 } }.moved .ready none
      else s.wr F.PW_BOOT_STATUS_error 5

end Sys2Proof.Machine
end

