-- ==== Sys2Proof/Machine/Pair.lean ====
section
/-! DEFINITION. The commands of pair and cascade apart from the cairns (R372 to R375, R386 to R409): the belay lines, hello, health,
time over the rope, latencies, pair commands, yield and revert, rope frames, the cascade. -/

namespace Sys2Proof.Machine

/-! ### The belay lines (R372 to R375, R389) -/

/-- BELAY_SEEN_EDGE. Where both devices claim, the one with PAIR_ID bit 0 = 1 releases, and takes role standby (R374).
(DEDUCED, unsafe: log entry 69.) -/
def execBelaySeenEdge (s : State) : Res :=
  act s fun s =>
    let s := { s with belay := { s.belay with edgeAt := s.ts.run } }
    if s.belay.seen then s
    else
      let yields := s.belay.claim && s.pw.straps.pairId.toNat % 2 == 1
        && s.glb.modeIn && (s.glb.role == .active || s.glb.role == .standby)
      let s := { s with belay := Belay.gate { s.belay with seen := true, claim := s.belay.claim && !yields } s.belay.laser s.ts.run }
      let s := if yields && s.isActive then s.roleChange .standby 5 else s
      s.belayUpdate.ring 5

/-- BELAY_SEEN_TIMEOUT: no edge for 400 ns; BELAY_SEEN read claimed until now. -/
def execBelaySeenTimeout (s : State) : Res :=
  act s fun s =>
    if !s.belay.seen || s.ts.run < s.belay.edgeAt + 400 * 2 ^ 40 then s
    else (({ s with belay := { s.belay with seen := false, freeAt := s.ts.run } }.belayUpdate).ring 5).tryTakeover

/-- The partner that was active no longer stands for anchor (R405): its lasers are off. -/
def State.partnerFallen (s : State) : State :=
  match (s.rope (s.rd F.PR_PAIR_CFG_pair_port)).hello with
  | none => s
  | some h => { s with pr := { s.pr with members := s.pr.members.modify {} h.cascId.toNat (fun m => { m with qualifies := false }) } }

/-- LASER_SETTLE: 2 µs of a claim with BELAY_SEEN released raise LASER_EN (R373), and a standby that took over becomes active (R389,
R391). -/
def execLaserSettle (s : State) : Res :=
  act s fun s =>
    if !s.belay.claim || s.belay.seen || s.belay.laser || s.ts.run < max s.belay.claimAt s.belay.freeAt + 2 * microsecond then s
    else
      let s := { s with belay := { s.belay with laser := true } }
      if s.isStandby then
        let s := s.partnerFallen.roleChange .active s.pr.cause
        { s with pr := { s.pr with promoted := some s.ts.frame } }.imhPromoted
      else s

/-! ### Hello (R401, R404, R405) -/

/-- A tree with port_en = 1 whose |skew_rt| exceeds 2 µs (R386). -/
def State.skewBad (s : State) : Bool :=
  (List.range 64).any (fun p => s.on F.TP_CTRL_port_en p && decide (20000 < (s.skewRt p).natAbs))

/-- Why no pair link may form with the neighbour, as event 0x8006 codes it. -/
def State.pairConflict (s : State) (h : HelloMsg) : Option Nat :=
  let own := s.glb.role.code
  if h.accept.toNat != (if s.on F.GLB_FEAT_LOCK_lock then s.rd F.GLB_FEAT_ACCEPT_accept else 0) then some 0
  else if h.level.toNat != s.glb.level then some 1
  else if own + h.role.toNat != 3 || !(h.role.toNat == 1 || h.role.toNat == 2) then some 2
  else if h.pairId.toNat % 2 == s.pw.straps.pairId.toNat % 2 then some 3
  else if s.skewBad then some 4 else none

/-- The pair link ends over a conflict: no cairns flow, sync reads 0, and an active whose link it was has lost its protection (R409). -/
def State.pairRefuse (s : State) (c : Nat) : State :=
  let had := s.pr.pairLink.isSome
  let s := s.when (s.pr.pairBad != some c) (·.raise 9 0 0x8006 c)
  let s := { s with pr := { s.pr with pairBad := some c, pairLink := none, asked := none, waiting := [], snap := [] } }.setSync 0
  s.when had (·.loseProtection 2)

/-- The latencies of every tree port, as a latency message carries them (R385). -/
def State.latencies (s : State) : List Nat :=
  (List.range 64).flatMap (fun q => [q, s.rd F.TS_PORT_LAT_lat_in q, s.rd F.TS_PORT_LAT_lat_eg q])

/-- A standby tells a new partner every preset state that is not empty (R378). (DEDUCED, safe: log entry 131.) -/
def State.presetsTell (s : State) : State :=
  s.presets.foldl (fun s e => if e.2.st == .empty then s
    else s.sendCairn (.change (.preset (Fin.ofNat 16384 e.1) (BitVec.ofNat 2 e.2.st.code)))) s

/-- The pair link forms on rope port p (R383, R385, R400, R401): latencies go to the partner; a standby tells its preset states and asks for a
snapshot, an active forgets what a partner before had trained. Each direction's cn goes on (R379); what the other one's was before is
forgotten. -/
def State.pairForms (s : State) (p : Nat) : State :=
  let s := { s with pr := { s.pr with
    pairLink := some p, cnApplied := none, cnHigh := 1, waiting := [], snap := []
    stamps := if s.isStandby then [] else s.pr.stamps.filter (fun e => e.1 % 16 != 6) } }
  let s := s.ropeSend p 0x04 s.latencies
  if s.isStandby then s.presetsTell.askSnapshot
  else { s with presets := s.presets.mapAll {} (fun _ x => { x with peer := .empty }) }.setSync 1

/-- A hello of the device that may be the partner. -/
def State.pairHello (s : State) (p : Nat) (h : HelloMsg) : State :=
  if !s.feat 7 || !s.glb.modeIn || s.rd F.PR_PAIR_CFG_pair_port != p || !(s.glb.role == .active || s.glb.role == .standby) then s
  else match s.pairConflict h with
    | some c => s.pairRefuse c
    | none =>
      let s := { s with pr := { s.pr with pairBad := none } }
      if s.pr.pairLink.isSome then s else s.pairForms p

/-- A new neighbour on rope port p is told every serial number known to be bound, here or on a member (R408). -/
def State.registryTell (s : State) (p : Nat) : State :=
  let own := s.ctxs.filterMap (fun e => e.2.sn.map (fun n => (s.cascId, n)))
  (own ++ s.pr.registry).foldl (fun s e => s.ropeSend p 0x40 [1, e.1, e.2, 1]) s

/-- The neighbour as a member of the cascade. (DEDUCED, unsafe: log entry 72.) -/
def State.cascHello (s : State) (p : Nat) (h : HelloMsg) : State :=
  let k := h.cascId.toNat
  let m := s.pr.members.get {} k
  let rest := s.pr.members.filter (fun e => !(e.2.port == p && e.2.hops == 1))
  let q := h.anchorSel && (h.role.toNat == 0 || h.role.toNat == 1)
  let new := !s.pr.members.any (fun e => e.1 == k && e.2.port == p && e.2.hops == 1)
  let l := if s.cascOn && h.cascEn then Tab.set {} rest k { m with hops := 1, qualifies := q, port := p, at_ := s.ts.run } else rest
  let s := { s with pr := { s.pr with members := l } }.elect
  s.when (new && s.cascWorks && h.cascEn) (·.registryTell p)

/-- HELLO. -/
def execHello (rp : Fin 2) (h : HelloMsg) (s : State) : Res :=
  act s fun s =>
    if s.blkDown 9 || !s.ropeUp rp then s
    else ((s.setRope rp { s.rope rp with hello := some h }).cascHello rp h).pairHello rp h

/-- HELLO_SEND. -/
def execHelloSend (rp : Fin 2) (s : State) : Res :=
  act s fun s => s.ropeSend rp 0x01 [s.pw.straps.pairId.toNat, s.cascId, s.rd F.PR_CASC_CFG_casc_en, s.glb.level, s.glb.role.code,
    if s.on F.GLB_FEAT_LOCK_lock then s.rd F.GLB_FEAT_ACCEPT_accept else 0, b2n s.pw.straps.anchorSel]

/-- A condition that holds since the run count given has lasted for a time. -/
def State.lasted (s : State) (since : Option Nat) (time : Nat) : Bool := since.any (fun t => decide (t + time ≤ s.ts.run))

/-- A standby that has never been synchronised has reported its partner absent, and PR_PEER_HEALTH reads 0 (R390, R424). -/
def State.partnerAbsent (s : State) : Bool := s.isStandby && s.pr.absent && !s.pr.everSync && s.peerHealth == 0

/-- An active's own time_ok reads 0 and the partner's 1 (R424). -/
def State.timeWorse (s : State) : Bool := s.isActive && !s.timeOk && bit s.peerHealth 12

/-! ### Health (R388 to R390, R394) -/

/-- HEALTH_RECORD of the partner. -/
def execHealthRecord (rec : Word) (s : State) : Res :=
  act s fun s =>
    if s.blkDown 9 || !s.feat 7 || !s.glb.modeIn then s
    else
      let s := { s with pr := { s.pr with peer := some rec.toNat, peerAt := s.ts.run, silent := false } }
      let s :=
        if !s.isActive || s.pr.pairLink.isNone then s
        else if bit rec.toNat 6 then s.setSync 3
        else if s.pr.sync = 3 then (s.setSync 1).loseProtection 1 else s
      s.autoYield.tryTakeover

/-- HEALTH_RECORD_SEND. -/
def execHealthRecordSend (s : State) : Res := act s fun s => if s.blkDown 9 then s else s.healthSend

/-- HEALTH_TIMEOUT: no record has arrived for health_to; an active has a synchronised standby no more (R388, R409). -/
def execHealthTimeout (s : State) : Res :=
  act s fun s =>
    if !s.feat 7 || !s.glb.modeIn || s.pr.silent || (s.ts.run - s.pr.peerAt) / 2 ^ 40 < s.healthTo then s
    else
      let s := ({ s with pr := { s.pr with silent := true } }).loseProtection 0
      (s.when (s.isActive && s.pr.sync == 3) (·.setSync 1)).tryTakeover

/-- BELOW_FLOOR_HELD: below_floor has stood for 1 ms, a yield-class fault (R388). -/
def execBelowFloorHeld (s : State) : Res :=
  act s fun s =>
    if !s.on F.GLB_PACE_below_floor || !s.lasted s.lasting.floor millisecond then s
    else ({ s with pr := { s.pr with floorHeld := true } }.healthSend).autoYield

/-- LANE_LOSS (R437): the trees of a lost PON lane may make the active yield (R394). -/
def execLaneLoss (l : LaneNo) (c : LossCause) (s : State) : Res := act s fun s => (s.laneLost l c).autoYield

/-! ### Time over the rope (R402, R403, R407) -/

/-- A stamp with its wrap count, in 2^-24 ns. -/
def stampNs24 (n : Nat) : Int := (n % 256 : Nat) * 2 ^ 56 + (n / 256 : Nat)

/-- The difference of two stamps in 2^-24 ns, signed over all the wrap counts. -/
def stampDiff (a b : Nat) : Int := signed 64 (wrapTo 64 (stampNs24 a - stampNs24 b))

/-- The time base steers toward the sender: a step beyond 1 µs, of less than 2^31 ns at a time (R355), else a slew whose size the
spec leaves open. A return from holdover steps at once. (DESIGN CHOICE, safe: log entry 70.) -/
def State.steer (s : State) (off : Int) : State :=
  let off := max (-(2 ^ 55 - 2 ^ 24)) (min off (2 ^ 55 - 2 ^ 24))
  let step := fun (s : State) => { s with ts := { s.ts with step := some (-off) } }.wr F.TS_STATUS_adj_busy 1
  if s.pr.holdover then
    (step { s with pr := { s.pr with holdover := false } }).raise 9 0 0x8023 (wrapTo 32 (satSigned 32 (-off / 2 ^ 24)))
  else if 1000 * 2 ^ 24 < off.natAbs then step s
  else
    let nom := 0x066E172D4CE8
    let lo := nom - nom / 10000
    { s with ts := { s.ts with incrNext := some (lo + Config.free 5 s.fresh % (nom / 5000)) } }.tickFresh

/-- The frame-slip event, once per crossing of 50 ns. (DEDUCED, unsafe: log entry 51.) -/
def State.slipCheck (s : State) (off : Int) : State :=
  let slip := decide (50 * 2 ^ 24 < off.natAbs)
  let was := s.pr.slip
  let s := { s with pr := { s.pr with slip := slip } }
  s.when (slip && !was) (·.raise 9 0 0x8024 (wrapTo 32 (satSigned 32 (off / 2 ^ 24))))

/-- TIME_MESSAGE: the sender's stamp, the arrival it echoes, this device's stamp of the arrival. -/
def execTimeMessage (rp : Fin 2) (sent echo arrived : Nat) (s : State) : Res :=
  act s fun s =>
    let x := s.rope rp
    if s.blkDown 9 || !s.ropeUp rp then s
    else
      let asym : Int := signed 16 (s.rd F.PR_ROPE_ASYM_rope_asym rp)
      let trip := stampDiff arrived x.sentAt - stampDiff sent echo
      let delay := trip / 2 + asym * 2 ^ 24 / 10
      let off := stampDiff arrived sent - delay
      let s := s.setRope rp { x with arrival := arrived, delay := delay.toNat, offset := off }
      if s.followPort == some rp.val then (s.steer off).slipCheck off else s

/-- TIME_MESSAGE_SEND. -/
def execTimeMessageSend (rp : Fin 2) (s : State) : Res :=
  act s fun s =>
    if !s.ropeUp rp then s
    else (s.setRope rp { s.rope rp with sentAt := s.stamp }).ropeSend rp 0x03 [s.stamp, (s.rope rp).arrival]

/-- HOLDOVER_ENTER. -/
def execHoldoverEnter (s : State) : Res :=
  act s fun s =>
    if !s.glb.modeIn || s.glb.role != .follower || s.pr.holdover || s.followPort.isSome
        || !s.lasted s.lasting.path millisecond then s
    else { s with pr := { s.pr with holdover := true } }.raise 9 0 0x8022 0

/-! ### Latencies (R385, R386) -/

/-- The skews have changed: a skew too large ends the pair link. -/
def State.skewCheck (s : State) : State := if s.pr.pairLink.isSome && s.skewBad then s.pairRefuse 4 else s

/-- PORT_LATENCIES of the partner. -/
def execPortLatencies (lats : List (Port × BitVec 16 × BitVec 16)) (s : State) : Res :=
  act s fun s =>
    if s.regsOff 9 || !s.feat 7 then s
    else
      let l := lats.foldl (fun (t : Tab (Nat × Nat)) e => (t.erase e.1.val).insert e.1.val (e.2.1.toNat, e.2.2.toNat)) s.pr.peerLat
      { s with pr := { s.pr with peerLat := l } }.skewCheck

/-! ### Pair commands (R371, R390, R393) -/

/-- A PR_PAIR_CMD command: absent without feature 7, 6 for another requester than the owner. f answers the state and the result. -/
def State.pairCmd (s : State) (r : Requester) (f : State → State × Nat) : State :=
  match r with
  | .vf _ => s
  | _ =>
    if s.regsOff 9 || !s.feat 7 then s
    else if !s.owns r then (s.wr F.PR_PAIR_STATUS_not_owner 1).wr F.PR_PAIR_CMD_STATUS_result 6
    else
      let (s', n) := f s
      s'.wr F.PR_PAIR_CMD_STATUS_result n

/-- PAIR_QUERY. -/
def execPairQuery (r : Requester) (s : State) : Res := act s fun s => s.pairCmd r fun s => (s, 0)

/-- PAIR_YIELD: 2 on any other than an active in RUN, 1 while a yield is under way, 3. -/
def execPairYield (r : Requester) (s : State) : Res :=
  act s fun s => s.pairCmd r fun s =>
    if !s.isActive || s.glb.dev != .run then (s, 2)
    else if s.pr.yieldAt.isSome then (s, 1)
    else
      let (s', ok) := s.yieldNow 2
      (s', if ok then 0 else 3)

/-- PAIR_TAKE: 2 on any other than a standby in RUN, 4 while the partner claims. -/
def execPairTake (r : Requester) (s : State) : Res :=
  act s fun s => s.pairCmd r fun s =>
    if !s.isStandby || s.glb.dev != .run then (s, 2)
    else if s.belay.seen then (s, 4)
    else (s.beginTakeover 4, 0)

/-- PAIR_RESYNC. -/
def execPairResync (r : Requester) (s : State) : Res :=
  act s fun s => s.pairCmd r fun s => if !s.isStandby then (s, 2) else (s.askSnapshot, 0)

/-- PAIR_OP, Imhus's door to the pair commands (R414). -/
def execPairOp (s : State) : Res :=
  act s fun s => s.mbx 0x40 [1, 2] false false fun s =>
    let op := s.mbxByte 0
    if s.mbxLen = 0 || 4 ≤ op then (s, if s.mbxLen = 0 then 4 else 5, [])
    else
      let s := s.doing (if op = 0 then execPairQuery .guide else if op = 1 then execPairYield .guide
        else if op = 2 then execPairTake .guide else execPairResync .guide)
      (s, s.rd F.PR_PAIR_CMD_STATUS_result, [])

/-- YIELD_INSTANT: at frame instant m the lasers fall and the claim is released; the standby takes over.
(DEDUCED, unsafe: log entry 45.) -/
def execYieldInstant (s : State) : Res :=
  act s fun s => match s.pr.yieldAt with
    | none => s
    | some (m, c) =>
      if !reached s.ts.frame m || !s.isActive then s
      else { s with belay := { s.belay with claim := false, laser := false } }.roleChange .standby c

/-- REVERT_HOLD_EXPIRE (R395). -/
def execRevertHoldExpire (s : State) : Res :=
  act s fun s => match s.pr.revertFrom with
    | none => s
    | some t =>
      let hold := max 1 (s.rd F.PR_PAIR_CFG_revert_hold) * 10 ^ 9
      if (s.ts.run - t) / 2 ^ 40 < hold || !s.isActive || !s.mayRevert || s.pr.yieldAt.isSome then s
      else (s.yieldNow 3).1

/-- TAKE_UNSYNCED (R424). -/
def execTakeUnsynced (s : State) : Res :=
  act s fun s =>
    if s.imhDecides && s.isStandby && s.imh.takeUnsynced && s.partnerAbsent && s.lasted s.lasting.absent second
    then s.doing (execPairTake .guide) else s

/-- TIME_OK_YIELD (R424). -/
def execTimeOkYield (s : State) : Res :=
  act s fun s =>
    if s.imhDecides && s.glb.level == 2 && s.timeWorse && s.lasted s.lasting.time second
    then s.doing (execPairYield .guide) else s

/-! ### Rope frames (R396 to R400) -/

/-- An errored frame: counted, its payload and the message it cut discarded; the third in a row loses alignment, and while aligning the
frames must begin anew (R397). -/
def State.ropeErrored (s : State) (p : Nat) : State :=
  let x := s.rope p
  let s := (s.bump F.PR_ROPE_ERR_errored 1 p).count 9 2 p
  let x := { x with
    good := 0, bad := x.bad + 1, part := [], count := if x.st = 2 then x.count.map (fun n => (n + 1) % 512) else none }
  if x.bad < 3 || x.st != 2 then s.setRope p x
  else (((s.setRope p { x with st := 1, count := none }).bump F.PR_ROPE_ERR_losses 1 p).raise 9 p 0x8011 0).ropeFell p

/-- A good frame: the fourth in a row confirms alignment, and an aligned link delivers its payload, of which each complete message of a listed
type is taken (R397, R398). What it carries comes by the rows of the opcode table. -/
def State.ropeGood (s : State) (p n : Nat) (lanes : List (List Nat)) : State :=
  let x := s.rope p
  let x := { x with good := x.good + 1, bad := 0, count := some n }
  if x.st = 2 then
    let r := (ropeSymbols lanes).foldl RopeRx.take ⟨x.part, []⟩
    let s := (s.setRope p { x with part := r.part }).meter (192 + p) (506 * lanes.length)
    { s with out := r.done.map (fun m => .heard p m.1 m.2) ++ s.out }
  else if 4 ≤ x.good then (s.setRope p { x with st := 2, part := [] }).raise 9 p 0x8010 x.lanes.length
  else s.setRope p x

/-- The lanes of the stripe of rope port p, with the groups that each receives. -/
def State.stripe (s : State) (p : Nat) (lanes : List (List (BitVec 20))) : List (Nat × List (BitVec 20)) :=
  ((s.rope p).lanes.map (fun i => 160 + p * 8 + i)).zip lanes

/-- The words that each lane of the stripe decodes from its groups (R430); the PCS of a lane in a loop sees none of them (R442). -/
def State.ropeWords (s : State) (p : Nat) (lanes : List (List (BitVec 20))) : List (List Nat) :=
  (s.stripe p lanes).map (fun e => if s.on F.SL_LANE_CTRL_loop e.1 then [] else ((s.lane e.1).receive e.2).words.reverse)

/-- The receivers of the stripe's lanes after these groups; one that saw 16 invalid groups in 64 has lost group lock (R431, R437). A far-end loop
sends them back as they came (R442). -/
def State.ropeReceive (s : State) (p : Nat) (lanes : List (List (BitVec 20))) : State :=
  (s.stripe p lanes).foldl (fun s e =>
    match s.rd F.SL_LANE_CTRL_loop e.1 with
    | 0 =>
      let r := (s.lane e.1).receive e.2
      (s.setLane e.1 { s.lane e.1 with descr := r.st, seen := r.seen }).when r.lost (·.laneLost e.1 .group)
    | 3 => s.emit (.groups e.1 (e.2.map (·.toNat)))
    | _ => s) s

/-- A frame's words judged: good in sequence and whole on every lane, or errored (R397). -/
def State.ropeJudge (s : State) (p : Nat) (ws : List (List Nat)) : State :=
  let x := s.rope p
  let n := (ws.headD []).headD 0 % 512
  let seq := match x.count with
    | none => true
    | some c => n == (c + 1) % 512
  if seq && ws.length == x.lanes.length && ws.zipIdx.all (fun e => ropeLaneOk e.2 n e.1) then s.ropeGood p n ws else s.ropeErrored p

/-- ROPE_FRAME: 256 groups of each lane of the stripe (R396 to R398). (DEDUCED, unsafe: log entry 71.) -/
def execRopeFrame (rp : Fin 2) (lanes : List (List (BitVec 20))) (s : State) : Res :=
  act s fun s =>
    let x := s.rope rp
    if s.blkDown 9 || x.lanes.isEmpty || !(x.st == 1 || x.st == 2) then s
    else (s.ropeJudge rp (s.ropeWords rp lanes)).ropeReceive rp lanes

/-- RESTRIPE_COMPLETE (R399). -/
def execRestripeComplete (rp : Fin 2) (s : State) : Res :=
  act s fun s =>
    let x := s.rope rp
    if !x.restripe then s
    else ((s.setRope rp { x with restripe := false }).bump F.PR_ROPE_ERR_restripes 1 rp).raise 9 rp 0x8012 x.lanes.length

/-- ROPE_PARTNER_ABSENT (R400): its lanes retrain 1 s later (LANE_RETRAIN). -/
def execRopePartnerAbsent (rp : Fin 2) (s : State) : Res :=
  act s fun s =>
    let x := s.rope rp
    if !(x.st == 0 || x.st == 1) || s.ts.run < x.from_ + 200 * millisecond then s
    else (s.setRope rp { x with st := 3, good := 0, bad := 0, count := none, from_ := s.ts.run }).raise 9 rp 0x8008 0

/-! ### The cascade (R406, R408) -/

/-- CASCADE_MESSAGE: what it tells is kept, and goes on by the other port unless it has been heard nearer. A device in a conflict still
hears who is there, and relays nothing; a record under its own casc_id is another device's (R404).
(DEDUCED, safe: log entries 49 and 135.) -/
def execCascadeMessage (rp : Fin 2) (m : CascMsg) (s : State) : Res :=
  act s fun s =>
    if s.blkDown 9 || !s.cascOn || !s.ropeUp rp then s
    else match m with
      | .health k rec hops q =>
        let n := k.toNat
        let h := hops.toNat + 1
        let old := s.pr.members.get {} n
        if 3 < h || (s.memberFresh old && decide (old.hops < h)) then s
        else
          let x : Member := { record := rec.toNat, hops := h, qualifies := q, port := rp, at_ := s.ts.run }
          let go := s.cascWorks && n != s.cascId
          let s := { s with pr := { s.pr with members := s.pr.members.set {} n x } }
          (s.when go (·.ropeSend (1 - rp) 0x40 [0, n, rec.toNat, h, b2n q])).elect
      | .registry k sn bound =>
        let e := (k.toNat, sn.toNat)
        if !s.cascWorks || k.toNat = s.cascId || s.pr.registry.contains e == bound then s
        else
          let l := if bound then e :: s.pr.registry else s.pr.registry.filter (· != e)
          { s with pr := { s.pr with registry := l } }.ropeSend (1 - rp) 0x40 [1, k.toNat, sn.toNat, b2n bound]

end Sys2Proof.Machine
end

