-- ==== Sys2Proof/Machine/Pw.lean ====
section
/-! DEFINITION. Supply voltage, temperature and supplies (R507 to R509, R526). -/

namespace Sys2Proof.Machine

/-- The voltage moved by d mV, within v_min to v_max (R507). -/
def State.avsMove (s : State) (d : Int) : State :=
  let v := (s.rd F.PW_AVS_STATUS_v_now : Int) + d
  let lo : Int := s.rd F.PW_AVS_LIMIT_v_min
  let hi : Int := s.rd F.PW_AVS_LIMIT_v_max
  s.wr F.PW_AVS_STATUS_v_now (max lo (min hi v)).toNat

/-- The monitors' margins as read. -/
def State.readMargins (s : State) (ms : List (BitVec 16)) : State :=
  ms.zipIdx.foldl (fun s e => if 48 ≤ e.2 then s else s.wr F.PW_MON_margin e.1.toNat e.2) s

/-- THERM_ALERT_N is driven low while the warn bit is 1 (R509). -/
def State.thermAlertN (s : State) : Bool := !s.on F.PW_THERM_STATUS_warn

/-- AVS_PERIOD, every 20 µs, or at once where a monitor reads 0. The loop acts on the least margin: +20 mV where a monitor reads 0, +5 mV below margin_lo, −5 mV after 10
periods in a row above margin_hi; a transaction that succeeds ends a bus fault (R507, R508). -/
def execAvsPeriod (margins : List (BitVec 16)) (current : BitVec 14) (s : State) : Res :=
  act s fun s =>
    let early := decide (s.ts.run < s.pw.avsDue)
    let old := s
    let s := s.readMargins margins
    if early && s.rd F.PW_MON_margin s.worstMon != 0 then old
    else
    let s := s.when (!early) (fun s => { s with pw := { s.pw with avsDue := s.ts.run + 20 * microsecond } })
    let s := (s.wr F.PW_AVS_STATUS_bus_fault 0).wr F.PW_AVS_STATUS_i_now current.toNat
    let m := s.rd F.PW_MON_margin s.worstMon
    let lo := s.rd F.PW_AVS_CFG_margin_lo
    let n := if s.rd F.PW_AVS_CFG_margin_hi < m then s.pw.avsHigh + 1 else 0
    let was := s.on F.PW_AVS_STATUS_at_max
    let s := { s with pw := { s.pw with avsHigh := if 10 ≤ n then 0 else n } }
    let s := if m = 0 then s.avsMove 20 else if m < lo then s.avsMove 5 else if 10 ≤ n then s.avsMove (-5) else s
    let top := decide (m < lo) && decide (s.rd F.PW_AVS_LIMIT_v_max ≤ s.rd F.PW_AVS_STATUS_v_now)
    let s := s.wr F.PW_AVS_STATUS_at_max (b2n top)
    s.when (top && !was) (·.raise 14 s.worstMon 0xD012 m)

/-- AVS_BUS_FAULT. A third failure freezes the voltage (R508). -/
def execAvsBusFault (s : State) : Res :=
  act s fun s => if s.on F.PW_AVS_STATUS_bus_fault then s
    else (s.wr F.PW_AVS_STATUS_bus_fault 1).raise 14 0 0xD011 (s.rd F.PW_AVS_STATUS_v_now)

/-- The hottest of the sensors, the lowest among equals: sensor and reading. -/
def hottest (ts : List (BitVec 8)) : Nat × Int :=
  (ts.zipIdx.foldl (fun m e => match m with
    | none => some (e.2, signed 8 e.1.toNat)
    | some (i, v) => some (if v < signed 8 e.1.toNat then (e.2, signed 8 e.1.toNat) else (i, v))) none).getD (0, 0)

/-- THERMAL_SAMPLE, every 10 µs (R509). At or above trip the watch domain takes the device to SAFE. -/
def execThermalSample (temps : List (BitVec 8)) (s : State) : Res :=
  act s fun s => if s.ts.run < s.pw.thermDue then s else
    let s := { s with pw := { s.pw with thermDue := s.ts.run + 10 * microsecond } }
    let (i, v) := hottest temps
    let warn : Int := s.rd F.PW_THERM_CFG_warn
    let s := ((s.wr F.PW_THERM_STATUS_sensor i).wr F.PW_THERM_STATUS_temp (wrapTo 8 v)).wr F.PW_THERM_STATUS_warn
      (b2n (decide (warn ≤ v)))
    let s := if warn ≤ v && !s.pw.warnHeld then
        ({ s with pw := { s.pw with warnHeld := true } }.wr F.PW_THERM_STATUS_warn_seen 1).raise 14 i 0xD020 (wrapTo 32 v)
      else if v ≤ warn - 3 && s.pw.warnHeld then
        { s with pw := { s.pw with warnHeld := false } }.raise 14 i 0xD021 (wrapTo 32 v)
      else s
    s.when (decide ((s.rd F.PW_THERM_CFG_trip : Int) ≤ v)) (·.toSafe 3 false)

/-- SUPPLY_FAIL. LASER_EN falls, the belay is released, the device is held in reset (R526, R532). -/
def execSupplyFail (s : State) : Res :=
  .next { s with belay := { s.belay with claim := false, laser := false }, pw := { s.pw with held := true } }

end Sys2Proof.Machine
end

