-- ==== Sys2Proof/Machine/RegView.lean ====
section
/-! DEFINITION. What a read of a register field gives (R5 to R7, R21, R52): the fields that show state of a block, the fields of
absent features and of blocks that are down, and every other field from the field store. LOWER_SLOT_READ and MANAGEMENT_READ. -/

namespace Sys2Proof.Machine

/-- A field that shows state, with its value by element. -/
abbrev View := List (Fld × (Nat → Nat))

/-- The four fields of a commit register (R30, R34). -/
def State.commitView (s : State) (o : GenObj) (st rv rg cg : Fld) : View :=
  let g := s.gen o
  [(st, fun _ => g.status), (rv, fun _ => b2n g.ret.isSome), (rg, fun _ => g.ret.getD 0), (cg, fun _ => g.cur)]

/-- The numbers below n that a predicate holds of, as a bit mask. -/
def maskOf (n : Nat) (f : Nat → Bool) : Nat := ((List.range n).map (fun i => b2n (f i) * 2 ^ i)).sum

def State.viewGlb (s : State) : View :=
  [(F.GLB_MODE_cur_mode_valid, fun _ => b2n s.glb.modeIn), (F.GLB_MODE_cur_mode, fun _ => s.curMode),
   (F.GLB_STATE_busy, fun _ => b2n s.glb.move.isSome), (F.GLB_STATE_state, fun _ => s.glb.dev.code),
   (F.GLB_PACE_worst_monitor, fun _ => s.worstMon), (F.GLB_PACE_margin, fun _ => s.rd F.PW_MON_margin s.worstMon),
   (F.GLB_EVSEQ_last_evseq, fun _ => s.evu.seq), (F.GLB_ID_pair_id, fun _ => s.pw.straps.pairId.toNat),
   (F.GLB_MBX_STATUS_pending, fun _ => s.imh.pend.length), (F.GLB_MBX_STATUS_halted, fun _ => b2n (!s.imh.halted.isEmpty)),
   (F.GLB_MBX_STATUS_running, fun _ => b2n s.imhRuns)]

def State.viewTp (s : State) : View :=
  [(F.TP_CTRL_pair_en, fun p => if s.feat 1 && p % 2 == 0 then s.rd F.TP_CTRL_pair_en p else 0),
   (F.TP_CTRL_pair_us_shared, fun p => if p % 2 == 0 then s.rd F.TP_CTRL_pair_us_shared p else 0),
   (F.TP_STATUS_paired, fun p => b2n (s.paired p)), (F.TP_STATUS_laser_on, fun _ => b2n s.belay.laser),
   (F.TP_STATUS_running, fun p => b2n (s.port p).framing),
   (F.TP_SFC_sfc, fun p => if (s.port p).framing then (s.port p).sfc else s.rd F.TP_SFC_sfc p)]

def State.viewUb (s : State) : View :=
  [(F.UB_DEC_STATUS_soft, fun _ => b2n (s.feat 3)), (F.UB_TREE_STATUS_running, fun p => b2n (s.receiving p)),
   (F.UB_TREE_STATUS_idle, fun p => if s.sharedOdd p then 1 else s.rd F.UB_TREE_STATUS_idle p),
   (F.UB_TREE_STATUS_shared, fun p => b2n (s.sharedUs p && p % 2 == 0))]

def State.viewGe (s : State) : View :=
  let t := s.rd F.GE_CTX_STATUS_term
  [(F.GE_CTX_STATUS_state, fun _ => (s.ctx t).st.code), (F.GE_TERM_EQD_eqd, fun _ => wrapTo 32 (s.ctx t).eqd),
   (F.GE_TERM_RTD_rtd, fun _ => if (s.ctx t).st == .operating || (s.ctx t).st == .lost then wrapTo 32 (s.rtd t) else 0),
   (F.GE_TERM_DRIFT_drift, fun _ => wrapTo 16 (satSigned 16 (s.ctx t).c)),
   (F.GE_TERM_DRIFT_pending, fun _ => b2n (s.ctx t).corr.isSome),
   (F.GE_POOL_STATUS_free, fun _ => 16384 - s.taken.length), (F.GE_POOL_STATUS_unreserved_free, fun _ => s.unreservedFree),
   (F.GE_DISC_STATUS_suspended, fun p => b2n (s.treeHas p 2)),
   (F.GE_DISC_STATUS_found, fun p => b2n (!(s.actTree (s.treeNo p)).found.isEmpty)),
   (F.GE_TREE_STATUS_engine, fun p => s.engineOf p), (F.GE_ENG_FENCED_fenced, fun _ => maskOf 17 (fun e => s.fenced (.engine e))),
   (F.GE_ENG_BIST_running, fun _ => b2n ((List.range 17).any s.bistRuns))]
  ++ s.commitView .grant F.GE_PROG_COMMIT_status F.GE_PROG_COMMIT_retiring_valid F.GE_PROG_COMMIT_retiring_gen F.GE_PROG_COMMIT_cur_gen

def State.viewPc (s : State) : View :=
  [(F.PC_STATUS_active, fun _ => sat 0xFF ((List.range 128).filter s.coreActive).length),
   (F.PC_STATUS_half_b_down, fun _ => b2n (s.domDown 9)), (F.PC_STATUS_half_a_down, fun _ => b2n (s.domDown 8)),
   (F.PC_CORE_FENCED_fenced, fun k => maskOf 32 (fun i => s.fenced (.core (32 * k + i))))]
  ++ s.commitView .parse F.PC_PROG_COMMIT_status F.PC_PROG_COMMIT_retiring_valid F.PC_PROG_COMMIT_retiring_gen F.PC_PROG_COMMIT_cur_gen

def State.viewCl (s : State) : View :=
  [(F.CL_STATUS_pinned, fun _ => sat (2 ^ 17 - 1) (s.pinnedBut 32)),
   (F.CL_MODE_cache_only, fun _ => b2n (s.on F.GLB_FEAT_LOCK_lock && s.cacheOnly))]
  ++ s.commitView .rules F.CL_RULE_COMMIT_status F.CL_RULE_COMMIT_retiring_valid F.CL_RULE_COMMIT_retiring_gen F.CL_RULE_COMMIT_cur_gen

def State.viewQs (s : State) : View :=
  s.commitView .shapers F.QS_SHAPE_COMMIT_status F.QS_SHAPE_COMMIT_retiring_valid F.QS_SHAPE_COMMIT_retiring_gen F.QS_SHAPE_COMMIT_cur_gen
  ++ s.commitView .gates F.QS_GATE_COMMIT_status F.QS_GATE_COMMIT_retiring_valid F.QS_GATE_COMMIT_retiring_gen F.QS_GATE_COMMIT_cur_gen

def State.viewBm (s : State) : View :=
  [(F.BM_OCC_occ, fun _ => s.occ), (F.BM_STATUS_spill_blocked, fun _ => b2n s.bm.blocked),
   (F.BM_STATUS_spilling, fun _ => b2n s.bm.spilling), (F.BM_STATUS_deep_degraded, fun _ => b2n (!s.bm.degraded.isEmpty)),
   (F.BM_STATUS_relocating, fun _ => b2n s.bm.relocating.isSome), (F.BM_STATUS_testing, fun _ => b2n s.bm.test.isSome),
   (F.BM_STATUS_deep_down, fun _ => b2n (s.domDown 11)),
   (F.BM_SPILL_STATUS_latched, fun _ => (s.qs.queues.filter (·.2.latched)).length),
   (F.BM_REPAIR_retired, fun _ => sat 0xFFFF s.bm.retired.length), (F.BM_REPAIR_repaired, fun _ => sat 0xFFFF s.bm.repaired.length),
   (F.BM_SPILL_FREE_free_pages, fun _ => s.freePages), (F.BM_DEEP_FENCED_fenced, fun _ => maskOf 16 s.subFenced),
   (F.BM_SCRUB_STATUS_progress, fun _ => sat 255 (s.bm.deep.done * 256 / max 1 s.deepLines))]

def State.viewTs (s : State) : View :=
  let p := s.rd F.TS_TOD_STATUS_port
  [(F.TS_STATUS_slaved, fun _ => b2n s.slaved), (F.TS_NOW_now, fun _ => s.stamp), (F.TS_FRAME_STAMP_stamp, fun _ => s.ts.frameStamp),
   (F.TS_FRAME_CNT_count, fun _ => s.ts.frameCap.getD s.ts.frame),
   (F.TS_WRAP_LAST_evseq, fun _ => s.ts.wrapLast / 2 ^ 32), (F.TS_WRAP_LAST_dir, fun _ => s.ts.wrapLast / 2 ^ 31),
   (F.TS_WRAP_LAST_count, fun _ => s.ts.wrapLast), (F.TS_WRAP_PREV_evseq, fun _ => s.ts.wrapPrev / 2 ^ 32),
   (F.TS_WRAP_PREV_dir, fun _ => s.ts.wrapPrev / 2 ^ 31), (F.TS_WRAP_PREV_count, fun _ => s.ts.wrapPrev),
   (F.TS_TOD_STATUS_pending, fun _ => b2n (s.todOf p).pending), (F.TS_TOD_STATUS_final, fun _ => b2n (s.todOf p).final),
   (F.TS_TOD_REC_record, fun _ => (s.todOf p).record), (F.TS_PORT_ASYM_asym, fun k => wrapTo 32 (s.asym k))]

/-- The age of the partner's last record in µs. -/
def State.peerAge (s : State) : Nat := if s.pr.peer.isNone then 0xFFFF else sat 0xFFFF ((s.ts.run - s.pr.peerAt) / 2 ^ 40 / 1000)

/-- The fields of a health record. -/
def healthView (fs : List Fld) (v : Nat) : View := fs.map (fun f => (f, fun _ => v / 2 ^ f.lo))

/-- PR_CASC_MEMBER: the anchor shows its members' records, its own included (R408). -/
def State.memberShown (s : State) (i : Nat) : Nat :=
  if !s.cascWorks || s.pr.anchor != some s.cascId then 0
  else if i = s.cascId then s.health
  else match s.reachable.find? (fun e => e.1 == i) with
    | some e => e.2.record
    | none => 0

def State.viewPr (s : State) : View :=
  [(F.PR_PAIR_STATUS_sync, fun _ => s.pr.sync), (F.PR_PAIR_STATUS_revert_armed, fun _ => b2n (s.pr.revertFrom.isSome && s.mayRevert)),
   (F.PR_PAIR_STATUS_peer_seen, fun _ => b2n s.peerRec.isSome), (F.PR_PAIR_STATUS_seen, fun _ => b2n s.belay.seen),
   (F.PR_PAIR_STATUS_claim, fun _ => b2n s.belay.claim), (F.PR_PAIR_STATUS_laser_en, fun _ => b2n s.belay.laser),
   (F.PR_PAIR_STATUS_role, fun _ => if s.glb.modeIn then s.glb.role.code else 0), (F.PR_HEALTH_AGE_age, fun _ => s.peerAge),
   (F.PR_ROPE_STATUS_width, fun p => (s.rope p).lanes.length),
   (F.PR_ROPE_STATUS_lanes_up, fun p => maskOf 8 (s.rope p).lanes.contains),
   (F.PR_ROPE_STATUS_peer_casc, fun p => (((s.rope p).hello).map (·.cascId.toNat)).getD 0),
   (F.PR_ROPE_STATUS_peer_pair, fun p => (((s.rope p).hello).map (·.pairId.toNat)).getD 0),
   (F.PR_ROPE_STATUS_pair_link, fun p => b2n (s.pr.pairLink == some p)), (F.PR_ROPE_STATUS_state, fun p => (s.rope p).st),
   (F.PR_CASC_STATUS_members, fun _ => maskOf 4 (fun i => s.cascOn && (i == s.cascId || s.reachable.any (fun e => e.1 == i)))),
   (F.PR_CASC_STATUS_holdover, fun _ => b2n s.pr.holdover), (F.PR_CASC_STATUS_conflict, fun _ => b2n s.pr.conflict),
   (F.PR_CASC_STATUS_hops, fun _ => match s.pr.anchor with
      | some a => if a = s.cascId then 0 else ((s.reachable.find? (fun e => e.1 == a)).map (·.2.hops)).getD 0
      | none => 0),
   (F.PR_CASC_STATUS_anchor_valid, fun _ => b2n s.pr.anchor.isSome),
   (F.PR_CASC_STATUS_is_anchor, fun _ => b2n (s.cascWorks && s.pr.anchor == some s.cascId)),
   (F.PR_CASC_STATUS_anchor, fun _ => s.pr.anchor.getD 0), (F.PR_CASC_MEMBER_record, s.memberShown),
   (F.PR_TREE_SKEW_skew_rt, fun p => wrapTo 16 (satSigned 16 (s.skewRt p))), (F.PR_TREE_SKEW_skew_in, fun p => wrapTo 16 (satSigned 16 (s.skewIn p)))]
  ++ healthView [F.PR_HEALTH_fenced_cores, F.PR_HEALTH_failed_trees, F.PR_HEALTH_time_ok, F.PR_HEALTH_pace_ok, F.PR_HEALTH_deep_ok,
      F.PR_HEALTH_spare_ok, F.PR_HEALTH_lanes_ok, F.PR_HEALTH_selftest_ok, F.PR_HEALTH_synced, F.PR_HEALTH_yielding,
      F.PR_HEALTH_claiming, F.PR_HEALTH_state] s.health
  ++ healthView [F.PR_PEER_HEALTH_fenced_cores, F.PR_PEER_HEALTH_failed_trees, F.PR_PEER_HEALTH_time_ok, F.PR_PEER_HEALTH_pace_ok,
      F.PR_PEER_HEALTH_deep_ok, F.PR_PEER_HEALTH_spare_ok, F.PR_PEER_HEALTH_lanes_ok, F.PR_PEER_HEALTH_selftest_ok,
      F.PR_PEER_HEALTH_synced, F.PR_PEER_HEALTH_yielding, F.PR_PEER_HEALTH_claiming, F.PR_PEER_HEALTH_state] s.peerHealth

/-- A count of the FEC of uplink port k: what has come since a lane of it was enabled is free. (DESIGN CHOICE, safe: log entry 43.) -/
def State.fecCount (s : State) (f : Fld) (which k : Nat) : Nat :=
  if (s.ulLanes k).any (fun l => s.on F.SL_LANE_CTRL_en l) then sat 0xFFFF (s.rd f k + Config.lineCount which k s.ts.run s.fresh) else s.rd f k

/-- A lane that runs a loop, a generator or a checker stands in state test. (DEDUCED, unsafe: log entry 66.) -/
def State.laneShown (s : State) (l : Nat) : Nat :=
  let t := s.on F.SL_LANE_CTRL_loop l || s.on F.SL_LANE_CTRL_gen_en l || s.on F.SL_LANE_CTRL_chk_en l
  let st := (s.lane l).st
  if t && st != .off && st != .fenced then 7 else st.code

def State.viewSl (s : State) : View :=
  [(F.SL_UL_STATUS_aligned, fun k => if s.ulExists k then maskOf s.ulW (fun i => s.laneUp (128 + k * s.ulW + i)) else 0),
   (F.SL_UL_STATUS_exists, fun k => b2n (s.ulExists k)), (F.SL_UL_STATUS_up, fun k => b2n (s.ulUp k)),
   (F.SL_UL_FEC_corrected, fun k => s.fecCount F.SL_UL_FEC_corrected 1 k), (F.SL_LANE_ERRS_errors, s.laneErrs),
   (F.SL_UL_FEC_uncorrectable, fun k => s.fecCount F.SL_UL_FEC_uncorrectable 2 k),
   (F.SL_LANE_STATUS_tally, fun l => sat 0xFF (s.tally (.lane l)).total), (F.SL_LANE_STATUS_chk_lock, fun l => b2n (s.lane l).chk),
   (F.SL_LANE_STATUS_group_lock, fun l => b2n (isRope l && (s.lane l).grp)), (F.SL_LANE_STATUS_cdr_lock, fun l => b2n (s.lane l).cdr),
   (F.SL_LANE_STATUS_state, s.laneShown), (F.SL_LANE_CAL_steps, fun l => (s.lane l).steps), (F.SL_LANE_CAL_running, fun l => b2n (s.lane l).cal)]

/-- The ring is enabled and its channel serves it. -/
def State.ringServed (s : State) (r : Nat) : Bool :=
  let c := s.ringChan r
  s.ringOn r && s.on F.HD_CH_CTRL_en c && !s.fenced (.chan c) && !s.blkDown 11

/-- The HD fields that show state (R449 to R469). (DEDUCED, unsafe: log entry 67.) -/
def State.viewHd (s : State) : View :=
  [(F.HD_CH_STATUS_tally, fun c => sat 0xFF (s.tally (.chan c)).total), (F.HD_CH_STATUS_reads, fun c => (s.chanAt c).reads),
   (F.HD_CH_STATUS_preempted, fun c => b2n (s.chanAt c).preempted), (F.HD_CH_STATUS_state, fun c => (s.chanAt c).st),
   (F.HD_CH_POS_ring, fun c => ((s.chanAt c).xfer.map (·.ring)).getD 0), (F.HD_CH_POS_bytes, fun c => ((s.chanAt c).xfer.map (fun t => if s.ringKind t.ring = 0 then t.asked else t.issued)).getD 0),
   (F.HD_CH_DESC_desc, fun c => ((s.chanAt c).xfer.map (·.desc)).getD 0),
   (F.HD_RING_STATUS_full, fun r => b2n (s.ringOn r && decide (s.ringSize r - 1 ≤ s.ringAhead r))),
   (F.HD_RING_STATUS_running, fun r => b2n (s.ringServed r)), (F.HD_STATUS_vf_enabled, fun _ => b2n s.hd.vfs),
   (F.HD_RING_STATUS_chan_down, fun r => b2n (s.fenced (.chan (s.ringChan r))))]

def State.viewIc (s : State) : View :=
  [(F.IC_SRC_CFG_pending, fun n => b2n (s.ic.pend.contains n)), (F.IC_SRC_CFG_active, fun n => b2n (s.icActive n)),
   (F.IC_SRC_CFG_watched, fun n => b2n (s.watchOf n).isSome), (F.IC_TGT_STATUS_depth, fun t => sat 15 (s.icStack t).length),
   (F.IC_TGT_STATUS_cur_thresh, s.icThresh), (F.IC_TGT_STATUS_auto, fun t => b2n (s.icAuto t)),
   (F.IC_TGT_STATUS_sleeping, fun t => b2n (s.icAsleep t)), (F.IC_TGT_STATUS_deliverable, fun t => b2n (s.icBest t).isSome)]

/-- Whether bead i belongs to a block that is down: PM_BEAD_VAL then shows the last window with gone (R493). -/
def State.beadGone (s : State) (i : Nat) : Bool := s.blkDown (i / 16)

def State.viewPm (s : State) : View :=
  let b := fun i => s.pm.beads.get {} i
  let m := fun i => s.pm.meters.get {} i
  [(F.PM_RK_WINDOW_window, fun _ => s.pm.window), (F.PM_RK_STAMP_stamp, fun _ => s.pm.stamp),
   (F.PM_BEAD_VAL_epoch, fun i => if s.beadGone i then (b i).winEpoch else (b i).epoch),
   (F.PM_BEAD_VAL_gone, fun i => b2n (s.beadGone i)), (F.PM_BEAD_VAL_sat, fun i => b2n (if s.beadGone i then (b i).winSat else (b i).sat)),
   (F.PM_BEAD_VAL_value, fun i => if s.beadGone i then (b i).win else (b i).cnt), (F.PM_BEAD_WIN_epoch, fun i => (b i).winEpoch),
   (F.PM_BEAD_WIN_gone, fun i => b2n (b i).gone), (F.PM_BEAD_WIN_sat, fun i => b2n (b i).winSat), (F.PM_BEAD_WIN_value, fun i => (b i).win),
   (F.PM_RK_METER_bytes, fun i => (m i).bytes), (F.PM_RK_METER_valid, fun i => b2n (!(m i).bad && s.pm.window != 0)),
   (F.PM_RK_METER_mbps, fun i => (m i).mbps)]

def State.viewPw (s : State) : View :=
  [(F.PW_MON_domain, monDomain), (F.PW_MON_excluded, fun i => b2n (s.monOut i))]

/-- The fields of a block that show its state. (DESIGN CHOICE, safe: log entry 9.) -/
def State.views (s : State) (b : Nat) : View :=
  match b with
  | 0 => s.viewGlb | 1 => s.viewTp | 2 => s.viewUb | 3 => s.viewGe | 4 => s.viewPc | 5 => s.viewCl | 6 => s.viewQs | 7 => s.viewBm
  | 8 => s.viewTs | 9 => s.viewPr | 10 => s.viewSl | 11 => s.viewHd | 12 => s.viewIc | 13 => s.viewPm | _ => s.viewPw

/-- The value of a field of block b at element i; write-only fields read 0 (R7). -/
def State.fieldShown (s : State) (b i : Nat) (f : Fld) : Nat :=
  if f.acc = .wo then 0
  else match (s.views b).find? (fun e => e.1 == f) with
    | some e => e.2 i
    | none => s.rd f i

/-! ### Absent and down (R21, R52, R512) -/

/-- The bits that say down (R52). -/
def downFields : List Fld :=
  [F.TP_STATUS_down, F.UB_DEC_STATUS_down, F.UB_TREE_STATUS_down, F.GE_ENG_STATUS_down, F.PC_STATUS_down, F.CL_MODE_down, F.QS_STATUS_down,
   F.BM_STATUS_down, F.TS_STATUS_down, F.PR_PAIR_STATUS_down, F.SL_STATUS_down, F.HD_STATUS_down, F.IC_STATUS_down, F.PM_STATUS_down]

/-- The whole value of element i of a register in block b. -/
def State.regShown (s : State) (b : Nat) (r : RegD) (i : Nat) : Nat :=
  if s.notDecoded r.off || s.regAbsent (r.off + i * r.stride) then 0
  else if s.regDown b r.off i then r.value (fun f => b2n (downFields.contains f))
  else r.value (s.fieldShown b i)

/-! ### Reads -/

/-- What a read clears or takes: RC fields, the count that goes with a frame stamp, a free value. -/
def State.readEffects (s : State) (r : RegD) (i : Nat) : State :=
  let s := r.flds.foldl (fun s f => if f.acc = .rc then s.wr f 0 i else s) s
  if r.off = F.TS_FRAME_STAMP_stamp.off then { s with ts := { s.ts with frameCap := some s.ts.frame } }
  else if r.off = F.TS_FRAME_CNT_count.off then { s with ts := { s.ts with frameCap := none } }
  else if r.off = F.SL_LANE_ERRS_errors.off && (s.lane i).chk then s.setLane i { s.lane i with flipAt := s.ts.run }
  else s

/-- A read of a slot of BAR0 by requester r. The lower slot of a pair captures the upper half for it, and the next read of the upper
slot takes it (R6). An upper slot read with no half captured gives the half as it stands. (DESIGN CHOICE, unsafe: log entry 90.) -/
def State.slotRead (s : State) (r : Requester) (off : Nat) : State :=
  match blockAt off, regAt off with
  | some b, some (d, i, hi) =>
    let up := (r, off + 4)
    let cap := s.caps.find? (fun c => c.1 == r && c.2.1 == off)
    if hi then
      let v := match cap with
        | some c => c.2.2
        | none => halfOf true (s.regShown b d i)
      { s with rdata := v, caps := s.caps.filter (fun c => !(c.1 == r && c.2.1 == off)) }
    else
      let v := s.regShown b d i
      let live := !(s.notDecoded d.off || s.regAbsent (d.off + i * d.stride) || s.regDown b d.off i)
      if live && d.off = F.IC_TGT_CLAIM_valid.off then s.doing (execClaimRead r (Fin.ofNat 68 i))
      else if live && d.off = F.GE_FOUND_INFO_valid.off then s.doing (execFoundInfoRead r (Fin.ofNat 64 i))
      else
        let s := { s with rdata := halfOf false v }
        let s := if d.is64 then
            { s with caps := (up.1, up.2, halfOf true v) :: s.caps.filter (fun c => !(c.1 == up.1 && c.2.1 == up.2)) } else s
        if live then s.readEffects d i else s
  | _, _ => s.doing (execUnmappedAccess false (BitVec.ofNat 24 off))

/-- The rings of virtual function f + 1, in rising number (R452). -/
def State.vfRings (s : State) (f : Nat) : List Nat := s.ringsHeld.filter (fun r => s.ringOwner r == f + 1)

/-- A bead may be seen by a virtual function (R497). -/
def State.beadSeen (s : State) (f i : Nat) : Bool :=
  s.feat 13 && s.on F.PM_BEAD_CFG_tenant_en i && s.on F.PM_BEAD_CFG_tenant_vis i
    && s.rd F.PM_BEAD_CFG_tenant i == s.rd F.HD_VF_CFG_tenant f

/-- HDV_ID of a virtual function (R452). -/
def State.vfId (s : State) (f : Nat) : Nat :=
  sat 64 (s.vfRings f).length * 2 ^ 16 + s.rd F.HD_VF_CFG_tenant f * 2 ^ 8 + s.rd F.HD_VF_CFG_en f * 2 ^ 7 + f + 1

/-- A read by virtual function f + 1 at an offset of its own BAR0 (R452): what it shows lies at these offsets of BAR0. -/
def State.vfRead (s : State) (f : Fin 64) (off : Nat) : State :=
  let zero : State := { s with rdata := 0 }
  if !s.feat 10 then zero
  else if off < 0x1000 then (if (regAt off).isSome then s.slotRead (.vf f) off else s.doing (execVfUnmappedAccess f (BitVec.ofNat 16 off) false))
  else if off = 0x1000 then { s with rdata := if s.regsOff 11 then 0 else s.vfId f }
  else if 0x2000 ≤ off && off < 0x2800 then
    (match (s.vfRings f)[(off - 0x2000) / 32]? with
      | some r => s.slotRead (.vf f) (0x980000 + r * 32 + (off - 0x2000) % 32)
      | none => zero)
  else if 0x8000 ≤ off then
    let i := (off - 0x8000) / 16
    if i < 240 && s.beadSeen f i then s.slotRead (.vf f) (0xA90000 + i / 16 * 512 + i % 16 * 32 + 8 + off % 16) else zero
  else if vfMapped off then { s with rdata := s.vfMsixWord f off }
  else s.doing (execVfUnmappedAccess f (BitVec.ofNat 16 off) false)

/-- LOWER_SLOT_READ. A virtual function's slot is one of its own BAR0. -/
def execLowerSlotRead (r : Requester) (slot : BitVec 22) (s : State) : Res :=
  act s fun s => match r with
    | .vf f => s.vfRead f (slot.toNat * 4)
    | _ => s.slotRead r (slot.toNat * 4)

/-- The registers that the management port serves (R534). -/
def managed : List Nat := [0, 0x30, 0x28, 0x50, 0x7C0004, 0x7C0010, 0xB00000, 0xB00018, 0xB00048, 0xB00084]

/-- MANAGEMENT_READ (R534): no side effect, 0 at every other offset. -/
def execManagementRead (off : BitVec 24) (s : State) : Res :=
  act s fun s =>
    let o := off.toNat
    match (if managed.contains o then blockAt o else none), regAt o with
    | some b, some (d, i, _) =>
      let v := if s.regAbsent o then 0 else if s.regDown b d.off i then d.value (fun f => b2n (downFields.contains f)) else d.value (s.fieldShown b i)
      { s with rdata := v }
    | _, _ => { s with rdata := 0 }

end Sys2Proof.Machine
end

