-- ==== Sys2Proof/Machine/Run.lean ====
section
/-! DEFINITION. STATE_REQUEST_RUN: the move into RUN with all that goes with it (R11, R13, R395, R403, R405, R416). -/

namespace Sys2Proof.Machine

/-- A slaved device that enters RUN takes its pacer's phase and its frame count from the device it follows (R403), while a rope link
is up. What those are, no command of the table brings: free values (DESIGN CHOICE, safe: log entry 12). -/
def State.copyPacer (s : State) : State :=
  if !s.slaved || !(s.ropeUp 0 || s.ropeUp 1) then s
  else { s.tickFresh with ts := { s.ts with
    phase := Config.free 10 s.fresh % 19440, frame := Config.free 12 s.fresh % 2 ^ 32 } }

/-- What follows an entry into RUN from READY: the election of the anchor, the pacer of a slaved device, Imhus's stores. -/
def State.runEntered (s : State) : State := s.elect.copyPacer.imhStart

/-- STATE_REQUEST_RUN. From BIVOUAC the move goes back as R505 gives it. -/
def execStateRequestRun (r : Requester) (s : State) : Res :=
  act s fun s =>
    let ready := s.glb.dev == .ready
    let s := s.request r .run
    s.when (ready && s.glb.dev == .run) State.runEntered

end Sys2Proof.Machine
end

