-- ==== Sys2Proof/Machine/RegWrite.lean ====
section
/-! DEFINITION. REGISTER_WRITE (R3 to R7, R21, R22, R51, R52): a write of a slot. The registers that give a command go to the
meaning of that command; every other register takes its fields by their access codes, under the rule of its block. -/

namespace Sys2Proof.Machine

/-- A field of a written slot by its access code (R7): w is the word, in slot hi of the register. -/
def State.fieldPut (s : State) (d : RegD) (i : Nat) (hi : Bool) (w : Nat) (f : Fld) : State :=
  match f.acc with
  | .rw | .rwg | .wo => s.wr f (d.fieldOf (fun g => s.rd g i) hi w f) i
  | .w1c =>
    let m := putHalf hi 0 w / 2 ^ f.lo % 2 ^ f.w
    s.wr f (s.rd f i - (s.rd f i &&& m)) i
  | _ => s

/-- A written slot of element i of register d. -/
def State.regPut (s : State) (d : RegD) (i : Nat) (hi : Bool) (w : Nat) : State :=
  d.flds.foldl (fun s f => s.fieldPut d i hi w f) s

/-- A write of a slot as its block's handler sees it: the requester, the register, the element, the slot, the word. -/
structure Wr where
  r : Requester
  d : RegD
  i : Nat
  hi : Bool
  v : Nat
deriving DecidableEq, Repr

def Wr.word (w : Wr) : Word := BitVec.ofNat 32 w.v
def Wr.port (w : Wr) : Port := Fin.ofNat 64 w.i
def Wr.is (w : Wr) (f : Fld) : Bool := w.d.off == f.off
def Wr.slot (w : Wr) : Nat := w.d.off + w.i * w.d.stride + (if w.hi then 4 else 0)
def Wr.bits (w : Wr) (hi lo : Nat) : Nat := Sys2Proof.bits w.v hi lo
def Wr.bit (w : Wr) (n : Nat) : Bool := Sys2Proof.bit w.v n

/-- The plain effect of a write. -/
def State.put (s : State) (w : Wr) : State := s.regPut w.d w.i w.hi w.v

/-- A write that the pair mirrors (R378). -/
def State.putMirror (s : State) (w : Wr) : State := (s.put w).mirror w.r [(w.slot, w.v)] none 0

/-! ### GLB (R11, R13, R19, R22, R413) -/

/-- The request for a state (R13). -/
def State.stateReq (s : State) (r : Requester) (n : Nat) : State :=
  match n % 8 with
  | 1 => s.doing (execStateRequestReady r)
  | 2 => s.doing (execStateRequestRun r)
  | 3 => s.doing (execStateRequestBivouac r)
  | 4 => s.doing (execStateRequestTest r)
  | 5 => s.doing (execStateRequestSafe r)
  | 6 => s.doing (execStateRequestBootOrReserved r .reserved6)
  | 7 => s.doing (execStateRequestBootOrReserved r .reserved7)
  | _ => s.doing (execStateRequestBootOrReserved r .boot)

/-- A write of GLB_MBX_CTRL (R413, R414, R471): go passes the request to Imhus and rings source 1. -/
def State.mbxGo (s : State) (w : Wr) : State :=
  if w.r != .pf || !w.bit 0 then s
  else if s.on F.GLB_MBX_STATUS_busy then s.wr F.GLB_MBX_STATUS_result 1
  else if s.glb.dev == .boot || !s.imhRuns then s.wr F.GLB_MBX_STATUS_result 9
  else (s.wr F.GLB_MBX_STATUS_busy 1).ring 1

def State.writeGlb (s : State) (w : Wr) : State :=
  if w.is F.GLB_STATE_REQ_target then s.stateReq w.r w.v
  else if w.is F.GLB_FEAT_ACCEPT_accept then (if w.hi then s else s.doing (execFeatAcceptWrite w.r w.word))
  else if w.is F.GLB_FEAT_LOCK_lock then s.doing (execFeatLockWrite w.r w.word)
  else if w.is F.GLB_MODE_mode then s.doing (execModeWrite w.r w.word)
  else if w.is F.GLB_TALLY_CFG_threshold then s.doing (execTallyCfgWrite w.r w.word)
  else if w.is F.GLB_MBX_CTRL_go then s.mbxGo w
  else if w.is F.GLB_MBX_REQ_word then (if w.r == .pf && !s.on F.GLB_MBX_STATUS_busy then s.put w else s)
  else if w.is F.GLB_MBX_RSP_word then (if w.r == .guide then s.wr F.GLB_MBX_RSP_word w.v w.i else s)
  else if w.is F.GLB_MBX_STATUS_busy then
    (if w.r == .guide then ((s.wr F.GLB_MBX_STATUS_result (w.bits 23 16)).wr F.GLB_MBX_STATUS_tag (w.bits 15 8)).wr
        F.GLB_MBX_STATUS_busy (w.bits 0 0) else s)
  else if w.is F.GLB_PACE_below_floor then
    (if w.bit 24 && s.reach w.r 0 then { s.put w with pr := { s.pr with floorHeld := false } } else s)
  else s

/-- A write of a register without a command that a standby or a block of Imhus refuses: the not-owner result of its part of the block,
where it has one (R377, R411). -/
def State.notOwner (s : State) (w : Wr) : State :=
  match w.r with
  | .vf _ => s
  | _ =>
    if s.pcieBoot then s
    else match w.d.off / 0x100000 with
      | 1 => s.wr F.TP_KEY_STATUS_result 6 w.i
      | 3 => if 0x380000 ≤ w.d.off then s.wr F.GE_CTX_STATUS_result 6 else s.wr F.GE_TBL_STATUS_result 6
      | 5 => s.wr F.CL_CMD_STATUS_result 6
      | 6 => s.wr F.QS_CMD_STATUS_result 6
      | _ => s

/-- A key register of a port, which only the owner of key management writes (R69, R411). -/
def Wr.keyReg (w : Wr) : Bool :=
  w.is F.TP_KEY_DATA0_key || w.is F.TP_KEY_DATA1_key || w.is F.TP_KEY_DATA2_key || w.is F.TP_KEY_DATA3_key || w.is F.TP_KEY_SFC_switch_sfc

/-! ### TP (R69, R70, R76) -/

def State.writeTp (s : State) (w : Wr) : State :=
  if w.is F.TP_CTRL_port_en then s.doing (execTpCtrlWrite w.r w.port w.word)
  else if w.is F.TP_KEY_CMD_op then
    let g := w.bit 29
    let b := w.bit 28
    let t : Term := Fin.ofNat 16384 w.v
    s.doing (match w.bits 31 30 with
      | 0 => execKeyQuery w.r w.port g t
      | 1 => execKeyWrite w.r w.port g b t
      | 2 => execKeyInvalidate w.r w.port g b t
      | _ => execKeySwitch w.r w.port g b t)
  else if !s.reach w.r 1 || (w.keyReg && !s.owns w.r) then s.notOwner w
  else if w.is F.TP_PONID_pon_id || w.is F.TP_SFC_sfc then (if s.on F.TP_CTRL_port_en w.i then s else s.putMirror w)
  else if w.is F.TP_DEFECT_mask then s.putMirror w
  else s.put w

/-! ### UB (R89, R96) -/

def State.writeUb (s : State) (w : Wr) : State :=
  if w.is F.UB_TERM_CMD_op then
    let t : Term := Fin.ofNat 16384 w.v
    match w.bits 31 30 with
    | 0 => s.doing (execPresetQuery w.r t)
    | 1 => s.doing (execPresetDrop w.r t)
    | _ => if !s.reach w.r 2 then s
      else s.wr F.UB_TERM_STATUS_result (if s.on F.UB_TERM_STATUS_busy then 1 else 4)
  else if w.is F.UB_TREE_CFG_rx_en then s.doing (execUbTreeCfgWrite w.r w.port w.word)
  else if w.is F.UB_TREE_PROF_delim_q then s.doing (execUbTreeProfWrite w.r w.port w.word)
  else if !s.reach w.r 2 then s.notOwner w
  else if w.is F.UB_TREE_IDLE_wake_lead then
    let x := s.put w
    (x.wr F.UB_TREE_IDLE_wake_lead (max 0x30 (x.rd F.UB_TREE_IDLE_wake_lead w.i)) w.i).mirror w.r [(w.slot, w.v)] none 0
  else s.putMirror w

/-! ### GE (R118, R130, R175, R181, R188) -/

/-- The window-config event of R130: a tree whose windows are unusable, with a discovery enable set.
(DESIGN CHOICE, unsafe: log entry 17.) -/
def State.windowCheck (s : State) (p : Nat) : State :=
  let bad := decide (s.rd F.GE_DISC_DIST_teq p < s.rd F.GE_DISC_DIST_rtd_min p + classSpan (s.rd F.GE_DISC_CFG_dist_class p))
  s.when (bad && (s.on F.GE_DISC_CFG_disc_en p || s.on F.GE_DISC_CFG_dir_en p)) (·.raise 3 (s.treeNo p) 0x1022 0)

/-- The pre-assigned delay of a tree is asked for anew: disc_en or dir_en is set, teq or rtd_min changes (R129). -/
def State.askDelay (s t : State) (p : Nat) : State :=
  let v := fun (x : State) => (x.rd F.GE_DISC_DIST_teq p, x.rd F.GE_DISC_DIST_rtd_min p)
  let sets := fun f => !s.on f p && t.on f p
  let n := t.treeNo p
  t.when (v s != v t || sets F.GE_DISC_CFG_disc_en || sets F.GE_DISC_CFG_dir_en) fun t =>
    t.setActTree n { t.actTree n with padAt := none }

/-- A write of a GE_DISC register by the owner of activation, on another requester result 6 (R118). -/
def State.writeDisc (s : State) (w : Wr) : State :=
  if !s.may w.r 3 then s.wr F.GE_CTX_STATUS_result 6
  else if w.is F.GE_DISC_DIST_teq then
    let held := (s.onTreeList w.i).any (fun t => let st := (s.ctx t).st; st == .assigned || st == .operating || st == .lost)
    if held then s else (s.askDelay (s.putMirror w) w.i).windowCheck w.i
  else if w.is F.GE_DISC_CFG_disc_en then (s.askDelay (s.putMirror w) w.i).windowCheck w.i
  else s.putMirror w

/-- GE_CTX_CMD. -/
def State.writeCtxCmd (s : State) (w : Wr) : State :=
  match w.bits 31 28 with
  | 0 => s.doing (execContextQuery w.r)
  | 1 => s.doing (execContextAllocate w.r (w.bit 27))
  | 2 => s.doing (execContextFree w.r)
  | 3 => s.doing (execContextBind w.r)
  | 4 => s.doing (execContextDisable w.r)
  | 5 => s.doing (execContextEnable w.r)
  | 6 => s.doing (execActivateNow w.r)
  | _ => s.ctxCmd w.r (w.bits 31 28 * 2 ^ 28) fun s t => (s, 7, t)

/-- GE_TBL_CMD; a reserved op ends as a reserved table does (R536). -/
def State.writeTblCmd (s : State) (w : Wr) : State :=
  let t : BitVec 3 := BitVec.ofNat 3 (w.bits 27 25)
  let u := w.bit 16
  let n : BitVec 16 := BitVec.ofNat 16 w.v
  match w.bits 31 28 with
  | 0 => s.doing (execGeTableRead w.r t u n)
  | 1 => s.doing (execGeTableWrite w.r t u n)
  | 2 => s.doing (execAllocContextAllocate w.r t u)
  | 3 => s.doing (execAllocContextFree w.r t u n)
  | _ => s.doing (execGeTableWrite w.r 7 false n)

/-- GE_TREE_CFG: entry is staged (R188), keep_clr is taken while gp_en = 0, gp_en stands at once.
(DEDUCED, unsafe: log entry 74.) -/
def State.writeTree (s : State) (w : Wr) : State :=
  let s := s.when (w.bit 1 && !s.on F.GE_TREE_CFG_gp_en w.i) (·.keepZero w.i)
  ((s.wr F.GE_TREE_CFG_entry (w.bits 13 8) w.i).wr F.GE_TREE_CFG_gp_en (w.bits 0 0) w.i).stage .grant
    |>.mirror w.r [(w.slot, w.v)] none 0

/-- Registers whose words go to the standby with the command that uses them (R379). -/
def heldBack : List Nat := [F.GE_CTX_ARG_term.off, F.GE_CTX_SN_vssn.off, F.GE_CTX_TENANT_tenant.off, F.GE_PROG_ADDR_addr.off,
  F.GE_TBL_DATA_word.off, F.QS_DATA_word.off, F.CL_INDEX_index.off, F.CL_ARG_tenant.off, F.CL_DATA_word.off, F.CL_KEY_bits.off,
  F.CL_MASK_bits.off, F.CL_ACT_bits.off]

def State.putHeld (s : State) (w : Wr) : State := if heldBack.contains w.d.off then s.put w else s.putMirror w

def State.writeGe (s : State) (w : Wr) : State :=
  if w.is F.GE_CTX_CMD_op then s.writeCtxCmd w
  else if w.is F.GE_POOL_TREE_limit then s.doing (execPoolTreeWrite w.r w.port w.word)
  else if w.is F.GE_TBL_CMD_op then s.writeTblCmd w
  else if w.is F.GE_ENG_CMD_op then
    let e : BitVec 5 := BitVec.ofNat 5 w.v
    (match w.bits 31 30 with
      | 0 => s.doing (execEngineQuery w.r e)
      | 1 => s.doing (execEngineRepair w.r e)
      | 2 => s.doing (execEngineRotate w.r)
      | _ => s.engCmd w.r e.toNat (·.engResult 3 e.toNat))
  else if w.is F.GE_PROG_DATA_word then s.doing (execGeProgDataWrite w.r w.word)
  else if w.is F.GE_PROG_COMMIT_commit then s.doing (execGeProgCommit w.r w.word)
  else if 0x381000 ≤ w.d.off then s.writeDisc w
  else if !s.reach w.r 3 then s.notOwner w
  else if w.is F.GE_TREE_CFG_entry then s.writeTree w
  else s.putHeld w

/-! ### PC, CL, QS (R259, R281, R286, R316) -/

def State.writePc (s : State) (w : Wr) : State :=
  if w.is F.PC_CORE_CMD_op then
    let c : BitVec 7 := BitVec.ofNat 7 w.v
    (match w.bits 31 30 with
      | 0 => s.doing (execCoreQuery w.r c)
      | 1 => s.doing (execCoreRepair w.r c)
      | _ => s.coreCmd w.r (s.may w.r 4) (·.coreReply 3 c.toNat))
  else if w.is F.PC_PROG_DATA_HI_word_hi then s.doing (execPcProgDataHiWrite w.r w.word)
  else if w.is F.PC_PROG_COMMIT_commit then s.doing (execPcProgCommit w.r w.word)
  else s.pcWrite w.r fun s =>
    if w.is F.PC_PROG_ADDR_addr || w.is F.PC_PROG_DATA_LO_word_lo then s.put w
    else if w.is F.PC_SRC_ENTRY_entry then (s.put w).stage .parse |>.mirror w.r [(w.slot, w.v)] none 0
    else s.putMirror w

def State.writeCl (s : State) (w : Wr) : State :=
  if w.is F.CL_CMD_op then
    let k : BitVec 4 := BitVec.ofNat 4 (w.bits 27 24)
    let t : BitVec 4 := BitVec.ofNat 4 (w.bits 23 20)
    (match w.bits 31 28 with
      | 0 => s.doing (execClRead w.r k t)
      | 1 => s.doing (execClWrite w.r k t)
      | 2 => s.doing (execClAdd w.r k t)
      | 3 => s.doing (execClDelete w.r k t)
      | 4 => s.doing (execClFind w.r k t)
      | n => s.clCmd w.r n k.toNat t.toNat fun s => (s, 7))
  else if w.is F.CL_RULE_COMMIT_commit then s.doing (execClRuleCommit w.r w.word)
  else if s.reach w.r 5 then s.putHeld w else s.notOwner w

def State.writeQs (s : State) (w : Wr) : State :=
  if w.is F.QS_CMD_op then
    let t : BitVec 4 := BitVec.ofNat 4 (w.bits 27 24)
    let n : BitVec 17 := BitVec.ofNat 17 w.v
    (match w.bits 31 28 with
      | 0 => s.doing (execQsRowRead w.r t n)
      | 1 => s.doing (execQsRowWrite w.r t n)
      | 2 => s.doing (execQsQueueStatus w.r t n)
      | 3 => s.doing (execQsFlush w.r t n)
      | op => s.qsCmd w.r op 15 n.toNat fun s => (s, 7))
  else if w.is F.QS_SHAPE_COMMIT_commit then s.doing (execQsShapeCommit w.r w.word)
  else if w.is F.QS_GATE_COMMIT_commit then s.doing (execQsGateCommit w.r w.word)
  else if s.reach w.r 6 then s.putHeld w else s.notOwner w

/-! ### BM, TS (R320, R332, R353, R365, R369) -/

def State.writeBm (s : State) (w : Wr) : State :=
  if w.is F.BM_SPILL_low_max then s.doing (execBmSpillWrite w.r w.word)
  else if w.is F.BM_TEST_CMD_op then
    (match w.bits 31 30 with
      | 0 => s.doing (execMemoryTestQuery w.r)
      | 1 => s.doing (execPacketBufferTest w.r)
      | 2 => s.doing (execDeepMemoryTest w.r)
      | _ => s.testCmd w.r (·.wr F.BM_TEST_STATUS_result 4))
  else s.bmWrite w.r fun s =>
    if w.is F.BM_ADMIT_arr_floor then
      (if spillOrder (s.rd F.BM_SPILL_low_max) (s.rd F.BM_SPILL_spill_on) (s.rd F.BM_SPILL_spill_off) (w.bits 7 0) then s.put w
        else s.wr F.BM_STATUS_cfg_err 1)
    else s.put w

/-- A change of a port's latencies or asymmetry: the port's pending record is recomputed, the partner is told the latencies and the
skews are judged (R365, R369, R385, R386). -/
def State.compensated (s : State) (p : Nat) (lat : Bool) : State :=
  let s := s.todAgain p
  match (if lat then s.pr.pairLink else none) with
  | none => s
  | some rp => (s.ropeSend rp 0x04 [p, s.rd F.TS_PORT_LAT_lat_in p, s.rd F.TS_PORT_LAT_lat_eg p]).skewCheck

/-- TS_TOD_CMD. -/
def State.writeTod (s : State) (w : Wr) : State :=
  let p : Port := Fin.ofNat 64 w.v
  match w.bits 31 30 with
  | 0 => s.doing (execTodQuery w.r p)
  | 1 => s.doing (execTodCompute w.r p)
  | 2 => s.doing (execTodCancel w.r p)
  | _ => s.todCmd w.r p fun s => (s, 4)

def State.writeTs (s : State) (w : Wr) : State :=
  if w.is F.TS_INCR_incr && w.hi then s.doing (execTsIncrWrite w.r w.word)
  else if w.is F.TS_ADJ_frac && w.hi then s.doing (execTsAdjWrite w.r w.word)
  else if w.is F.TS_CTRL_align_go then s.doing (execAlignGo w.r w.word)
  else if w.is F.TS_TOD_CMD_op then s.writeTod w
  else if w.is F.TS_TERM_CMD_term then s.doing (execTermDelayCompute w.r (Fin.ofNat 16384 w.v))
  else if w.is F.TS_TOD_SFC_sfc || w.is F.TS_TOD_STATUS_changed || w.is F.TS_STATUS_not_owner then (if s.reach w.r 8 then s.put w else s)
  else s.tsWrite w.r fun s =>
    if w.is F.TS_INCR_incr || w.is F.TS_ADJ_frac || w.is F.TS_FRAME_ALIGN_align_ns then (if s.slaved then s else s.put w)
    else if w.is F.TS_PORT_LAT_lat_in then (s.put w).compensated w.i (decide (w.i < 64))
    else if w.is F.TS_PORT_ASYM_asym then
      (if 64 ≤ w.i then s
        else if 10000000 < (signed 32 w.v).natAbs then s.wr F.TS_STATUS_cfg_err 1
        else (s.put w).compensated w.i false)
    else s.put w

/-! ### PR, SL (R371, R404, R429, R443, R446) -/

/-- A write in the PR range (R371, R404). (DEDUCED, unsafe: log entry 75.) -/
def State.writePr (s : State) (w : Wr) : State :=
  if w.is F.PR_PAIR_CMD_op then
    (match w.bits 31 28 with
      | 0 => s.doing (execPairQuery w.r)
      | 1 => s.doing (execPairYield w.r)
      | 2 => s.doing (execPairTake w.r)
      | 3 => s.doing (execPairResync w.r)
      | _ => s.pairCmd w.r fun s => (s, 5))
  else match w.r with
    | .vf _ => s
    | _ =>
      if !s.owns w.r then s.wr F.PR_PAIR_STATUS_not_owner 1
      else if w.is F.PR_PAIR_CFG_pair_port then
        (s.put w).wr F.PR_PAIR_CFG_pair_port (if s.glb.dev == .ready then w.bits 0 0 else s.rd F.PR_PAIR_CFG_pair_port)
      else if w.is F.PR_CASC_CFG_casc_id then (if s.glb.dev == .ready then s.put w else s)
      else s.put w

/-- SL_LANE_CTRL: en and the rest of the word (R434, R443 to R445). -/
def State.writeLane (s : State) (w : Wr) : State := s.laneCtrl w.r w.i w.v

def State.writeSl (s : State) (w : Wr) : State :=
  if w.is F.SL_CMD_op then
    let l : BitVec 8 := BitVec.ofNat 8 w.v
    (match w.bits 31 28 with
      | 0 => s.doing (execLaneQuery w.r l)
      | 1 => s.doing (execLaneRecalibrate w.r l)
      | 2 => s.doing (execRetrainNow w.r l)
      | _ => s.slCmd w.r l.toNat fun s => (s, 4))
  else if w.is F.SL_LANE_CTRL_en then s.writeLane w
  else s.slWrite w.r fun s =>
    if w.is F.SL_CTRL_ul_mode then
      let m := if s.glb.dev == .ready && w.bits 1 0 != 3 then w.bits 1 0 else s.rd F.SL_CTRL_ul_mode
      (s.put w).wr F.SL_CTRL_ul_mode m
    else s.put w

/-! ### HD (R450 to R455), IC (R485), PM (R497), PW (R499) -/

/-- The ring registers. The physical function writes every field, kind, owner, chan and irq_src only while en = 0; a function that
owns the ring those of R455 alone; log2_size and base only while en = 0. -/
def State.writeRing (s : State) (w : Wr) : State :=
  let n : BitVec 12 := BitVec.ofNat 12 w.i
  let pf := w.r == .pf
  if w.is F.HD_RING_CFG_en then s.doing (if w.bit 0 then execRingEnable w.r n w.word else execRingDisable w.r n w.word)
  else if w.is F.HD_RING_HEAD_head then s.doing (execRingHeadWrite w.r n w.word)
  else if w.is F.HD_RING_TAIL_tail then s.doing (execRingTailWrite w.r n w.word)
  else if w.is F.HD_RING_BASE_base then s.hdWrite (s.ringMay w.r w.i) (fun s => if s.ringOn w.i then s else s.put w)
  else if w.is F.HD_RING_BUF_irq_us then s.hdWrite (s.ringMay w.r w.i) (·.put w)
  else if w.is F.HD_RING_IRQ_irq_src then
    s.hdWrite pf fun s =>
      let src := if s.ringOn w.i then s.rd F.HD_RING_IRQ_irq_src w.i else w.bits 12 0
      (s.put w).wr F.HD_RING_IRQ_irq_src src w.i
  else s.hdWrite pf (·.put w)

/-- HD_CH_CTRL, by what it asks for. -/
def State.writeChan (s : State) (w : Wr) : State :=
  let c : BitVec 5 := BitVec.ofNat 5 w.i
  s.doing (if !w.bit 0 then execChannelDisable w.r c w.word else if w.bit 1 then execChannelPause w.r c w.word
    else execChannelResume w.r c w.word)

/-- A write in the HD range. error, irq_en and blk_mask are the physical function's alone (DEDUCED, safe: log entry 11.) -/
def State.writeHd (s : State) (w : Wr) : State :=
  if w.is F.HD_CH_CMD_op then
    let c : BitVec 5 := BitVec.ofNat 5 w.v
    (match w.bits 31 30 with
      | 0 => s.doing (execChannelQuery w.r c)
      | 1 => s.doing (execChannelRepair w.r c)
      | 2 => s.doing (execChannelStop w.r c)
      | _ => s.chCmd w.r c.toNat fun s => (s, 4))
  else if w.is F.HD_CH_CTRL_en then s.writeChan w
  else if w.is F.HD_VF_CFG_en then s.doing (execVfCfgWrite w.r (Fin.ofNat 64 w.i) w.word)
  else if w.is F.HD_VEC_MAP_valid then s.doing (execVecMapWrite w.r (Fin.ofNat 64 w.i) w.word)
  else if 0x980000 ≤ w.d.off then s.writeRing w
  else s.hdWrite (w.r == .pf) (·.put w)

def State.writeIc (s : State) (w : Wr) : State :=
  let t : Fin 68 := Fin.ofNat 68 w.i
  let src : BitVec 13 := BitVec.ofNat 13 w.v
  if w.is F.IC_DOORBELL_source then s.doing (execDoorbell w.r src)
  else if w.is F.IC_SRC_CFG_en then s.doing (execSrcCfgWrite w.r (BitVec.ofNat 13 w.i) w.word)
  else if w.is F.IC_TGT_THRESH_thresh then s.doing (execThreshWrite w.r t w.word)
  else if w.is F.IC_TGT_COMPLETE_source then s.doing (execCompleteWrite w.r t src)
  else if w.is F.IC_WATCH_valid then s.doing (execWatchWrite w.r (Fin.ofNat 64 w.i) w.word)
  else if w.is F.IC_TGT_STATUS_order_err then s.icWrite w.r (!isGuide t) (·.put w)
  else s.icWrite w.r true (·.put w)

def State.writePm (s : State) (w : Wr) : State :=
  if w.is F.PM_BEAD_CFG_event then s.doing (execBeadCfgWrite w.r (Fin.ofNat 15 (w.i / 16)) (Fin.ofNat 16 w.i) w.word)
  else s.pmWrite w.r (·.put w)

/-- A field takes v where v lies in its range, else keeps its value. -/
def State.within (s : State) (f : Fld) (lo hi v : Nat) : State := if lo ≤ v && v ≤ hi then s.wr f v else s

def State.writePw (s : State) (w : Wr) : State :=
  let key : Byte := BitVec.ofNat 8 (w.bits 31 24)
  if w.is F.PW_DOM_CMD_op then
    let d : BitVec 4 := BitVec.ofNat 4 w.v
    (match w.bits 31 28 with
      | 0 => s.doing (execDomainQuery w.r d)
      | 1 => s.doing (execDomainDownRequest w.r d)
      | 2 => s.doing (execDomainUpRequest w.r d)
      | _ => s.domCmd w.r (·.domResult 7 d.toNat))
  else if w.is F.PW_RESET_CMD_op then
    (match w.bits 23 20 with
      | 1 => s.doing (execDeviceReset w.r key s.pw.straps)
      | 2 => s.doing (execBlockReset w.r key (BitVec.ofNat 4 w.v))
      | _ => s.resetCmd w.r key (·.wr F.PW_RESET_STATUS_result 4))
  else if w.is F.PW_BOOT_DATA_data then s.doing (execBootDataWrite w.r w.word)
  else if w.is F.PW_BOOT_GO_go then s.doing (execBootGo w.r w.word)
  else match w.r with
    | .vf _ => s
    | _ =>
      if !s.owns w.r then s
      else if w.is F.PW_BOOT_ADDR_addr then (if s.pcieBoot then s.put w else s)
      else if w.is F.PW_AVS_CFG_margin_hi then (if w.bits 15 0 < w.bits 31 16 then s.put w else s)
      else if w.is F.PW_AVS_LIMIT_v_max then
        let lo := w.bits 9 0
        let hi := w.bits 19 10
        (if 680 ≤ lo && hi ≤ 850 && lo < hi then s.put w else s)
      else if w.is F.PW_THERM_CFG_trip then (s.within F.PW_THERM_CFG_trip 105 125 (w.bits 15 8)).within F.PW_THERM_CFG_warn 60 120 (w.bits 7 0)
      else s.put w

/-! ### The write -/

/-- The handler of a block row. -/
def State.blockWrite (s : State) (b : Nat) (w : Wr) : State :=
  match b with
  | 0 => s.writeGlb w | 1 => s.writeTp w | 2 => s.writeUb w | 3 => s.writeGe w | 4 => s.writePc w | 5 => s.writeCl w
  | 6 => s.writeQs w | 7 => s.writeBm w | 8 => s.writeTs w | 9 => s.writePr w | 10 => s.writeSl w | 11 => s.writeHd w
  | 12 => s.writeIc w | 13 => s.writePm w | _ => s.writePw w

/-- A register that takes no write: absent, not decoded, or down (R21, R52, R512). A doorbell of the host reaches the watch domain even
while the collector is down (R483). -/
def State.writeIgnored (s : State) (b : Nat) (d : RegD) (i : Nat) : Bool :=
  s.notDecoded d.off || s.regAbsent (d.off + i * d.stride) || (s.regDown b d.off i && d.off != F.IC_DOORBELL_source.off)

/-- A write of v to byte offset off of BAR0. -/
def State.regWrite (s : State) (r : Requester) (off v : Nat) : State :=
  match blockAt off, regAt off with
  | some b, some (d, i, hi) => if s.writeIgnored b d i then s else s.blockWrite b ⟨r, d, i, hi, v⟩
  | _, _ => s.doing (execUnmappedAccess true (BitVec.ofNat 24 off))

/-- A write by virtual function f + 1 at an offset of its own BAR0 (R22, R450, R452). -/
def State.vfWrite (s : State) (f : Fin 64) (off v : Nat) : State :=
  if !s.feat 10 then s
  else if 0x2000 ≤ off && off < 0x2800 then
    (match (s.vfRings f)[(off - 0x2000) / 32]? with
      | some r => s.regWrite (.vf f) (0x980000 + r * 32 + (off - 0x2000) % 32) v
      | none => s.hdWrite false id)
  else if off = 0x1000 then s.hdWrite false id
  else if 0x4000 ≤ off && off < 0x4010 then s.vfMsixWrite f off v
  else s.doing (execVfUnmappedAccess f (BitVec.ofNat 16 off) true)

/-- REGISTER_WRITE. A virtual function's slot is one of its own BAR0. -/
def execRegisterWrite (r : Requester) (slot : BitVec 22) (v : Word) (s : State) : Res :=
  act s fun s => match r with
    | .vf f => s.vfWrite f (slot.toNat * 4) v.toNat
    | _ => s.regWrite r (slot.toNat * 4) v.toNat

end Sys2Proof.Machine
end

