-- ==== Sys2Proof/Machine/Cairns.lean ====
section
/-! DEFINITION. The mirror of a pair (R378 to R384): live cairns in their order, commands applied as the active took them, snapshots,
replays, late maps, and the retirement of generations that commits wait for. -/

namespace Sys2Proof.Machine

/-! ### Commands as the active resolved them (R379, R380) -/

/-- The staged object that a write of a slot commits. -/
def commitOf (off : Nat) : Option GenObj :=
  if off = F.PC_PROG_COMMIT_commit.off then some .parse
  else if off = F.CL_RULE_COMMIT_commit.off then some .rules
  else if off = F.GE_PROG_COMMIT_commit.off then some .grant
  else if off = F.QS_GATE_COMMIT_commit.off then some .gates
  else if off = F.QS_SHAPE_COMMIT_commit.off then some .shapers else none

/-- The offset and word that gave the command: the last of its writes. -/
def OwnerCmdLast (c : OwnerCmd) : Nat × Nat := ((c.writes.getLast?).map (fun w => (w.1.toNat * 4, w.2.toNat))).getD (0, 0)

/-- The command waits: a commit that the active accepted, while this device's own generation retires (R380). -/
def State.mustWait (s : State) : Cairn → Bool
  | .command c => match commitOf (OwnerCmdLast c).1 with
    | some o => c.result == 0 && (s.gen o).ret.isSome
    | none => false
  | _ => false

/-- An allocation of a context or of an allocation context: its object comes in state cairns; the command brings the tenant and the
result (R379). -/
def State.takeContext (s : State) (t : Nat) : State :=
  (s.setCtx t { s.ctx t with tenant := s.rd F.GE_CTX_TENANT_tenant }).ctxReply 0 t

/-- The slot that the active chose for an added key. -/
def State.moveSlot (s : State) (i : Nat) : State :=
  let k := s.clIndex
  if k = i || s.rd F.CL_CMD_STATUS_result != 0 then s
  else ((s.setSlot i (s.slotAt k)).setSlot k none).wr F.CL_INDEX_index i

/-- A context command that the active took: what it changed of the context has come in state cairns before it, so it has its result here
too, and a free command takes the context's resources (R122, R380). -/
def State.takeCtxCmd (s : State) (op t : Nat) : State :=
  match op with
  | 1 => s.takeContext t
  | 2 => (s.freeResources t).ctxReply 0 t
  | _ => s.ctxReply 0 t

/-- The last write of a command, with the value the active resolved. -/
def State.finish (s : State) (c : OwnerCmd) : State :=
  let (off, v) := OwnerCmdLast c
  match c.resolved with
  | none => s.regWrite .cairn off v
  | some x =>
    if off = F.GE_CTX_CMD_op.off then s.takeCtxCmd (v / 2 ^ 28) x
    else if off = F.GE_TBL_CMD_op.off && v / 2 ^ 28 == 2 then s.tblResult 0 x
    else
      let s := s.regWrite .cairn off v
      if off = F.CL_CMD_op.off && v / 2 ^ 28 == 2 then s.moveSlot x
      else if 0x100000 ≤ off && off < 0x200000 && off % 0x4000 == 0x40 && v / 2 ^ 30 == 3 then
        let t := v % 16384
        s.setKeyCtx t { s.keyCtx t with pend := (s.keyCtx t).pend.map (fun p => (p.1, p.2.1, x)) }
      else s

/-- A command cairn applied: its captured registers, then the write that gave it. (DEDUCED, unsafe: log entry 48.) -/
def State.applyCommand (s : State) (c : OwnerCmd) : State :=
  let s := c.writes.dropLast.foldl (fun s w => s.regWrite .cairn (w.1.toNat * 4) w.2.toNat) s
  s.finish c

/-! ### Live cairns (R379 to R383) -/

/-- The cn of the next live cairn: 0 starts the stream of a link. -/
def State.cnNext (s : State) : Nat := match s.pr.cnApplied with
  | none => 0
  | some n => (n + 1) % 2 ^ 32

/-- A live cairn takes effect. A map in time ends its tree's run of late frames. -/
def State.applyCairn (s : State) (cn : Nat) (c : Cairn) : State :=
  let n := s.cnLong cn
  let s := { s with pr := { s.pr with cnApplied := some cn, cnHigh := n / 2 ^ 32 } }
  match c with
  | .command k => s.applyCommand k
  | .map p f _ =>
    let late := s.pr.lateFor.get 0 p == f + 1
    let s := s.stamped n (cairnObj c) (·.applyAbsolute c)
    if late then s else { s with pr := { s.pr with lateRun := s.pr.lateRun.set 0 p 0 } }
  | _ => s.stamped n (cairnObj c) (·.applyAbsolute c)

/-- A cairn in its place among those that wait. -/
def holdCairn (cn : Nat) (c : Cairn) : List (Nat × Cairn) → List (Nat × Cairn)
  | [] => [(cn, c)]
  | e :: t => if e.1 = cn then e :: t else if cnAfter e.1 cn then (cn, c) :: e :: t else e :: holdCairn cn c t

/-- One waiting cairn, in its order: dropped where it has been applied, applied where it is next and may, else it and all after it
wait on. -/
def drainStep (s : State) (e : Nat × Cairn) : State :=
  let keep := { s with pr := { s.pr with waiting := s.pr.waiting ++ [e] } }
  if !s.pr.waiting.isEmpty then keep
  else if (match s.pr.cnApplied with
    | some n => !cnAfter e.1 n
    | none => false) then s
  else if e.1 = s.cnNext && !s.mustWait e.2 then s.applyCairn e.1 e.2
  else keep

/-- The waiting cairns that can be applied are. -/
def State.drain (s : State) : State := s.pr.waiting.foldl drainStep { s with pr := { s.pr with waiting := [] } }

/-- Replay is asked for from the first missing cairn; the answer fills every gap up to the last cairn that has come (R383). -/
def State.askReplay (s : State) (p : Nat) : State :=
  let last := ((s.pr.waiting.getLast?).map (·.1)).getD s.cnNext
  { s with pr := { s.pr with asked := some s.cnNext, askedTo := last, askedAt := s.ts.run } }.ropeSend p 0x30 [0, s.cnNext]

/-- A replay asked for is still to come: less than 1 ms has passed, and not all that it covers is here. -/
def State.replayDue (s : State) : Bool :=
  s.pr.asked.isSome && decide (s.ts.run ≤ s.pr.askedAt + millisecond) && !cnAfter s.cnNext s.pr.askedTo

/-- A gap (R383): replay is asked for, again where an answer is 1 ms overdue or a new gap lies beyond it. (DESIGN CHOICE, safe: log
entry 129.) -/
def State.gapCheck (s : State) : State :=
  match s.pr.waiting.head?, s.pr.pairLink with
  | some e, some p =>
    if e.1 = s.cnNext then { s with pr := { s.pr with asked := none } }
    else if s.replayDue then s
    else s.askReplay p
  | _, _ => { s with pr := { s.pr with asked := none } }

/-- The bytes of a cairn that the buffers hold. (DEDUCED, safe: log entry 40.) -/
def cairnSize : Cairn → Nat
  | .map _ _ m => 16 + 16 * m.structs.length
  | .keep _ _ => 1168
  | c => Config.cairnBytes c.code

def cairnSpace : Nat := 4 * 2 ^ 20

/-- Live cairns held on chip fill their space while a snapshot runs: the snapshot starts again (R384). -/
def State.heldTooMuch (s : State) : Bool :=
  !s.feat 11 && decide (cairnSpace < (s.pr.waiting.map (fun e => cairnSize e.2)).sum)

/-- The device takes this cairn from its partner: a standby all but preset states, an active those alone (R378). -/
def State.takes (s : State) (c : Cairn) : Bool :=
  let preset := match c with
    | .change (.preset ..) => true
    | _ => false
  s.pr.pairLink.isSome && !s.blkDown 9 && (if preset then s.isActive else s.isStandby)

/-- A live cairn arrives. -/
def State.liveCairn (s : State) (cn : Nat) (c : Cairn) : State :=
  if !s.takes c then s
  else if (match s.pr.cnApplied with
    | some n => !cnAfter cn n
    | none => false) then s
  else if s.isActive then s.applyCairn cn c
  else
    let s := { s with pr := { s.pr with waiting := holdCairn cn c s.pr.waiting } }
    if s.pr.sync = 1 then (if s.heldTooMuch then s.askSnapshot else s)
    else s.drain.gapCheck.syncCheck

/-- MAP_CAIRN. -/
def execMapCairn (cn evseq : BitVec 32) (p : Port) (frame : BitVec 32) (m : MapRec) (s : State) : Res :=
  act s fun s => let _ := evseq; s.liveCairn cn.toNat (.map p frame.toNat m)

/-- PLOAM_CAIRN. -/
def execPloamCairn (cn evseq : BitVec 32) (p : Port) (frame : BitVec 32) (sfc : BitVec 51) (msgs : List Ploam) (s : State) : Res :=
  act s fun s => let _ := evseq; s.liveCairn cn.toNat (.ploam p frame.toNat sfc.toNat msgs)

/-- STATE_CAIRN. -/
def execStateCairn (cn evseq : BitVec 32) (c : StateChange) (s : State) : Res :=
  act s fun s => let _ := evseq; s.liveCairn cn.toNat (.change c)

/-- COMMAND_CAIRN. -/
def execCommandCairn (cn evseq : BitVec 32) (c : OwnerCmd) (s : State) : Res :=
  act s fun s => let _ := evseq; s.liveCairn cn.toNat (.command c)

/-- KEEP_CAIRN. -/
def execKeepCairn (cn evseq : BitVec 32) (p : Port) (words : List GWord) (s : State) : Res :=
  act s fun s => let _ := evseq; s.liveCairn cn.toNat (.keep p words)

/-! ### Snapshots (R384) -/

/-- A record that names the context, the allocation context, the key slots of a number. -/
def namesCtx (t : Nat) : SnapRec → Bool
  | .change (.context u ..) => u.val == t
  | _ => false
def namesAlloc (a : Nat) : SnapRec → Bool
  | .change (.allocContext b _) => b.toNat == a
  | _ => false

/-- Mirrored state that the snapshot does not name goes: the snapshot is all of it (R384). -/
def State.prune (s : State) (rs : List SnapRec) : State :=
  { s with
    ctxs := s.ctxs.mapAll {} (fun t x => if rs.any (namesCtx t) then x else { frees := x.frees })
    allocs := s.allocs.mapAll {} (fun a x => if rs.any (namesAlloc a) then x else { frees := x.frees })
    onuHolds := [], allocHolds := [], keys := [], rows := []
    tp := s.tp.mapAll {} (fun _ x => { x with group0 := {}, group1 := {} })
    rf := s.rf.filter (fun e => !mirroredKey e.1)
    cl := { s.cl with slots := [], tern := [] }
    qs := { s.qs with tab := [], profiles := [], gates := [] }
    ge := { s.ge with keep := [], entries := [], len := 0, bank0 := [], bank1 := [] }
    pc := { s.pc with cur := { s.pc.cur with len := 0, entries := [] }, bank0 := [], bank1 := [] } }

/-- SNAPSHOT_RECORD: staged in the cairn area, once deep memory serves the write; without feature bit 11 it also takes effect at once. A record that comes outside a
snapshot starts one. (DEDUCED, unsafe: log entry 47.) -/
def execSnapshotRecord (cn : BitVec 32) (x : SnapItem) (s : State) : Res :=
  act s fun s =>
    if !s.isStandby || s.pr.pairLink.isNone || s.blkDown 9 then s
    else
      let s := (s.when (s.pr.sync != 1) (·.setSync 1))
      let s := { s with pr := { s.pr with snap := s.pr.snap ++ [SnapLine.mk cn.toNat x.record x.evseq.toNat
        ((s.rd F.PR_PAIR_STATUS_cairn_gen + 1) % 16) (s.feat 11)] } }
      if s.feat 11 then s.snapResume else s.stamped (cnUpTo (s.cnTop cn.toNat) cn.toNat) (recObj x.record) (·.applyRec x.record)

/-- A record at the snapshot's end, top the number of that end: it stands, whatever its object held, with its cn. -/
def State.snapApply (top : Nat) (s : State) (e : SnapLine) : State :=
  let s := s.applyRec e.record
  { s with pr := { s.pr with stamps := s.pr.stamps.set 0 (recObj e.record) (cnUpTo top e.cn + 1) } }

/-- SNAPSHOT_END, once every record of it is written and can be read: the snapshot takes effect, cairn_gen advances, the live cairns since then follow, and the standby is synchronised
once R382 holds. With a record lost to an uncorrectable line the standby asks for another (DESIGN CHOICE, safe: log entry 97). -/
def execSnapshotEnd (cn : BitVec 32) (s : State) : Res :=
  act s fun s =>
    if !s.isStandby || s.pr.sync != 1 || s.blkDown 9 then s
    else
      let s := s.snapResume
      if s.feat 11 && (s.deepDown || s.pr.snap.any (·.late)) then s
      else
      let (s, lost) := s.snapRead
      if lost then s.askSnapshot
      else
      let rs := s.pr.snap
      let top := s.cnLong cn.toNat
      let s := rs.foldl (State.snapApply top) (s.prune (rs.map (·.record)))
      let s := s.wr F.PR_PAIR_STATUS_cairn_gen (s.rd F.PR_PAIR_STATUS_cairn_gen + 1)
      let s := { s with pr := { s.pr with snap := [], asked := none, cnApplied := some cn.toNat, cnHigh := top / 2 ^ 32 } }.setSync 2
      s.drain.gapCheck.syncCheck

/-! ### Replay (R383) -/

/-- The cairns of the stream that the replay buffer still holds, newest first. -/
def keptCairns : Nat → List (Nat × Nat × Cairn) → List (Nat × Nat × Cairn)
  | _, [] => []
  | n, e :: t => if n + cairnSize e.2.2 ≤ cairnSpace then e :: keptCairns (n + cairnSize e.2.2) t else []

/-- REPLAY_REQUEST: the active sends the cairns again from the first missing one, or a snapshot where it is asked for one or its buffer
does not cover the gap. -/
def execReplayRequest (fromCn : BitVec 32) (snapshot : Bool) (s : State) : Res :=
  act s fun s =>
    match (if s.isActive && !s.blkDown 9 then s.pr.pairLink else none) with
    | none => s
    | some p =>
      let l := keptCairns 0 s.pr.stream
      if snapshot || !l.any (fun e => e.1 == fromCn.toNat) then s.sendSnapshot p
      else (l.reverse.filter (fun e => !cnAfter fromCn.toNat e.1)).foldl (fun s e => s.cairnOut e.1 e.2.1 e.2.2) s

/-! ### Time limits (R380 to R382) -/

/-- CAIRN_LATE: 10 µs before frame instant m a standby has no map for m on a port it frames: the frame is treated as R381 gives it.
(DEDUCED, safe: log entry 82.) -/
def execCairnLate (p : Port) (s : State) : Res :=
  act s fun s =>
    let m := (s.ts.frame + 1) % 2 ^ 32
    let x := s.port p
    if !s.isStandby || !x.framing || 10 * 19440 < s.cyclesLeft * 125 || !s.on F.GE_TREE_CFG_gp_en (s.pitchTree p) || (x.maps.get none m).isSome || s.pr.lateFor.get 0 p == m + 1 then s
    else
      let n := s.pr.lateRun.get 0 p + 1
      let s := { s with pr := { s.pr with lateFor := s.pr.lateFor.set 0 p (m + 1), lateRun := s.pr.lateRun.set 0 p n } }
      let s := s.raise 9 0 0x8007 p
      s.when (decide (8 ≤ n)) State.syncLost

/-- The cn of the commit that waits (R380). -/
def State.commitWaits (s : State) : Option Nat :=
  match s.pr.waiting.head? with
  | some e => if s.pr.sync != 1 && e.1 == s.cnNext && s.mustWait e.2 then some e.1 else none
  | none => none

/-- COMMIT_WAIT_TIMEOUT: a commit has waited longer than 10 ms. -/
def execCommitWaitTimeout (s : State) : Res :=
  act s fun s => match s.commitWaits, s.lasting.commit with
    | some cn, some (c, t) => if c = cn && decide (t + 10 * millisecond < s.ts.run) then s.syncLost else s
    | _, _ => s

/-- CAIRN_REQUEST_TIMEOUT: a cairn asked for has been outstanding for more than 1 ms (R382); it is asked for again (DESIGN CHOICE, safe: log
entry 129). -/
def execCairnRequestTimeout (s : State) : Res :=
  act s fun s =>
    if !s.isStandby || s.pr.asked.isNone || s.ts.run ≤ s.pr.askedAt + millisecond then s
    else
      let s := s.when (s.pr.sync == 3) (·.setSync 4)
      match s.pr.pairLink with
      | some p => s.askReplay p
      | none => s

/-- GENERATION_RETIRED. A commit of the mirror that waited for it is applied, and what waits behind it (R29, R380). -/
def execGenerationRetired (o : GenObj) (s : State) : Res :=
  act s fun s =>
    let was := (s.gen o).ret.isSome
    let s := s.retireGen o
    if was && (s.gen o).ret.isNone && s.isStandby && s.pr.sync != 1 && !s.pr.waiting.isEmpty then s.drain.gapCheck.syncCheck else s

end Sys2Proof.Machine
end

