-- ==== Sys2Proof/Machine/Events.lean ====
section
/-! DEFINITION. The event merge unit: EVENT_COMMIT (R38 to R42, R356, R357). -/

namespace Sys2Proof.Machine

/-- The event may commit: the event that caused it has (R39), and no wrap event that an update before its stamp raised still
waits, nor, for a wrap event, an event stamped before the update (R356). (DEDUCED, safe: log entry 15.) -/
def State.mayCommit (s : State) (e : EvRec) : Bool :=
  s.evu.wait.all (fun w => e.cause != some w.ord && !(decide (w.ord < e.ord) && (e.wrap || w.wrap)))

/-- The event of a source that the merge unit takes next: of the TS block a wrap event that may commit (R357), else the
source's oldest (R39). -/
def State.nextEvent (s : State) (b i : Nat) : Option EvRec :=
  match (if b = 8 then s.evu.wait.find? (fun e => e.wrap && s.mayCommit e) else none) with
  | some e => some e
  | none => s.evu.wait.find? (fun e => e.block == b && e.inst == i)

/-- The record of a committed wrap event: its EVSEQ, direction and count (R357). -/
def wrapRecord (seq arg : Nat) : Nat := seq * 2 ^ 32 + arg % 2 ^ 32

/-- The event e commits: the next EVSEQ, the event sent to the rings of its block and to Imhus, source 0 rung unless it is
pending (R38, R456, R471). -/
def State.commitEvent (s : State) (e : EvRec) : State :=
  let seq := (s.evu.seq + 1) % 2 ^ 32
  let s := { s with evu := { s.evu with seq := seq, wait := s.evu.wait.filter (fun w => w.ord != e.ord) } }
  let s := (s.emit (.event seq e.block e.inst e.code e.arg e.stamp)).count 0 1 0
  let s := if e.wrap then { s with ts := { s.ts with
      wrapPrev := s.ts.wrapLast, wrapLast := wrapRecord seq e.arg } } else s
  let s := s.when (!s.ic.pend.contains 0) (·.ring 0)
  (s.ringEvent seq e.block e.inst e.code e.arg e.stamp).imhEvent seq e.block e.inst e.code e.arg e.stamp

/-- EVENT_COMMIT. (DESIGN CHOICE, safe: log entry 16.) -/
def execEventCommit (block : Fin 15) (inst : BitVec 11) (s : State) : Res :=
  act s fun s => match s.nextEvent block inst.toNat with
    | none => s
    | some e => if s.mayCommit e then s.commitEvent e else s

end Sys2Proof.Machine
end

