-- ==== Sys2Proof/Machine/Frame.lean ====
section
/-! DEFINITION. What time does of itself (R25, R349 to R360): the frame instant with everything that happens at it (R54 to R80,
R85, R122, R127, R162 to R165, R179, R377, R381, R391), the scheduled step, the wrap, the alignment, one reference cycle. -/

namespace Sys2Proof.Machine

/-! ### The upstream's frame (R112, R178, R179, R215) -/

/-- The history entry of an allocation at a frame instant (R178, R179): rep and use, both by hist_shift. -/
def Alloc.histEntry (a : Alloc) : Nat × Nat :=
  let sh := bits (a.words.getD 3 0) 17 14
  (sat 511 (a.occ / 2 ^ sh), sat 511 (a.used / (4 * 2 ^ sh)))

/-- A valid allocation at a frame instant: one history entry more where feature 5 is accepted, its report one frame older (R178, R179,
R199, R215). -/
def Alloc.instant (hist : Bool) (a : Alloc) : Alloc :=
  if !a.valid then a
  else if !hist then { a with used := 0, age := min 63 (a.age + 1) }
  else
    let h := (a.histEntry :: a.hist).take 16
    { a with hist := h, histCount := min 15 (a.histCount + 1), histValid := a.histValid || h.length == 16, used := 0
             age := min 63 (a.age + 1) }

/-- The runs that set and clear dLOS at the end of a frame; frames that do not qualify are skipped (R112). -/
def UbPort.losEnd (x : UbPort) : UbPort :=
  if !x.qualify then x
  else if x.found then { x with losRun := 0, losClear := x.losClear + 1, qualify := false, found := false }
  else { x with losRun := x.losRun + 1, losClear := 0, qualify := false, found := false }

/-- The receiver of port p at the end of a frame: dLOS and dUXL (R112); with no burst armed it lies in electrical idle (R90).
(DEDUCED, safe: log entry 80.) -/
def State.rxEnd (s : State) (p : Nat) : State :=
  if s.portDown 2 p then s
  else
    let x := (s.rx p).losEnd
    let u := (x.uxlNow :: x.uxl).take 16
    let s := s.setRx p { x with uxl := u, uxlNow := false }
    let s := s.when (s.receiving p && x.armed.isEmpty) (·.wr F.UB_TREE_STATUS_idle 1 p)
    let s := if s.treeHas p 0 then s.when (2 ≤ x.losClear) (·.treeDefect p 0 false)
      else s.when (8 ≤ x.losRun) (·.treeDefect p 0 true)
    if s.treeHas p 2 then s.when (u.length == 16 && !u.any id) (·.treeDefect p 2 false)
    else s.when (8 ≤ (u.filter id).length) (·.treeDefect p 2 true)

/-- The second that dSD watches, at its end: the ratio of a second with coded bits is judged (R112). sd_exp below 2 acts as 2.
(DEDUCED, safe: log entry 106.) -/
def Degrade.roll (x : Degrade) (run e : Nat) : Degrade :=
  if x.coded = 0 || run < x.start + second then x
  else { high := decide (x.coded < x.corrected * 10 ^ e)
         low := if x.corrected * 10 ^ (e + 1) < x.coded then x.low + 1 else 0 }

/-- A terminal at the end of a frame: whether its bursts held an uncorrectable codeword, what dSD watches (R112). -/
def TermRx.frameEnd (run e : Nat) (x : TermRx) : TermRx :=
  let x := { x with sd := x.sd.roll run e }
  match x.uncNow with
  | none => x
  | some b => { x with unc := (b :: x.unc).take 16, uncNow := none, uncAt := if x.uncHolds then run else x.uncAt }

/-- The upstream at a frame instant. -/
def State.upstreamEnd (s : State) : State :=
  let s := State.each 64 State.rxEnd s
  let s := { s with termRx := s.termRx.mapAll {} (fun _ x => x.frameEnd s.ts.run (max 2 (s.rd F.UB_THRESH_sd_exp))) }
  if s.blkDown 3 then s else { s with allocs := s.allocs.mapAll {} (fun _ a => a.instant (s.feat 5)) }

/-! ### The map of the frame (R57, R162 to R166, R381, R391) -/

/-- Frame m is one of the two after a promotion. -/
def State.justPromoted (s : State) (m : Nat) : Bool :=
  match s.pr.promoted with
  | some f => m == (f + 1) % 2 ^ 32 || m == (f + 2) % 2 ^ 32
  | none => false

/-- Why no map was sealed for frame m of the tree of port p, where a pitch was due for it (R163, R164): as the pitch ended; 1
where it has not sealed by now; 4 for the two frames after a promotion (R391); no frame is held while gp_en is 0. (DEDUCED, unsafe: log entry 77.) -/
def State.holdReason (s : State) (p m : Nat) : Option Nat :=
  let n := s.pitchTree p
  if !s.on F.GE_TREE_CFG_gp_en n then none
  else match (s.tree n).due.get none m with
    | some r => some (if r = 0 then 1 else r)
    | none => if s.justPromoted m then some 4 else none

/-- A held frame of tree n (R164): counted, and the first of a run reported. last_reason is the outcome of the last pitch, and 4 for a
frame that no engine of this device served after a promotion (R163, R391). -/
def State.holdFrame (s : State) (n r : Nat) : State :=
  let t := s.tree n
  let s := s.when (r == 4 && (t.due.get none s.ts.frame).isNone) (·.wr F.GE_TREE_STATUS_last_reason 4 n)
  let s := (s.setTree n { t with holdRun := t.holdRun + 1 }).bump F.GE_TREE_STATUS_consec_holds 1 n
  (s.bump F.GE_TREE_HOLD_holds 1 n).when (t.holdRun == 0) (·.raise 3 n 0x2001 r)

/-- A sealed map ends the run of holds of tree n (R164). -/
def State.holdEnd (s : State) (n : Nat) : State :=
  let t := s.tree n
  if t.holdRun = 0 then s
  else ((s.setTree n { t with holdRun := 0 }).wr F.GE_TREE_STATUS_consec_holds 0 n).raise 3 n 0x2002 t.holdRun

/-- Port p takes the map of frame m into its frame: the map sealed for it, or the one it transmitted last (R162); the receiver
takes its hints, on a standby none of a map that did not arrive (R85, R381). Pitches due and maps sealed for this frame are done with. -/
def State.takeMap (s : State) (p m : Nat) : State :=
  let x := s.port p
  let n := s.pitchTree p
  match x.maps.get none m with
  | some map =>
    let good := x.goodMaps + 1
    let s := s.setPort p { x with map := some map, heldMap := false, maps := x.maps.set none m none, goodMaps := good }
    let s := s.setRx p ((s.rx p).hint (some map) false)
    let s := s.when (s.tpHas p 1 && decide (16 ≤ good)) (·.tpDefect p 1 false)
    s.when (p == n && !s.isStandby) (·.holdEnd n)
  | none =>
    let late := s.isStandby && s.on F.GE_TREE_CFG_gp_en n
    let why := if s.isStandby || !((s.tree n).everSealed || x.map.isSome) then none else s.holdReason p m
    let s := s.setPort p { x with heldMap := late || why.isSome, goodMaps := if why.isSome then 0 else x.goodMaps }
    let s := s.setRx p ((s.rx p).hint (if late then none else x.map) why.isSome)
    match why with
    | none => s
    | some k => (s.tpDefect p 1 true).when (p == n) (·.holdFrame n k)

/-- The pitches due for frame m are done with. -/
def State.dueDone (s : State) (m : Nat) : State :=
  { s with trees := s.trees.mapAll {} (fun _ t => { t with due := t.due.set none m none }) }

/-! ### PLOAM, key switches (R56, R66, R67, R122, R127) -/

/-- The contexts of port p with messages that go out in successive frames, one in each, those whose series of three has begun first
(R122, R124). -/
def State.dueFrom (s : State) (p : Nat) : List Nat :=
  let l := s.taken.filter (fun t => (s.ctx t).port == p && !(s.ctx t).due.isEmpty)
  l.filter (fun t => decide ((s.ctx t).due.length < 3)) ++ l.filter (fun t => decide (3 ≤ (s.ctx t).due.length))

/-- A transmitted message: Ranging_Time puts the measured context into Operating, its drift offset 0 (R124, R127). -/
def State.ploamSent (s : State) (p : Nat) (m : Ploam) : State :=
  match m with
  | .rangingTime onu _ =>
    match s.taken.find? (fun t => (s.ctx t).port == p && (s.ctx t).onu == onu && (s.ctx t).st == .assigned
        && (s.ctx t).measured) with
    | some t => (s.setCtx t { s.ctx t with c := 0, overMax := false }).setActState t .operating
    | none => s
  | _ => s

/-- The up to 4 messages of an active's frame: up to 3 of those due in successive frames, then the queue, so that a series once begun is
not broken off and a Ranging_Time of R142 always finds room (R56, R122). (DEDUCED, unsafe: log entry 19.) -/
def State.framePloam (s : State) (p : Nat) : State :=
  let ts := (s.dueFrom p).take 3
  let ms := ts.map (fun t => (s.ctx t).due.head?.getD (.preAssignedDelay 0))
  let s := ts.foldl (fun s t => s.setCtx t { s.ctx t with due := (s.ctx t).due.tail, dueAt := s.ts.frame }) s
  let q := (s.port p).ploam
  let ms := ms ++ q.take (4 - ms.length)
  let s := s.setPort p { s.port p with ploam := q.drop (4 - ts.length), sent := ms }
  ms.foldl (fun s m => s.ploamSent p m) s

/-- The pending switches whose frame this is take effect (R67). (DEDUCED, safe: log entry 85.) -/
def State.switchKeys (s : State) (p : Nat) : State :=
  let sfc := (s.port p).sfc % 2 ^ 32
  ((s.keys.filter (fun e => match e.2.pend with
    | some (q, _, at_) => q == p && at_ == sfc
    | none => false)).map (·.1)).foldl State.keySwitched s

/-! ### A port's frame (R54 to R62, R75 to R77, R377) -/

/-- Bytes of the FS frame (R55). -/
def State.capacity (s : State) (p : Nat) : Nat := fsBytes (s.port p).xgs

/-- The room of the frame for XGEM: less HLend, BWmap, PLOAM partition and trailer (R56). (DEDUCED, unsafe: log entry 84.) -/
def State.frameRoom (s : State) (p : Nat) : Nat :=
  let x := s.port p
  let n := match x.map with
    | some m => m.structs.length + m.wins.length
    | none => 0
  s.capacity p - (4 + 8 * n + 48 * x.sent.length + 4)

/-- Port p frames: port_en = 1 in RUN or BIVOUAC, in any role (R75). -/
def State.frames (s : State) (p : Nat) : Bool := s.on F.TP_CTRL_port_en p && s.live && !s.portDown 1 p

/-- The superframe count of the frame that starts: the next of the port's counter, on a standby the mirrored one (R76, R377). -/
def State.startSfc (s : State) (p m : Nat) : Nat :=
  let own := s.rd F.TP_SFC_sfc p
  if s.isStandby then (match (s.port p).mirSfc.get 0 m with
    | 0 => own
    | n + 1 => n % 2 ^ 51)
  else own

/-- A standby frames the PLOAM messages mirrored for the frame (R377). -/
def State.mirrorPloam (s : State) (p m : Nat) : State :=
  let x := s.port p
  s.setPort p { x with sent := x.mirPloam.get [] m, mirPloam := x.mirPloam.set [] m [], mirSfc := x.mirSfc.set 0 m 0 }

/-- Frame m of port p starts: its mode, PON-ID, count, map, messages, room, and the fragment the last frame left (R54 to R62). The active sends
its partner the count and the messages (R378). (DEDUCED, safe: log entry 78.) -/
def State.startFrame (s : State) (p m : Nat) : State :=
  let sfc := s.startSfc p m
  let s := s.setFraming p true
  let s := (s.setPort p { s.port p with
    xgs := s.on F.TP_CTRL_ds_mode p, ponId := s.rd F.TP_PONID_pon_id p, sfc := sfc }).wr F.TP_SFC_sfc (sfc + 1) p
  let s := (s.takeMap p m).switchKeys p
  let s := if s.isStandby then s.mirrorPloam p m else s.framePloam p
  let s := s.setPort p { s.port p with left := s.frameRoom p }
  let s := s.sendCairn (.ploam (Fin.ofNat 64 p) m sfc (s.port p).sent)
  let s := s.todFinal p
  match (s.port p).rem with
  | some r => if s.isStandby then s
    else (s.setPort p { s.port p with rem := none }).xgemSend p r.xgem r.data r.cells
  | none => s

/-- Whether the frame in build ends with idle fill while the scheduler holds eligible traffic for the port (R79).
(DEDUCED, safe: log entry 105.) -/
def State.underrun (s : State) (p : Nat) : State :=
  let x := s.port p
  s.when (x.framing && s.pulls p && decide (12 ≤ x.left) && (s.choose p).isSome) (·.setPort p { x with under := true })

/-- Port p at frame instant m: the frame in build leaves; the next starts, or the port stops framing (R75). -/
def State.portInstant (s : State) (m p : Nat) : State :=
  let s := (s.underrun p).endFrame p
  if s.frames p then s.startFrame p m
  else
    let s := s.setFraming p false
    if (s.rx p).hintq.isEmpty then s else s.setRx p ((s.rx p).hint none false)

/-! ### The frame instant (R358) -/

/-- A frame instant, now: the frame count and its stamp, source 7, the upstream's frame, every port's. In BOOT the pacer alone
runs. (DEDUCED, safe: log entry 14.) -/
def State.atInstant (s : State) : State :=
  let s := { s with ts := { s.ts with phase := 0 } }
  if s.glb.dev == .boot then s
  else
    let m := if s.ts.started then (s.ts.frame + 1) % 2 ^ 32 else 0
    let s := { s with
      ts := { s.ts with started := true, frame := m, frameStamp := s.stamp }, evu := { s.evu with frameOrd := s.evu.ord } }
    let s := s.when (!s.blkDown 8) (·.ring 7)
    let s := State.each 64 (fun s p => s.portInstant m p) s.upstreamEnd
    (s.dueDone m).syncCheck

/-! ### Time that passes -/

/-- Since when a condition that holds now or not has held. -/
def sinceWhen (now : Bool) (run : Nat) (old : Option Nat) : Option Nat := if now then some (old.getD run) else none

/-- Since when each alarm's root has been present or absent (R422, R423). -/
def State.rootsSince (s : State) : List (AlarmKind × AlarmScope × Bool × Nat) :=
  (s.imh.roots.map (fun r => (r.1, r.2.1)) ++ (s.imh.alarms ++ s.imh.overflow.toList).map (fun a => (a.kind, a.scope))).dedup.map fun r =>
    let h := s.rootHeld r.1 r.2
    match s.lasting.roots.find? (fun e => e.1 == r.1 && e.2.1 == r.2) with
    | some e => if e.2.2.1 == h then e else (r.1, r.2, h, s.ts.run)
    | none => (r.1, r.2, h, s.ts.run)

/-- As time begins to pass: a yield that is due is tried (R394), the election takes account of members not heard of any more (R405), Imhus
does what its roots and the terminals' answers ask, and the conditions that must last for a time are noted. (DEDUCED, safe: log entry 114.) -/
def State.watch (s : State) : State :=
  let s := s.autoYield.elect.imhWatch
  let x := s.lasting
  let r := s.ts.run
  { s with lasting := {
    floor := sinceWhen (s.on F.GLB_PACE_below_floor) r x.floor
    absent := sinceWhen s.partnerAbsent r x.absent
    time := sinceWhen s.timeWorse r x.time
    path := sinceWhen (s.glb.modeIn && s.glb.role == .follower && s.followPort.isNone) r x.path
    commit := s.commitWaits.map (fun cn => (cn, match x.commit with
      | some (c, t) => if c = cn then t else r
      | none => r))
    roots := s.rootsSince } }

/-- The level conditions that beads count (R489, R494), for ns nanoseconds: lanes in idle, egresses that do not pull, spilling,
pace below the floor. (DEDUCED, unsafe: log entry 81.) -/
def State.countLevels (s : State) (ns : Nat) : State :=
  let s := s.countLevel 2 ns ((List.range 64).filter (fun p => s.on F.UB_TREE_STATUS_idle p))
  let s := s.countLevel 6 ns ((List.range 98).filter (fun e => !s.pulls e))
  let s := s.countLevel 7 ns (if s.bm.spilling then [0] else [])
  s.countLevel 14 ns (s.monIn.filter (fun i => s.rd F.PW_MON_margin i == 0))

/-- Nanoseconds of run count since run count r. -/
def State.nsSince (s : State) (r : Nat) : Nat := s.ts.run / 2 ^ 40 - r / 2 ^ 40

/-- One reference cycle, with what a scheduled step or a new increment carries along (R256, R354, R369). -/
def State.fullCycle (s : State) : State :=
  let s := s.watch
  let r := s.ts.run
  let t0 := s.absNs
  let d := s.ts.step
  let s := s.cycle
  let s := match d with
    | some d => (s.gatesStepped t0 d).todAll
    | none => s
  s.countLevels (s.nsSince r)

/-- n reference cycles: the first takes what is scheduled, the rest nothing. -/
def State.pass (s : State) (n : Nat) : State :=
  if n = 0 then s
  else
    let (s, n) := if s.ts.step.isSome || s.ts.incrNext.isSome then (s.fullCycle, n - 1) else (s, n)
    if n = 0 then s
    else
      let s := s.watch
      let r := s.ts.run
      let s := s.cycles n
      s.countLevels (s.nsSince r)

/-- The cycles until the nanosecond field, or the field after a wrap, reaches t (2^-40 ns), 0 where it has. -/
def State.cyclesTo (s : State) (t : Int) : Nat :=
  let d := t - s.ts.tb
  if d ≤ 0 then 0 else ((d.toNat + s.ts.incr - 1) / s.ts.incr)

/-- The cycles until the alignment that waits (R359), the first of them with the step and the increment that it takes along; none
without one, or while it waits for an edge. -/
def State.alignIn (s : State) : Option Nat :=
  match s.ts.align with
  | some (.ns n) =>
    let d := n - s.longTime
    let incr := s.ts.incrNext.getD s.ts.incr
    let first := (incr : Int) + (s.ts.step.getD 0) * 2 ^ 16
    some (if d ≤ 0 then 0 else 1 + ceilDiv (d - first).toNat incr)
  | _ => none

/-- The aligned instant, now (R359): the pacer's phase moves here, aligned sets, the event is raised. -/
def State.alignNow (s : State) : State :=
  let s := { s with ts := { s.ts with align := none } }
  let s := { s with imh := { s.imh with alignedPps := s.imh.alignedPps || s.on F.TS_CTRL_align_src } }
  let s := s.wr F.TS_STATUS_aligned 1
  (s.raise 8 0 0x7003 s.ns).atInstant

/-- The next frame instant: at the end of 19,440 cycles, or where an alignment puts it sooner (R358, R359). -/
def State.toInstant (s : State) : State :=
  match s.alignIn with
  | some n => if n ≤ s.cyclesLeft then (s.pass n).alignNow else (s.pass s.cyclesLeft).atInstant
  | none => (s.pass s.cyclesLeft).atInstant

/-- FRAME_INSTANT. The reference runs on to the next frame instant. (DESIGN CHOICE, safe: log entry 13.) -/
def execFrameInstant (s : State) : Res := act s State.toInstant

/-- One reference cycle, with the frame instant or the alignment that falls at its end; an alignment that is due already comes
before it. (DESIGN CHOICE, unsafe: log entry 86.) -/
def State.tick (s : State) : State :=
  let s := (if s.alignIn = some 0 then s.alignNow else s).fullCycle
  if s.alignIn = some 0 then s.alignNow else if 19440 ≤ s.ts.phase then s.atInstant else s

/-- STEP_APPLY. The scheduled step is applied at the next reference cycle (R354). -/
def execStepApply (s : State) : Res := act s fun s => if s.ts.step.isSome then s.tick else s

/-- The cycles until the nanosecond field wraps at the increment in force (R355). -/
def State.wrapIn (s : State) : Nat := s.cyclesTo tbSpan

/-- TIME_BASE_WRAP. The reference runs on to the cycle at which the nanosecond field wraps, where that lies in the frame in
progress (R355); a notice before its time does nothing. -/
def execTimeBaseWrap (s : State) : Res :=
  act s fun s => if s.ts.step.isNone && s.ts.incrNext.isNone && decide (s.wrapIn < s.cyclesLeft) && s.alignIn.all (s.wrapIn < ·)
    then s.pass s.wrapIn else s

/-- FRAME_ALIGNED. The reference runs on to the aligned instant where that lies in the frame in progress; a notice before its time
does nothing (R359). -/
def execFrameAligned (s : State) : Res :=
  act s fun s => match s.alignIn with
    | some n => if n ≤ s.cyclesLeft then (s.pass n).alignNow else s
    | none => s

end Sys2Proof.Machine
end

