-- ==== Sys2Proof/Machine/Dispatch.lean ====
section
/-! DEFINITION. The dispatch of the commands to their meanings: one arm per row of spec/opcode_table.json. -/

namespace Sys2Proof.Machine

def exec (i : Instr) (s : State) : Host.Outcome State Fault Refusal :=
  match i with
  | .stateRequestReady r => Sys2Proof.Machine.execStateRequestReady r s
  | .stateRequestRun r => Sys2Proof.Machine.execStateRequestRun r s
  | .stateRequestTest r => Sys2Proof.Machine.execStateRequestTest r s
  | .stateRequestBivouac r => Sys2Proof.Machine.execStateRequestBivouac r s
  | .stateRequestSafe r => Sys2Proof.Machine.execStateRequestSafe r s
  | .stateRequestBootOrReserved r t => Sys2Proof.Machine.execStateRequestBootOrReserved r t s
  | .downstreamStop => Sys2Proof.Machine.execDownstreamStop s
  | .fatalFault c => Sys2Proof.Machine.execFatalFault c s
  | .featAcceptWrite r v => Sys2Proof.Machine.execFeatAcceptWrite r v s
  | .featLockWrite r v => Sys2Proof.Machine.execFeatLockWrite r v s
  | .modeWrite r v => Sys2Proof.Machine.execModeWrite r v s
  | .unmappedAccess write off => Sys2Proof.Machine.execUnmappedAccess write off s
  | .registerWrite r slot v => Sys2Proof.Machine.execRegisterWrite r slot v s
  | .lowerSlotRead r slot => Sys2Proof.Machine.execLowerSlotRead r slot s
  | .paceBelowFloor mon => Sys2Proof.Machine.execPaceBelowFloor mon s
  | .eventCommit block inst => Sys2Proof.Machine.execEventCommit block inst s
  | .eventsLost block inst => Sys2Proof.Machine.execEventsLost block inst s
  | .tallySlotEnd => Sys2Proof.Machine.execTallySlotEnd s
  | .tallyCfgWrite r v => Sys2Proof.Machine.execTallyCfgWrite r v s
  | .generationRetired o => Sys2Proof.Machine.execGenerationRetired o s
  | .slowRetire o => Sys2Proof.Machine.execSlowRetire o s
  | .pcProgCommit r v => Sys2Proof.Machine.execPcProgCommit r v s
  | .clRuleCommit r v => Sys2Proof.Machine.execClRuleCommit r v s
  | .geProgCommit r v => Sys2Proof.Machine.execGeProgCommit r v s
  | .qsGateCommit r v => Sys2Proof.Machine.execQsGateCommit r v s
  | .qsShapeCommit r v => Sys2Proof.Machine.execQsShapeCommit r v s
  | .egressPull eg => Sys2Proof.Machine.execEgressPull eg s
  | .tpCtrlWrite r p v => Sys2Proof.Machine.execTpCtrlWrite r p v s
  | .keyQuery r p group t => Sys2Proof.Machine.execKeyQuery r p group t s
  | .keyWrite r p group slot t => Sys2Proof.Machine.execKeyWrite r p group slot t s
  | .keyInvalidate r p group slot t => Sys2Proof.Machine.execKeyInvalidate r p group slot t s
  | .keySwitch r p group slot t => Sys2Proof.Machine.execKeySwitch r p group slot t s
  | .keyGraceExpire t => Sys2Proof.Machine.execKeyGraceExpire t s
  | .tpDefectTimer p d set => Sys2Proof.Machine.execTpDefectTimer p d set s
  | .ubTreeCfgWrite r p v => Sys2Proof.Machine.execUbTreeCfgWrite r p v s
  | .ubTreeProfWrite r p v => Sys2Proof.Machine.execUbTreeProfWrite r p v s
  | .presetQuery r t => Sys2Proof.Machine.execPresetQuery r t s
  | .presetDrop r t => Sys2Proof.Machine.execPresetDrop r t s
  | .burstArm p first => Sys2Proof.Machine.execBurstArm p first s
  | .receiverWake p => Sys2Proof.Machine.execReceiverWake p s
  | .fsHeaderReceived p first onu tries phase ind => Sys2Proof.Machine.execFsHeaderReceived p first onu tries phase ind s
  | .delimiterWindowClose p first => Sys2Proof.Machine.execDelimiterWindowClose p first s
  | .codewordRelease p first start cw => Sys2Proof.Machine.execCodewordRelease p first start cw s
  | .ploamuReceived p first micOk msg => Sys2Proof.Machine.execPloamuReceived p first micOk msg s
  | .burstClose p first fin => Sys2Proof.Machine.execBurstClose p first fin s
  | .unexpectedEnergy p q => Sys2Proof.Machine.execUnexpectedEnergy p q s
  | .reassemblyTimeout x => Sys2Proof.Machine.execReassemblyTimeout x s
  | .presetAgeOut t => Sys2Proof.Machine.execPresetAgeOut t s
  | .ubDefectTimer d set => Sys2Proof.Machine.execUbDefectTimer d set s
  | .contextQuery r => Sys2Proof.Machine.execContextQuery r s
  | .contextAllocate r anyId => Sys2Proof.Machine.execContextAllocate r anyId s
  | .contextFree r => Sys2Proof.Machine.execContextFree r s
  | .contextBind r => Sys2Proof.Machine.execContextBind r s
  | .contextDisable r => Sys2Proof.Machine.execContextDisable r s
  | .contextEnable r => Sys2Proof.Machine.execContextEnable r s
  | .activateNow r => Sys2Proof.Machine.execActivateNow r s
  | .leavingComplete t => Sys2Proof.Machine.execLeavingComplete t s
  | .onuIdHoldExpire p onu => Sys2Proof.Machine.execOnuIdHoldExpire p onu s
  | .poolTreeWrite r p v => Sys2Proof.Machine.execPoolTreeWrite r p v s
  | .serialNumberOnu p sn a => Sys2Proof.Machine.execSerialNumberOnu p sn a s
  | .registration p onu x16 => Sys2Proof.Machine.execRegistration p onu x16 s
  | .foundInfoRead r p => Sys2Proof.Machine.execFoundInfoRead r p s
  | .foundEntryExpire p sn => Sys2Proof.Machine.execFoundEntryExpire p sn s
  | .directedAttempt p => Sys2Proof.Machine.execDirectedAttempt p s
  | .rangingCycleEnd p => Sys2Proof.Machine.execRangingCycleEnd p s
  | .discoverySliceDue p => Sys2Proof.Machine.execDiscoverySliceDue p s
  | .preAssignedDelaySend p => Sys2Proof.Machine.execPreAssignedDelaySend p s
  | .eqdConfirmTimeout t => Sys2Proof.Machine.execEqdConfirmTimeout t s
  | .lostTimeout t => Sys2Proof.Machine.execLostTimeout t s
  | .pitchOpen p => Sys2Proof.Machine.execPitchOpen p s
  | .pitchDeadline p => Sys2Proof.Machine.execPitchDeadline p s
  | .mapBuildComplete p => Sys2Proof.Machine.execMapBuildComplete p s
  | .frameInstant => Sys2Proof.Machine.execFrameInstant s
  | .bistPassComplete e ok unit => Sys2Proof.Machine.execBistPassComplete e ok unit s
  | .spareRotation => Sys2Proof.Machine.execSpareRotation s
  | .takeoverLoadComplete => Sys2Proof.Machine.execTakeoverLoadComplete s
  | .engineQuery r e => Sys2Proof.Machine.execEngineQuery r e s
  | .engineRepair r e => Sys2Proof.Machine.execEngineRepair r e s
  | .engineRepairDone ok => Sys2Proof.Machine.execEngineRepairDone ok s
  | .engineRotate r => Sys2Proof.Machine.execEngineRotate r s
  | .geProgDataWrite r v => Sys2Proof.Machine.execGeProgDataWrite r v s
  | .geTableRead r table upper idx => Sys2Proof.Machine.execGeTableRead r table upper idx s
  | .geTableWrite r table upper idx => Sys2Proof.Machine.execGeTableWrite r table upper idx s
  | .allocContextAllocate r table upper => Sys2Proof.Machine.execAllocContextAllocate r table upper s
  | .allocContextFree r table upper idx => Sys2Proof.Machine.execAllocContextFree r table upper idx s
  | .allocHoldExpire a => Sys2Proof.Machine.execAllocHoldExpire a s
  | .keepClear r p => Sys2Proof.Machine.execKeepClear r p s
  | .grantNop p => Sys2Proof.Machine.execGrantNop p s
  | .grantAdd p d a b => Sys2Proof.Machine.execGrantAdd p d a b s
  | .grantSub p d a b => Sys2Proof.Machine.execGrantSub p d a b s
  | .grantAdc p d a b => Sys2Proof.Machine.execGrantAdc p d a b s
  | .grantSbc p d a b => Sys2Proof.Machine.execGrantSbc p d a b s
  | .grantAnd p d a b => Sys2Proof.Machine.execGrantAnd p d a b s
  | .grantOr p d a b => Sys2Proof.Machine.execGrantOr p d a b s
  | .grantXor p d a b => Sys2Proof.Machine.execGrantXor p d a b s
  | .grantShl p d a b => Sys2Proof.Machine.execGrantShl p d a b s
  | .grantShr p d a b => Sys2Proof.Machine.execGrantShr p d a b s
  | .grantSra p d a b => Sys2Proof.Machine.execGrantSra p d a b s
  | .grantMul p d a b => Sys2Proof.Machine.execGrantMul p d a b s
  | .grantMulh p d a b => Sys2Proof.Machine.execGrantMulh p d a b s
  | .grantDivu p d a b => Sys2Proof.Machine.execGrantDivu p d a b s
  | .grantMinu p d a b => Sys2Proof.Machine.execGrantMinu p d a b s
  | .grantMaxu p d a b => Sys2Proof.Machine.execGrantMaxu p d a b s
  | .grantCmp p a b => Sys2Proof.Machine.execGrantCmp p a b s
  | .grantShlq p d a n => Sys2Proof.Machine.execGrantShlq p d a n s
  | .grantShrq p d a n => Sys2Proof.Machine.execGrantShrq p d a n s
  | .grantSraq p d a n => Sys2Proof.Machine.execGrantSraq p d a n s
  | .grantAddq p d a k => Sys2Proof.Machine.execGrantAddq p d a k s
  | .grantAddi p d a imm => Sys2Proof.Machine.execGrantAddi p d a imm s
  | .grantAndi p d a imm => Sys2Proof.Machine.execGrantAndi p d a imm s
  | .grantOri p d a imm => Sys2Proof.Machine.execGrantOri p d a imm s
  | .grantXori p d a imm => Sys2Proof.Machine.execGrantXori p d a imm s
  | .grantLdi p d imm => Sys2Proof.Machine.execGrantLdi p d imm s
  | .grantCmpi p a imm => Sys2Proof.Machine.execGrantCmpi p a imm s
  | .grantQadd p d a b => Sys2Proof.Machine.execGrantQadd p d a b s
  | .grantQsub p d a b => Sys2Proof.Machine.execGrantQsub p d a b s
  | .grantNsq p d a => Sys2Proof.Machine.execGrantNsq p d a s
  | .grantQns p d a => Sys2Proof.Machine.execGrantQns p d a s
  | .grantLd p d a imm mem => Sys2Proof.Machine.execGrantLd p d a imm mem s
  | .grantSt p d a imm => Sys2Proof.Machine.execGrantSt p d a imm s
  | .grantLdx p d a b mem => Sys2Proof.Machine.execGrantLdx p d a b mem s
  | .grantStx p d a b => Sys2Proof.Machine.execGrantStx p d a b s
  | .grantTrm p d a w => Sys2Proof.Machine.execGrantTrm p d a w s
  | .grantAlc p d a w => Sys2Proof.Machine.execGrantAlc p d a w s
  | .grantRpt p d a w => Sys2Proof.Machine.execGrantRpt p d a w s
  | .grantHst p d a k => Sys2Proof.Machine.execGrantHst p d a k s
  | .grantHsum p d a n => Sys2Proof.Machine.execGrantHsum p d a n s
  | .grantHpeak p d a n => Sys2Proof.Machine.execGrantHpeak p d a n s
  | .grantHrsum p d a n => Sys2Proof.Machine.execGrantHrsum p d a n s
  | .grantTwt p d a w => Sys2Proof.Machine.execGrantTwt p d a w s
  | .grantAwt p d a w => Sys2Proof.Machine.execGrantAwt p d a w s
  | .grantSweep p d a m => Sys2Proof.Machine.execGrantSweep p d a m s
  | .grantNext p d => Sys2Proof.Machine.execGrantNext p d s
  | .grantOvh p d a m => Sys2Proof.Machine.execGrantOvh p d a m s
  | .grantEmit p d a b => Sys2Proof.Machine.execGrantEmit p d a b s
  | .grantGate p d a b => Sys2Proof.Machine.execGrantGate p d a b s
  | .grantRecall p a m => Sys2Proof.Machine.execGrantRecall p a m s
  | .grantDdesc p d ix => Sys2Proof.Machine.execGrantDdesc p d ix s
  | .grantWin p a ix => Sys2Proof.Machine.execGrantWin p a ix s
  | .grantCal p a b => Sys2Proof.Machine.execGrantCal p a b s
  | .grantSeal p => Sys2Proof.Machine.execGrantSeal p s
  | .grantYield p => Sys2Proof.Machine.execGrantYield p s
  | .grantMfs p d sel => Sys2Proof.Machine.execGrantMfs p d sel s
  | .grantBrs p cond off => Sys2Proof.Machine.execGrantBrs p cond off s
  | .grantBr p cond target => Sys2Proof.Machine.execGrantBr p cond target s
  | .grantCall p target => Sys2Proof.Machine.execGrantCall p target s
  | .grantRet p => Sys2Proof.Machine.execGrantRet p s
  | .grantJr p a => Sys2Proof.Machine.execGrantJr p a s
  | .qsRowRead r table idx => Sys2Proof.Machine.execQsRowRead r table idx s
  | .qsRowWrite r table idx => Sys2Proof.Machine.execQsRowWrite r table idx s
  | .qsQueueStatus r table idx => Sys2Proof.Machine.execQsQueueStatus r table idx s
  | .qsFlush r table idx => Sys2Proof.Machine.execQsFlush r table idx s
  | .bucketUpdate n => Sys2Proof.Machine.execBucketUpdate n s
  | .gateListStart l => Sys2Proof.Machine.execGateListStart l s
  | .gateEntryChange l => Sys2Proof.Machine.execGateEntryChange l s
  | .oldCycleEnd l => Sys2Proof.Machine.execOldCycleEnd l s
  | .packetArrival src k => Sys2Proof.Machine.execPacketArrival src k s
  | .passDispatch pid => Sys2Proof.Machine.execPassDispatch pid s
  | .parseNop pid => Sys2Proof.Machine.execParseNop pid s
  | .parseAdd pid d a b => Sys2Proof.Machine.execParseAdd pid d a b s
  | .parseSub pid d a b => Sys2Proof.Machine.execParseSub pid d a b s
  | .parseAnd pid d a b => Sys2Proof.Machine.execParseAnd pid d a b s
  | .parseOr pid d a b => Sys2Proof.Machine.execParseOr pid d a b s
  | .parseXor pid d a b => Sys2Proof.Machine.execParseXor pid d a b s
  | .parseShl pid d a b => Sys2Proof.Machine.execParseShl pid d a b s
  | .parseShr pid d a b => Sys2Proof.Machine.execParseShr pid d a b s
  | .parseSra pid d a b => Sys2Proof.Machine.execParseSra pid d a b s
  | .parseCmp pid a b => Sys2Proof.Machine.execParseCmp pid a b s
  | .parseMin pid d a b => Sys2Proof.Machine.execParseMin pid d a b s
  | .parseMax pid d a b => Sys2Proof.Machine.execParseMax pid d a b s
  | .parseMul pid d a b => Sys2Proof.Machine.execParseMul pid d a b s
  | .parseAddi pid d a imm => Sys2Proof.Machine.execParseAddi pid d a imm s
  | .parseAndi pid d a imm => Sys2Proof.Machine.execParseAndi pid d a imm s
  | .parseOri pid d a imm => Sys2Proof.Machine.execParseOri pid d a imm s
  | .parseXori pid d a imm => Sys2Proof.Machine.execParseXori pid d a imm s
  | .parseCmpi pid a imm => Sys2Proof.Machine.execParseCmpi pid a imm s
  | .parseLdi pid d imm => Sys2Proof.Machine.execParseLdi pid d imm s
  | .parseLdu pid d imm => Sys2Proof.Machine.execParseLdu pid d imm s
  | .parseShli pid d a imm => Sys2Proof.Machine.execParseShli pid d a imm s
  | .parseShri pid d a imm => Sys2Proof.Machine.execParseShri pid d a imm s
  | .parseBfx pid d a off w1 => Sys2Proof.Machine.execParseBfx pid d a off w1 s
  | .parseBfi pid d a off w1 => Sys2Proof.Machine.execParseBfi pid d a off w1 s
  | .parseExt pid d a off w1 => Sys2Proof.Machine.execParseExt pid d a off w1 s
  | .parseAdv pid a imm => Sys2Proof.Machine.execParseAdv pid a imm s
  | .parseMfs pid d sel => Sys2Proof.Machine.execParseMfs pid d sel s
  | .parseHsh pid d a n1 sym => Sys2Proof.Machine.execParseHsh pid d a n1 sym s
  | .parseLkx pid d a tbl n1 => Sys2Proof.Machine.execParseLkx pid d a tbl n1 s
  | .parseLkt pid d a tbl n1 => Sys2Proof.Machine.execParseLkt pid d a tbl n1 s
  | .parseBr pid cond target => Sys2Proof.Machine.execParseBr pid cond target s
  | .parseCall pid target => Sys2Proof.Machine.execParseCall pid target s
  | .parseRet pid => Sys2Proof.Machine.execParseRet pid s
  | .parseEnq pid a b imm => Sys2Proof.Machine.execParseEnq pid a b imm s
  | .parseDrp pid imm => Sys2Proof.Machine.execParseDrp pid imm s
  | .parseRcv pid imm => Sys2Proof.Machine.execParseRcv pid imm s
  | .parseExc pid imm => Sys2Proof.Machine.execParseExc pid imm s
  | .lookupReply pid ix read => Sys2Proof.Machine.execLookupReply pid ix read s
  | .verdictCommit src => Sys2Proof.Machine.execVerdictCommit src s
  | .holdMaxTimeout pid => Sys2Proof.Machine.execHoldMaxTimeout pid s
  | .pcProgDataHiWrite r v => Sys2Proof.Machine.execPcProgDataHiWrite r v s
  | .coreQuery r c => Sys2Proof.Machine.execCoreQuery r c s
  | .coreRepair r c => Sys2Proof.Machine.execCoreRepair r c s
  | .coreRepairDone ok => Sys2Proof.Machine.execCoreRepairDone ok s
  | .clRead r kind tbl => Sys2Proof.Machine.execClRead r kind tbl s
  | .clWrite r kind tbl => Sys2Proof.Machine.execClWrite r kind tbl s
  | .clAdd r kind tbl => Sys2Proof.Machine.execClAdd r kind tbl s
  | .clDelete r kind tbl => Sys2Proof.Machine.execClDelete r kind tbl s
  | .clFind r kind tbl => Sys2Proof.Machine.execClFind r kind tbl s
  | .spreadBucketsMoved g m => Sys2Proof.Machine.execSpreadBucketsMoved g m s
  | .spreadBucketsRestored g m => Sys2Proof.Machine.execSpreadBucketsRestored g m s
  | .fetchIssue q => Sys2Proof.Machine.execFetchIssue q s
  | .fetchComplete q errs => Sys2Proof.Machine.execFetchComplete q errs s
  | .spillWriteComplete => Sys2Proof.Machine.execSpillWriteComplete s
  | .cellLastByteRead c => Sys2Proof.Machine.execCellLastByteRead c s
  | .scrubRead t errs => Sys2Proof.Machine.execScrubRead t errs s
  | .scrubSweepLate deep => Sys2Proof.Machine.execScrubSweepLate deep s
  | .rowRepairComplete m row correctable => Sys2Proof.Machine.execRowRepairComplete m row correctable s
  | .relocationComplete x => Sys2Proof.Machine.execRelocationComplete x s
  | .memoryTestQuery r => Sys2Proof.Machine.execMemoryTestQuery r s
  | .packetBufferTest r => Sys2Proof.Machine.execPacketBufferTest r s
  | .deepMemoryTest r => Sys2Proof.Machine.execDeepMemoryTest r s
  | .memoryTestDone failUnit => Sys2Proof.Machine.execMemoryTestDone failUnit s
  | .bmSpillWrite r v => Sys2Proof.Machine.execBmSpillWrite r v s
  | .timeBaseWrap => Sys2Proof.Machine.execTimeBaseWrap s
  | .tsIncrWrite r v => Sys2Proof.Machine.execTsIncrWrite r v s
  | .tsAdjWrite r v => Sys2Proof.Machine.execTsAdjWrite r v s
  | .stepApply => Sys2Proof.Machine.execStepApply s
  | .alignGo r v => Sys2Proof.Machine.execAlignGo r v s
  | .frameAligned => Sys2Proof.Machine.execFrameAligned s
  | .ppsEdge => Sys2Proof.Machine.execPpsEdge s
  | .ppsLost => Sys2Proof.Machine.execPpsLost s
  | .todQuery r p => Sys2Proof.Machine.execTodQuery r p s
  | .todCompute r p => Sys2Proof.Machine.execTodCompute r p s
  | .todCancel r p => Sys2Proof.Machine.execTodCancel r p s
  | .termDelayCompute r t => Sys2Proof.Machine.execTermDelayCompute r t s
  | .belaySeenEdge => Sys2Proof.Machine.execBelaySeenEdge s
  | .belaySeenTimeout => Sys2Proof.Machine.execBelaySeenTimeout s
  | .laserSettle => Sys2Proof.Machine.execLaserSettle s
  | .heartbeatTimeout => Sys2Proof.Machine.execHeartbeatTimeout s
  | .hello rp h => Sys2Proof.Machine.execHello rp h s
  | .healthRecord rec => Sys2Proof.Machine.execHealthRecord rec s
  | .timeMessage rp sent echo arrived => Sys2Proof.Machine.execTimeMessage rp sent echo arrived s
  | .portLatencies lats => Sys2Proof.Machine.execPortLatencies lats s
  | .mapCairn cn evseq p frame m => Sys2Proof.Machine.execMapCairn cn evseq p frame m s
  | .ploamCairn cn evseq p frame sfc msgs => Sys2Proof.Machine.execPloamCairn cn evseq p frame sfc msgs s
  | .stateCairn cn evseq c => Sys2Proof.Machine.execStateCairn cn evseq c s
  | .commandCairn cn evseq c => Sys2Proof.Machine.execCommandCairn cn evseq c s
  | .keepCairn cn evseq p words => Sys2Proof.Machine.execKeepCairn cn evseq p words s
  | .snapshotRecord cn x => Sys2Proof.Machine.execSnapshotRecord cn x s
  | .snapshotEnd cn => Sys2Proof.Machine.execSnapshotEnd cn s
  | .replayRequest fromCn snapshot => Sys2Proof.Machine.execReplayRequest fromCn snapshot s
  | .cascadeMessage rp m => Sys2Proof.Machine.execCascadeMessage rp m s
  | .cairnLate p => Sys2Proof.Machine.execCairnLate p s
  | .healthRecordSend => Sys2Proof.Machine.execHealthRecordSend s
  | .helloSend rp => Sys2Proof.Machine.execHelloSend rp s
  | .timeMessageSend rp => Sys2Proof.Machine.execTimeMessageSend rp s
  | .healthTimeout => Sys2Proof.Machine.execHealthTimeout s
  | .pairQuery r => Sys2Proof.Machine.execPairQuery r s
  | .pairYield r => Sys2Proof.Machine.execPairYield r s
  | .pairTake r => Sys2Proof.Machine.execPairTake r s
  | .pairResync r => Sys2Proof.Machine.execPairResync r s
  | .yieldInstant => Sys2Proof.Machine.execYieldInstant s
  | .revertHoldExpire => Sys2Proof.Machine.execRevertHoldExpire s
  | .ropeFrame rp lanes => Sys2Proof.Machine.execRopeFrame rp lanes s
  | .restripeComplete rp => Sys2Proof.Machine.execRestripeComplete rp s
  | .ropePartnerAbsent rp => Sys2Proof.Machine.execRopePartnerAbsent rp s
  | .holdoverEnter => Sys2Proof.Machine.execHoldoverEnter s
  | .laneEnable r l v => Sys2Proof.Machine.execLaneEnable r l v s
  | .laneDisable r l v => Sys2Proof.Machine.execLaneDisable r l v s
  | .errorInject r l v => Sys2Proof.Machine.execErrorInject r l v s
  | .laneUp x => Sys2Proof.Machine.execLaneUp x s
  | .laneBringupTimeout l => Sys2Proof.Machine.execLaneBringupTimeout l s
  | .laneLoss l c => Sys2Proof.Machine.execLaneLoss l c s
  | .laneRetrain l => Sys2Proof.Machine.execLaneRetrain l s
  | .laneQuery r l => Sys2Proof.Machine.execLaneQuery r l s
  | .laneRecalibrate r l => Sys2Proof.Machine.execLaneRecalibrate r l s
  | .retrainNow r l => Sys2Proof.Machine.execRetrainNow r l s
  | .calibrationStart p => Sys2Proof.Machine.execCalibrationStart p s
  | .calibrationStep p x => Sys2Proof.Machine.execCalibrationStep p x s
  | .ringEnable r ring v => Sys2Proof.Machine.execRingEnable r ring v s
  | .ringDisable r ring v => Sys2Proof.Machine.execRingDisable r ring v s
  | .ringTailWrite r ring v => Sys2Proof.Machine.execRingTailWrite r ring v s
  | .ringHeadWrite r ring v => Sys2Proof.Machine.execRingHeadWrite r ring v s
  | .channelPause r c v => Sys2Proof.Machine.execChannelPause r c v s
  | .channelResume r c v => Sys2Proof.Machine.execChannelResume r c v s
  | .channelDisable r c v => Sys2Proof.Machine.execChannelDisable r c v s
  | .channelQuery r c => Sys2Proof.Machine.execChannelQuery r c s
  | .channelRepair r c => Sys2Proof.Machine.execChannelRepair r c s
  | .channelStop r c => Sys2Proof.Machine.execChannelStop r c s
  | .beatMove c => Sys2Proof.Machine.execBeatMove c s
  | .readCompletion c data ok => Sys2Proof.Machine.execReadCompletion c data ok s
  | .descriptorWriteback c => Sys2Proof.Machine.execDescriptorWriteback c s
  | .ringIrqTimer ring => Sys2Proof.Machine.execRingIrqTimer ring s
  | .lossRecord ring => Sys2Proof.Machine.execLossRecord ring s
  | .vfFlr f => Sys2Proof.Machine.execVfFlr f s
  | .pfFlr => Sys2Proof.Machine.execPfFlr s
  | .pcieLinkDown => Sys2Proof.Machine.execPcieLinkDown s
  | .vfCfgWrite r ix v => Sys2Proof.Machine.execVfCfgWrite r ix v s
  | .vecMapWrite r ix v => Sys2Proof.Machine.execVecMapWrite r ix v s
  | .vfUnmappedAccess f off write => Sys2Proof.Machine.execVfUnmappedAccess f off write s
  | .doorbell r src => Sys2Proof.Machine.execDoorbell r src s
  | .guideCoreEntry t => Sys2Proof.Machine.execGuideCoreEntry t s
  | .claimRead r t => Sys2Proof.Machine.execClaimRead r t s
  | .completeWrite r t src => Sys2Proof.Machine.execCompleteWrite r t src s
  | .msixAutoComplete t => Sys2Proof.Machine.execMsixAutoComplete t s
  | .srcCfgWrite r src v => Sys2Proof.Machine.execSrcCfgWrite r src v s
  | .threshWrite r t v => Sys2Proof.Machine.execThreshWrite r t v s
  | .watchWrite r w v => Sys2Proof.Machine.execWatchWrite r w v s
  | .watchWake src => Sys2Proof.Machine.execWatchWake src s
  | .windowClose => Sys2Proof.Machine.execWindowClose s
  | .beadCfgWrite r b k v => Sys2Proof.Machine.execBeadCfgWrite r b k v s
  | .domainQuery r d => Sys2Proof.Machine.execDomainQuery r d s
  | .domainDownRequest r d => Sys2Proof.Machine.execDomainDownRequest r d s
  | .domainQuiescent => Sys2Proof.Machine.execDomainQuiescent s
  | .domainTimeout => Sys2Proof.Machine.execDomainTimeout s
  | .domainUpRequest r d => Sys2Proof.Machine.execDomainUpRequest r d s
  | .domainUpComplete => Sys2Proof.Machine.execDomainUpComplete s
  | .avsPeriod margins current => Sys2Proof.Machine.execAvsPeriod margins current s
  | .avsBusFault => Sys2Proof.Machine.execAvsBusFault s
  | .thermalSample temps => Sys2Proof.Machine.execThermalSample temps s
  | .powerOnReset st authReq => Sys2Proof.Machine.execPowerOnReset st authReq s
  | .pinReset st => Sys2Proof.Machine.execPinReset st s
  | .deviceReset r key st => Sys2Proof.Machine.execDeviceReset r key st s
  | .blockReset r key block => Sys2Proof.Machine.execBlockReset r key block s
  | .supplyFail => Sys2Proof.Machine.execSupplyFail s
  | .bootDataWrite r v => Sys2Proof.Machine.execBootDataWrite r v s
  | .bootGo r v => Sys2Proof.Machine.execBootGo r v s
  | .bootLoadComplete l => Sys2Proof.Machine.execBootLoadComplete l s
  | .bootSelfTestComplete engFail coreFail rowsRepaired => Sys2Proof.Machine.execBootSelfTestComplete engFail coreFail rowsRepaired s
  | .managementRead off => Sys2Proof.Machine.execManagementRead off s
  | .version => Sys2Proof.Machine.execVersion s
  | .status => Sys2Proof.Machine.execStatus s
  | .digest => Sys2Proof.Machine.execDigest s
  | .templatePut => Sys2Proof.Machine.execTemplatePut s
  | .templateDel => Sys2Proof.Machine.execTemplateDel s
  | .bind => Sys2Proof.Machine.execBind s
  | .unbind => Sys2Proof.Machine.execUnbind s
  | .apply => Sys2Proof.Machine.execApply s
  | .termQuery => Sys2Proof.Machine.execTermQuery s
  | .alarmList => Sys2Proof.Machine.execAlarmList s
  | .alarmCfg => Sys2Proof.Machine.execAlarmCfg s
  | .pairOp => Sys2Proof.Machine.execPairOp s
  | .pairPolicy => Sys2Proof.Machine.execPairPolicy s
  | .timeSteer => Sys2Proof.Machine.execTimeSteer s
  | .ptpCfg => Sys2Proof.Machine.execPtpCfg s
  | .onuImage => Sys2Proof.Machine.execOnuImage s
  | .mailboxReply => Sys2Proof.Machine.execMailboxReply s
  | .mailboxFinalResult ix result => Sys2Proof.Machine.execMailboxFinalResult ix result s
  | .guideCoreHalt core => Sys2Proof.Machine.execGuideCoreHalt core s
  | .keyRotationDue t key => Sys2Proof.Machine.execKeyRotationDue t key s
  | .omciRetry t => Sys2Proof.Machine.execOmciRetry t s
  | .alarmRaiseSoak k sc => Sys2Proof.Machine.execAlarmRaiseSoak k sc s
  | .alarmClearSoak k sc => Sys2Proof.Machine.execAlarmClearSoak k sc s
  | .grantIllegalInstruction p => Sys2Proof.Machine.execGrantIllegalInstruction p s
  | .parseIllegalInstruction pid => Sys2Proof.Machine.execParseIllegalInstruction pid s
  | .memoryTrainingComplete ok deepCfg => Sys2Proof.Machine.execMemoryTrainingComplete ok deepCfg s
  | .blockResetComplete => Sys2Proof.Machine.execBlockResetComplete s
  | .pcieLinkUp speed width => Sys2Proof.Machine.execPcieLinkUp speed width s
  | .groupLock x => Sys2Proof.Machine.execGroupLock x s
  | .checkerLock l => Sys2Proof.Machine.execCheckerLock l s
  | .checkerLockLoss l => Sys2Proof.Machine.execCheckerLockLoss l s
  | .parseSelfTestPass core ok => Sys2Proof.Machine.execParseSelfTestPass core ok s
  | .commitWaitTimeout => Sys2Proof.Machine.execCommitWaitTimeout s
  | .cairnRequestTimeout => Sys2Proof.Machine.execCairnRequestTimeout s
  | .takeUnsynced => Sys2Proof.Machine.execTakeUnsynced s
  | .timeOkYield => Sys2Proof.Machine.execTimeOkYield s
  | .targetWake t => Sys2Proof.Machine.execTargetWake t s
  | .belowFloorHeld => Sys2Proof.Machine.execBelowFloorHeld s

end Sys2Proof.Machine
end

