-- ==== Sys2Proof/Machine/Idle.lean ====
section
/-! DEFINITION. What the block does while no command waits: one reference cycle passes (log entry 3). -/

namespace Sys2Proof.Machine

/-- One reference cycle of 6.43 ns; none while the supply monitors hold the device in reset (R526).
(DESIGN CHOICE, unsafe: log entry 3.) -/
def State.idle (s : State) : State := if s.pw.held then s else s.afterCmd s.tick

end Sys2Proof.Machine
end

