-- ==== Sys2Proof/Safety.lean ====
section
/-! DEFINITION. What counts as a safe state, and the conditions on states in whose terms the statements are made. -/

namespace Sys2Proof.Machine

/-- LASER_EN is high only while the device claims and BELAY_SEEN reads released (R373). -/
abbrev State.LaserSafe (s : State) : Prop := s.belay.laser = true → s.belay.claim = true ∧ s.belay.seen = false

/-- The device is not held in reset by its supply monitors (R526), and its gate of LASER_EN stands as the watch domain drives it. -/
abbrev State.Powered (s : State) : Prop := s.pw.held = false ∧ s.LaserSafe

/-- Nothing but messages on the ropes has left: the scramblers and the frame counts of the ports have gone on with them. -/
abbrev State.SentOnly (s t : State) : Prop :=
  t = { s with out := t.out, pr := { s.pr with scr := t.pr.scr, ropes := t.pr.ropes } } ∧
  ∀ q, t.rope q = { s.rope q with tx := (t.rope q).tx }

/-- The requesters that write GLB_STATE_REQ and the registers of the owners: the physical function and the guide cores. -/
abbrev IsHost (r : Requester) : Prop := r = .pf ∨ r = .guide

/-- No move, domain command or memory test holds up a request for a state (R15). -/
abbrev State.MoveFree (s : State) : Prop :=
  s.glb.move = none ∧ s.pw.dom = none ∧ s.on F.BM_TEST_STATUS_busy = false

/-- An event with these fields waits at its source, stamped now. -/
abbrev State.Raised (t : State) (b i code arg : Nat) : Prop :=
  ∃ e ∈ t.evu.wait, e.block = b ∧ e.inst = i ∧ e.code = code ∧ e.arg = arg % 2 ^ 32

/-- The source has room for an event (R42). -/
abbrev State.Room (s : State) (b i : Nat) : Prop := s.waiting b i < 16

/-- The requester commands the registers of every block: the owner of a device that is no standby and whose BAR0 decodes them. -/
abbrev State.Owner (s : State) (r : Requester) : Prop := IsHost r ∧ s.owns r = true ∧ s.isStandby = false ∧ s.pcieBoot = false

/-- The blocks are up: no block reset stands, no domain is down and BAR0 decodes every block's registers (R52, R512). -/
abbrev State.AllUp (s : State) : Prop := s.pw.blk = [] ∧ s.rd F.PW_DOM_STATUS_down = 0 ∧ s.pcieBoot = false

/-- What a commit at this run count does to an object's generations (R30, R33, R34) where no authentication is asked for. -/
abbrev Committed (run : Nat) (g h : Gen) : Prop :=
  h = if g.ret.isSome then { g with status := 1 } else if g.staged = false then { g with status := 2 }
    else { cur := (g.cur + 1) % 16, ret := some g.cur, status := 0, staged := false, at_ := run, slow := false }

/-- The open pitch x of tree p stands at the instruction words ws, inside its image and before its deadline (R188, R193, R194). -/
abbrev State.Stands (s : State) (p : Nat) (ws : List Nat) (x : Pitch) : Prop :=
  (s.tree p).pitch = some x ∧ x.pc + ws.length ≤ x.len ∧ s.ts.run < x.deadline ∧
    (List.range ws.length).all (fun i => s.imageWord x.bank (x.pc + i) == ws.getD i 0) = true

/-- The state in which the pitch of tree p has retired one more instruction and stands as y (R156, R194): the beads of class 2 count it. -/
def State.retired (s : State) (p : Nat) (y : Pitch) : State :=
  (s.setTree p { s.tree p with pitch := some { y with count := y.count + 1 } }).count 3 2 p

/-- A pitch's register file as R186 gives it: sixteen registers of 18 bits. -/
abbrev Pitch.Formed (x : Pitch) : Prop := x.regs.length = 16 ∧ ∀ v ∈ x.regs, v < 2 ^ 18

/-- What a fault of tree p's program at pc with this code does (R212, R213): the pitch is over, its reason is 2, the code and the pc
stand in GE_TREE_FAULT, and neither its writes nor its keep words are committed. -/
abbrev State.Faulted (s t : State) (p : Port) (code pc : Nat) : Prop :=
  (t.tree p).pitch = none ∧ t.rd F.GE_TREE_STATUS_last_reason p = 2 ∧ t.rd F.GE_TREE_FAULT_code p = code
    ∧ t.rd F.GE_TREE_FAULT_pc p = pc % 2 ^ 14 ∧ t.allocs = s.allocs ∧ t.ctxs = s.ctxs ∧ t.ge = s.ge

/-- The pitch after an instruction that writes v to d with the flags of R190: Z and N follow v, C and V are as given. -/
def Pitch.after (x : Pitch) (d : G4) (v pc : Nat) (c ov : Bool) : Pitch :=
  { x.put d v with z := v % 2 ^ 18 == 0, n := bit v 17, c := c, v := ov, pc := pc }

/-- Signed overflow of an 18-bit operation whose exact result is i (R190). -/
def signedOverflow (i : Int) : Bool := decide (i < -131072) || decide (131072 ≤ i)

/-- The pass x of packet pid stands to retire the legal instruction word w, none of whose registers (uses) awaits a result (R264, R275),
before pass_max (R278). -/
abbrev State.Ready (s : State) (pid w : Nat) (uses : List Nat) (k : Work) (x : Pass) : Prop :=
  s.work pid = some k ∧ k.run = some x ∧ x.pc < (s.parseGen k.pkt.pgen).len ∧ s.coreWord x.core (s.parseGen k.pkt.pgen).bank x.pc = w
    ∧ illegalParse w = false ∧ x.count < s.passMax ∧ (∀ l ∈ x.looks, ∀ n ∈ l.regs, n = 0 ∨ n ∉ uses)

/-- The state in which the pass of packet k has retired one more instruction and stands as y. -/
def State.went (s : State) (k : Work) (y : Pass) : State := s.putWork { k with run := some y }

/-- The pass after an instruction that writes v to d with the flags of R269: Z and N follow v, C and V are as given. -/
def Pass.after (x : Pass) (d : P5) (v : Nat) (c ov : Bool) : Pass :=
  { x.past.putN d.toNat v with z := v % 2 ^ 36 == 0, n := bit v 35, c := c, v := ov }

/-- A pass's register file as R262 gives it: thirty-two registers of 36 bits. -/
abbrev Pass.Formed (x : Pass) : Prop := x.regs.length = 32 ∧ ∀ v ∈ x.regs, v < 2 ^ 36

/-- Signed overflow of a 36-bit operation whose exact result is i (R269). -/
def signedOverflow36 (i : Int) : Bool := decide (i < -(2 ^ 35 : Int)) || decide ((2 ^ 35 : Int) ≤ i)

/-- What a fault of packet pid's program does (R278 to R280): the pass is over, its verdict is exception 0 with the code and the pc,
and PC_FAULT holds both. -/
abbrev State.ParseFaulted (t : State) (pid code pc : Nat) : Prop :=
  (∃ k, t.work pid = some k ∧ k.run = none ∧ k.verdict = some (.exc 0 code (pc % 2 ^ 12)))
    ∧ t.rd F.PC_FAULT_code = code ∧ t.rd F.PC_FAULT_pc = pc % 2 ^ 12

/-- The mailbox has handed Imhus a request of this code, and nothing but the command's own conditions keeps Imhus from it (R413 to R415): the
mode asked for or in force is of the level given, the device is neither in SAFE nor a standby. -/
abbrev State.Asked (s : State) (code level : Nat) : Prop :=
  s.on F.GLB_MBX_STATUS_busy = true ∧ s.imh.cmd = none ∧ s.mbxCode = code ∧ s.imhRuns = true ∧ s.mbxLevel = level
    ∧ s.glb.dev ≠ .safe ∧ s.isStandby = false

end Sys2Proof.Machine
end

