-- ==== Sys2Proof/WellFormed.lean ====
section
/-! DEFINITION. Well-formed commands: what the operands' types leave open and the spec bounds. A command that is not well formed says
something that cannot have happened on the pins or in the device; the machine gives it a meaning all the same. -/

namespace Sys2Proof

/-- A quantum of an upstream frame: below 97,200, the count of the fastest rate (R81). -/
def quantum (q : Nat) : Bool := decide (q < 97200)

/-- Positions in rising order. -/
def rising : List Int → Bool
  | a :: b :: l => decide (a < b) && rising (b :: l)
  | _ => true

/-- The scope that an alarm of each kind has (R419, R420, R422, R423). -/
def alarmScopeOk (k : AlarmKind) (sc : AlarmScope) : Bool :=
  match k, sc with
  | .protection, .device | .time, .device | .overflow, .device => true
  | .transmitPath, .tree _ | .treeDown, .tree _ | .branchCut, .tree _ | .misWiring, .tree _ => true
  | .powerLoss, .term _ | .terminalLost, .term _ | .omci, .term _ | .misWiring, .term _ => true
  | _, _ => false

/-- A command is well formed: positions lie in a frame, codewords correct no more than they hold (R104), PLOAM messages have 48
bytes (R56), maps at most 1,024 structures (R56), keep regions 512 words (R156), ropes at most 8 lanes (R399), the monitors and sensors
are those the device has (R25, R509), codewords have at most 42 symbols (R337). -/
def Instr.wf : Instr → Bool
  | .stateRequestReady _ => true
  | .stateRequestRun _ => true
  | .stateRequestTest _ => true
  | .stateRequestBivouac _ => true
  | .stateRequestSafe _ => true
  | .stateRequestBootOrReserved _ _ => true
  | .downstreamStop => true
  | .fatalFault _ => true
  | .featAcceptWrite _ _ => true
  | .featLockWrite _ _ => true
  | .modeWrite _ _ => true
  | .unmappedAccess _ _ => true
  | .registerWrite _ _ _ => true
  | .lowerSlotRead _ _ => true
  | .paceBelowFloor _ => true
  | .eventCommit _ _ => true
  | .eventsLost _ _ => true
  | .tallySlotEnd => true
  | .tallyCfgWrite _ _ => true
  | .generationRetired _ => true
  | .slowRetire _ => true
  | .pcProgCommit _ _ => true
  | .clRuleCommit _ _ => true
  | .geProgCommit _ _ => true
  | .qsGateCommit _ _ => true
  | .qsShapeCommit _ _ => true
  | .egressPull _ => true
  | .tpCtrlWrite _ _ _ => true
  | .keyQuery _ _ _ _ => true
  | .keyWrite _ _ _ _ _ => true
  | .keyInvalidate _ _ _ _ _ => true
  | .keySwitch _ _ _ _ _ => true
  | .keyGraceExpire _ => true
  | .tpDefectTimer _ _ _ => true
  | .ubTreeCfgWrite _ _ _ => true
  | .ubTreeProfWrite _ _ _ => true
  | .presetQuery _ _ => true
  | .presetDrop _ _ => true
  | .burstArm _ f => quantum f
  | .receiverWake _ => true
  | .fsHeaderReceived _ f _ tries _ _ => quantum f && rising (tries.map (·.pos))
  | .delimiterWindowClose _ f => quantum f
  | .codewordRelease _ f start cw => quantum f && quantum start && decide (cw.corrected + cw.shortened ≤ 17280)
  | .ploamuReceived _ f _ msg => quantum f && msg.length == 48
  | .burstClose _ f _ => quantum f
  | .unexpectedEnergy _ q => quantum q.toNat
  | .reassemblyTimeout _ => true
  | .presetAgeOut _ => true
  | .ubDefectTimer _ _ => true
  | .contextQuery _ => true
  | .contextAllocate _ _ => true
  | .contextFree _ => true
  | .contextBind _ => true
  | .contextDisable _ => true
  | .contextEnable _ => true
  | .activateNow _ => true
  | .leavingComplete _ => true
  | .onuIdHoldExpire _ _ => true
  | .poolTreeWrite _ _ _ => true
  | .serialNumberOnu _ _ a => quantum a
  | .registration _ _ _ => true
  | .foundInfoRead _ _ => true
  | .foundEntryExpire _ _ => true
  | .directedAttempt _ => true
  | .rangingCycleEnd _ => true
  | .discoverySliceDue _ => true
  | .preAssignedDelaySend _ => true
  | .eqdConfirmTimeout _ => true
  | .lostTimeout _ => true
  | .pitchOpen _ => true
  | .pitchDeadline _ => true
  | .mapBuildComplete _ => true
  | .frameInstant => true
  | .bistPassComplete _ _ _ => true
  | .spareRotation => true
  | .takeoverLoadComplete => true
  | .engineQuery _ _ => true
  | .engineRepair _ _ => true
  | .engineRepairDone _ => true
  | .engineRotate _ => true
  | .geProgDataWrite _ _ => true
  | .geTableRead _ _ _ _ => true
  | .geTableWrite _ _ _ _ => true
  | .allocContextAllocate _ _ _ => true
  | .allocContextFree _ _ _ _ => true
  | .allocHoldExpire _ => true
  | .keepClear _ _ => true
  | .grantNop _ => true
  | .grantAdd _ _ _ _ => true
  | .grantSub _ _ _ _ => true
  | .grantAdc _ _ _ _ => true
  | .grantSbc _ _ _ _ => true
  | .grantAnd _ _ _ _ => true
  | .grantOr _ _ _ _ => true
  | .grantXor _ _ _ _ => true
  | .grantShl _ _ _ _ => true
  | .grantShr _ _ _ _ => true
  | .grantSra _ _ _ _ => true
  | .grantMul _ _ _ _ => true
  | .grantMulh _ _ _ _ => true
  | .grantDivu _ _ _ _ => true
  | .grantMinu _ _ _ _ => true
  | .grantMaxu _ _ _ _ => true
  | .grantCmp _ _ _ => true
  | .grantShlq _ _ _ _ => true
  | .grantShrq _ _ _ _ => true
  | .grantSraq _ _ _ _ => true
  | .grantAddq _ _ _ _ => true
  | .grantAddi _ _ _ _ => true
  | .grantAndi _ _ _ _ => true
  | .grantOri _ _ _ _ => true
  | .grantXori _ _ _ _ => true
  | .grantLdi _ _ _ => true
  | .grantCmpi _ _ _ => true
  | .grantQadd _ _ _ _ => true
  | .grantQsub _ _ _ _ => true
  | .grantNsq _ _ _ => true
  | .grantQns _ _ _ => true
  | .grantLd _ _ _ _ mem => mem.all (fun r => r.errs.all (· < 68))
  | .grantSt _ _ _ _ => true
  | .grantLdx _ _ _ _ mem => mem.all (fun r => r.errs.all (· < 68))
  | .grantStx _ _ _ _ => true
  | .grantTrm _ _ _ _ => true
  | .grantAlc _ _ _ _ => true
  | .grantRpt _ _ _ _ => true
  | .grantHst _ _ _ _ => true
  | .grantHsum _ _ _ _ => true
  | .grantHpeak _ _ _ _ => true
  | .grantHrsum _ _ _ _ => true
  | .grantTwt _ _ _ _ => true
  | .grantAwt _ _ _ _ => true
  | .grantSweep _ _ _ _ => true
  | .grantNext _ _ => true
  | .grantOvh _ _ _ _ => true
  | .grantEmit _ _ _ _ => true
  | .grantGate _ _ _ _ => true
  | .grantRecall _ _ _ => true
  | .grantDdesc _ _ _ => true
  | .grantWin _ _ _ => true
  | .grantCal _ _ _ => true
  | .grantSeal _ => true
  | .grantYield _ => true
  | .grantMfs _ _ _ => true
  | .grantBrs _ _ _ => true
  | .grantBr _ _ _ => true
  | .grantCall _ _ => true
  | .grantRet _ => true
  | .grantJr _ _ => true
  | .qsRowRead _ _ _ => true
  | .qsRowWrite _ _ _ => true
  | .qsQueueStatus _ _ _ => true
  | .qsFlush _ _ _ => true
  | .bucketUpdate _ => true
  | .gateListStart _ => true
  | .gateEntryChange _ => true
  | .oldCycleEnd _ => true
  | .packetArrival _ k => !k.bytes.isEmpty
  | .passDispatch _ => true
  | .parseNop _ => true
  | .parseAdd _ _ _ _ => true
  | .parseSub _ _ _ _ => true
  | .parseAnd _ _ _ _ => true
  | .parseOr _ _ _ _ => true
  | .parseXor _ _ _ _ => true
  | .parseShl _ _ _ _ => true
  | .parseShr _ _ _ _ => true
  | .parseSra _ _ _ _ => true
  | .parseCmp _ _ _ => true
  | .parseMin _ _ _ _ => true
  | .parseMax _ _ _ _ => true
  | .parseMul _ _ _ _ => true
  | .parseAddi _ _ _ _ => true
  | .parseAndi _ _ _ _ => true
  | .parseOri _ _ _ _ => true
  | .parseXori _ _ _ _ => true
  | .parseCmpi _ _ _ => true
  | .parseLdi _ _ _ => true
  | .parseLdu _ _ _ => true
  | .parseShli _ _ _ _ => true
  | .parseShri _ _ _ _ => true
  | .parseBfx _ _ _ _ _ => true
  | .parseBfi _ _ _ _ _ => true
  | .parseExt _ _ _ _ _ => true
  | .parseAdv _ _ _ => true
  | .parseMfs _ _ _ => true
  | .parseHsh _ _ _ _ _ => true
  | .parseLkx _ _ _ _ _ => true
  | .parseLkt _ _ _ _ _ => true
  | .parseBr _ _ _ => true
  | .parseCall _ _ => true
  | .parseRet _ => true
  | .parseEnq _ _ _ _ => true
  | .parseDrp _ _ => true
  | .parseRcv _ _ => true
  | .parseExc _ _ => true
  | .lookupReply _ _ r => r.errs.all (· < 68) && r.lines.all (·.all (· < 42))
  | .verdictCommit _ => true
  | .holdMaxTimeout _ => true
  | .pcProgDataHiWrite _ _ => true
  | .coreQuery _ _ => true
  | .coreRepair _ _ => true
  | .coreRepairDone _ => true
  | .clRead _ _ _ => true
  | .clWrite _ _ _ => true
  | .clAdd _ _ _ => true
  | .clDelete _ _ _ => true
  | .clFind _ _ _ => true
  | .spreadBucketsMoved _ _ => true
  | .spreadBucketsRestored _ _ => true
  | .fetchIssue _ => true
  | .fetchComplete _ errs => errs.all (·.all (· < 42))
  | .spillWriteComplete => true
  | .cellLastByteRead _ => true
  | .scrubRead (.line _ _) errs => errs.all (· < 42)
  | .scrubRead _ errs => errs.all (· < 68)
  | .scrubSweepLate _ => true
  | .rowRepairComplete _ _ _ => true
  | .relocationComplete _ => true
  | .memoryTestQuery _ => true
  | .packetBufferTest _ => true
  | .deepMemoryTest _ => true
  | .memoryTestDone _ => true
  | .bmSpillWrite _ _ => true
  | .timeBaseWrap => true
  | .tsIncrWrite _ _ => true
  | .tsAdjWrite _ _ => true
  | .stepApply => true
  | .alignGo _ _ => true
  | .frameAligned => true
  | .ppsEdge => true
  | .ppsLost => true
  | .todQuery _ _ => true
  | .todCompute _ _ => true
  | .todCancel _ _ => true
  | .termDelayCompute _ _ => true
  | .belaySeenEdge => true
  | .belaySeenTimeout => true
  | .laserSettle => true
  | .heartbeatTimeout => true
  | .hello _ _ => true
  | .healthRecord _ => true
  | .timeMessage _ _ _ _ => true
  | .portLatencies l => (l.map (·.1)).eraseDups.length == l.length
  | .mapCairn _ _ _ _ m => decide (m.structs.length + m.wins.length ≤ 1024)
  | .ploamCairn _ _ _ _ _ ms => decide (ms.length ≤ 4)
  | .stateCairn _ _ _ => true
  | .commandCairn _ _ _ => true
  | .keepCairn _ _ _ ws => ws.length == 512
  | .snapshotRecord _ _ => true
  | .snapshotEnd _ => true
  | .replayRequest _ _ => true
  | .cascadeMessage _ _ => true
  | .cairnLate _ => true
  | .healthRecordSend => true
  | .helloSend _ => true
  | .timeMessageSend _ => true
  | .healthTimeout => true
  | .pairQuery _ => true
  | .pairYield _ => true
  | .pairTake _ => true
  | .pairResync _ => true
  | .yieldInstant => true
  | .revertHoldExpire => true
  | .ropeFrame _ ls => !ls.isEmpty && decide (ls.length ≤ 8) && ls.all (fun l => l.length == 256)
  | .restripeComplete _ => true
  | .ropePartnerAbsent _ => true
  | .holdoverEnter => true
  | .laneEnable _ _ _ => true
  | .laneDisable _ _ _ => true
  | .errorInject _ _ _ => true
  | .laneUp _ => true
  | .laneBringupTimeout _ => true
  | .laneLoss _ _ => true
  | .laneRetrain _ => true
  | .laneQuery _ _ => true
  | .laneRecalibrate _ _ => true
  | .retrainNow _ _ => true
  | .calibrationStart _ => true
  | .calibrationStep _ x => quantum x.q
  | .ringEnable _ _ _ => true
  | .ringDisable _ _ _ => true
  | .ringTailWrite _ _ _ => true
  | .ringHeadWrite _ _ _ => true
  | .channelPause _ _ _ => true
  | .channelResume _ _ _ => true
  | .channelDisable _ _ _ => true
  | .channelQuery _ _ => true
  | .channelRepair _ _ => true
  | .channelStop _ _ => true
  | .beatMove _ => true
  | .readCompletion _ _ _ => true
  | .descriptorWriteback _ => true
  | .ringIrqTimer _ => true
  | .lossRecord _ => true
  | .vfFlr _ => true
  | .pfFlr => true
  | .pcieLinkDown => true
  | .vfCfgWrite _ _ _ => true
  | .vecMapWrite _ _ _ => true
  | .vfUnmappedAccess _ _ _ => true
  | .doorbell _ _ => true
  | .guideCoreEntry _ => true
  | .claimRead _ _ => true
  | .completeWrite _ _ _ => true
  | .msixAutoComplete _ => true
  | .srcCfgWrite _ _ _ => true
  | .threshWrite _ _ _ => true
  | .watchWrite _ _ _ => true
  | .watchWake _ => true
  | .windowClose => true
  | .beadCfgWrite _ _ _ _ => true
  | .domainQuery _ _ => true
  | .domainDownRequest _ _ => true
  | .domainQuiescent => true
  | .domainTimeout => true
  | .domainUpRequest _ _ => true
  | .domainUpComplete => true
  | .avsPeriod ms _ => ms.length == 48
  | .avsBusFault => true
  | .thermalSample ts => ts.length == 8
  | .powerOnReset _ _ => true
  | .pinReset _ => true
  | .deviceReset _ _ _ => true
  | .blockReset _ _ _ => true
  | .supplyFail => true
  | .bootDataWrite _ _ => true
  | .bootGo _ _ => true
  | .bootLoadComplete _ => true
  | .bootSelfTestComplete _ _ _ => true
  | .managementRead _ => true
  | .version => true
  | .status => true
  | .digest => true
  | .templatePut => true
  | .templateDel => true
  | .bind => true
  | .unbind => true
  | .apply => true
  | .termQuery => true
  | .alarmList => true
  | .alarmCfg => true
  | .pairOp => true
  | .pairPolicy => true
  | .timeSteer => true
  | .ptpCfg => true
  | .onuImage => true
  | .mailboxReply => true
  | .mailboxFinalResult _ _ => true
  | .guideCoreHalt _ => true
  | .keyRotationDue _ _ => true
  | .omciRetry _ => true
  | .alarmRaiseSoak k sc => alarmScopeOk k sc
  | .alarmClearSoak k sc => alarmScopeOk k sc
  | .grantIllegalInstruction _ => true
  | .parseIllegalInstruction _ => true
  | .memoryTrainingComplete _ _ => true
  | .blockResetComplete => true
  | .pcieLinkUp _ _ => true
  | .groupLock x => !x.groups.isEmpty
  | .checkerLock _ => true
  | .checkerLockLoss _ => true
  | .parseSelfTestPass _ _ => true
  | .commitWaitTimeout => true
  | .cairnRequestTimeout => true
  | .takeUnsynced => true
  | .timeOkYield => true
  | .targetWake _ => true
  | .belowFloorHeld => true

end Sys2Proof
end

