-- ==== Sys2Proof/Certificates/Slice0/Obligations.lean ====
section
/-! DEFINITION. The statements for the provers. -/

open Sys2Proof Sys2Proof.Machine

/-! ### The queue, the step, whole-machine rules -/

/-- A step runs the command at the front of the queue on the state with the queue's rest; on an empty queue one reference cycle
passes (the model's choice: log entry 3). -/
def Obligations.StepRunsFrontCommand : Prop :=
  ∀ (s : State) (c : Instr) (rest : List Instr),
    (s.pending = c :: rest → Sys2Proof.Machine.step s = exec c { s with pending := rest }) ∧
    (s.pending = [] → Sys2Proof.Machine.step s = .next s.idle)

/-- No command stops the block: from every state every command answers a next state, and leaves the waiting commands alone. -/
def Obligations.EveryCommandAnswersAndLeavesTheQueue : Prop :=
  ∀ (c : Instr) (s : State), ∃ t, exec c s = .next t ∧ t.pending = s.pending

/-- From R373: LASER_EN is high only while the device claims and BELAY_SEEN reads released; no step gets past the gate. -/
def Obligations.LaserGateIsKeptByEveryStep : Prop :=
  ∀ s t : State, s.LaserSafe → Sys2Proof.Machine.step s = .next t → t.LaserSafe

/-- At reset LASER_EN is low, so the invariant of the gate holds there. -/
def Obligations.LaserGateHoldsAtReset : Prop :=
  State.reset.LaserSafe ∧ State.reset.belay.laser = false

/-- From R526: failed supplies hold the device in reset, the lasers off and the claim released at once, nothing else changed; a device held so
does nothing, but for SUPPLY_FAIL and POWER_ON_RESET, and a step on an empty queue leaves it as it is.
Where a clause meets a point that the spec leaves to inference it states the model's choice: log entry 6. -/
def Obligations.SupplyFailureHoldsTheDevice : Prop :=
  (∀ s : State, ∃ t, exec .supplyFail s = .next t ∧ t.pw.held = true ∧ t.belay.laser = false ∧ t.belay.claim = false
    ∧ t.belay.seen = s.belay.seen ∧ t.rf = s.rf ∧ t.glb = s.glb ∧ t.pending = s.pending) ∧
  ∀ (c : Instr) (s : State), s.pw.held = true → c ≠ .supplyFail → (∀ st a, c ≠ .powerOnReset st a) →
    exec c s = .next s ∧ s.idle = s

/-! ### Identity, modes, features, events -/

/-- From R13: the moves that a request for a state makes, from a device that nothing holds up. -/
def Obligations.RequestsMoveTheDevice : Prop :=
  ∀ (s : State) (r : Requester), s.Powered → IsHost r → s.MoveFree →
    (s.glb.dev = .ready → ∃ t, exec (.stateRequestTest r) s = .next t ∧ t.glb = { s.glb with dev := .test }
      ∧ t.rd F.GLB_STATE_last_status 0 = 0 ∧ t.belay.claim = !s.belay.seen) ∧
    (s.glb.dev = .test → ∃ t, exec (.stateRequestReady r) s = .next t ∧ t.glb = { s.glb with dev := .ready }
      ∧ t.rd F.GLB_STATE_last_status 0 = 0 ∧ t.belay.claim = false ∧ t.belay.laser = false) ∧
    (s.glb.dev = .run ∨ s.glb.dev = .bivouac → exec (.stateRequestReady r) s
      = .next { s with glb := { s.glb with move := some .ready } }) ∧
    (s.glb.dev = .run → s.glb.role = .solo → s.on F.PR_CASC_CFG_casc_en 0 = false → s.on F.PW_DOM_CFG_biv_half_b 0 = false →
      ∃ t, exec (.stateRequestBivouac r) s = .next t ∧ t.glb.dev = .bivouac ∧ t.glb.level = s.glb.level
        ∧ t.rd F.GLB_STATE_last_status 0 = 0) ∧
    (s.glb.dev ≠ .safe → ∃ t, exec (.stateRequestSafe r) s = .next t ∧ t.glb.dev = .safe ∧ t.glb.modeIn = false
      ∧ t.belay.claim = false ∧ t.belay.laser = false ∧ t.rd F.GLB_STATE_last_status 0 = 0
      ∧ t.rd F.PW_RESET_CAUSE_safe_cause 0 = 4)

/-- READY to RUN with lock = 1 and a legal MODE (R11, R13): the mode comes into force; an active whose partner claims enters as standby
(R395). DOWNSTREAM_STOP completes an accepted move back to READY (R13): no mode in force, the claim released, no port framing.
Where a clause meets a point that the spec leaves to inference it states the model's choice: log entry 83. -/
def Obligations.ModesComeIntoForceAndEnd : Prop :=
  (∀ (s : State) (r : Requester), s.Powered → IsHost r → s.MoveFree → s.glb.dev = .ready →
    s.on F.GLB_FEAT_LOCK_lock 0 = true → s.modeLegal (s.rd F.GLB_MODE_mode 0) = true → s.rd F.GLB_MODE_mode 0 < 4 →
    ∃ t, exec (.stateRequestRun r) s = .next t ∧ t.glb.dev = .run ∧ t.glb.modeIn = true ∧ t.glb.level = 0
      ∧ t.glb.role = (if s.rd F.GLB_MODE_mode 0 = 1 ∧ s.belay.seen = true then .standby else roleOf (s.rd F.GLB_MODE_mode 0))
      ∧ t.rd F.GLB_STATE_last_status 0 = 0) ∧
  (∀ s : State, s.Powered → (s.glb.dev = .run ∨ s.glb.dev = .bivouac) → s.glb.move = some .ready →
    ∃ t, exec .downstreamStop s = .next t ∧ t.glb.dev = .ready ∧ t.glb.move = none ∧ t.glb.modeIn = false
      ∧ t.belay.claim = false ∧ t.belay.laser = false ∧ (∀ p, (t.port p).framing = false)
      ∧ t.rd F.GLB_STATE_last_status 0 = 0)

/-- From R13 and R15: a refused request changes last_status and raises the refusal, nothing else. -/
def Obligations.RefusedRequestsReportTheFirstCause : Prop :=
  ∀ (s : State) (r : Requester), s.Powered → IsHost r →
    (s.glb.move ≠ none ∨ s.pw.dom ≠ none → exec (.stateRequestTest r) s
        = .next ((s.wr F.GLB_STATE_last_status 1).raise 0 0 0x0002 (4 + 1 * 2 ^ 16))
      ∧ exec (.stateRequestBootOrReserved r .reserved6) s
        = .next ((s.wr F.GLB_STATE_last_status 1).raise 0 0 0x0002 (6 + 1 * 2 ^ 16))) ∧
    (s.MoveFree → exec (.stateRequestBootOrReserved r .boot) s
        = .next ((s.wr F.GLB_STATE_last_status 6).raise 0 0 0x0002 (0 + 6 * 2 ^ 16))) ∧
    (s.MoveFree → s.glb.dev = .ready → exec (.stateRequestReady r) s
        = .next ((s.wr F.GLB_STATE_last_status 2).raise 0 0 0x0002 (1 + 2 * 2 ^ 16))) ∧
    (s.MoveFree → s.glb.dev = .ready → s.on F.GLB_FEAT_LOCK_lock 0 = false → exec (.stateRequestRun r) s
        = .next ((s.wr F.GLB_STATE_last_status 3).raise 0 0 0x0002 (2 + 3 * 2 ^ 16))) ∧
    (s.MoveFree → s.glb.dev = .ready → s.on F.GLB_FEAT_LOCK_lock 0 = true →
        s.modeLegal (s.rd F.GLB_MODE_mode 0) = false → exec (.stateRequestRun r) s
        = .next ((s.wr F.GLB_STATE_last_status 4).raise 0 0 0x0002 (2 + 4 * 2 ^ 16))) ∧
    (s.MoveFree → s.glb.dev = .run → s.glb.role ≠ .solo → exec (.stateRequestBivouac r) s
        = .next ((s.wr F.GLB_STATE_last_status 5).raise 0 0 0x0002 (3 + 5 * 2 ^ 16)))

/-- From R16: a fatal fault takes any device but one in SAFE there, lasers off and the claim released; last_status becomes 7 where a move is
abandoned and stays otherwise. A missing heartbeat is one (R376). -/
def Obligations.FatalFaultsMoveToSafe : Prop :=
  ∀ (s : State), s.Powered → s.glb.dev ≠ .safe →
    (∀ c, ∃ t, exec (.fatalFault c) s = .next t ∧ t.glb.dev = .safe ∧ t.glb.move = none ∧ t.glb.modeIn = false
      ∧ t.belay.claim = false ∧ t.belay.laser = false ∧ t.rd F.PW_RESET_CAUSE_safe_cause 0 = safeCode c
      ∧ t.rd F.GLB_STATE_last_status 0 = (if s.glb.move.isSome then 7 else s.rd F.GLB_STATE_last_status 0)) ∧
    (∃ t, exec .heartbeatTimeout s = .next t ∧ t.glb.dev = .safe ∧ t.belay.claim = false ∧ t.belay.laser = false
      ∧ t.rd F.PW_RESET_CAUSE_safe_cause 0 = 1)

/-- R18, whole: GLB_FEAT_ACCEPT takes a write only in READY while lock is 0, an accept bit that is not offered is stored as 0, a read answers
what is stored, and no feature is accepted before lock. Beside it the writes of GLB_FEAT_LOCK and GLB_MODE in READY.
Where a clause meets a point that the spec leaves to inference it states the model's choice: log entry 89. -/
def Obligations.FeatureAndModeRegistersInReady : Prop :=
  (∀ (s : State) (r : Requester) (v : Word), s.Powered → IsHost r →
    (s.glb.dev ≠ .ready ∨ s.on F.GLB_FEAT_LOCK_lock 0 = true → exec (.featAcceptWrite r v) s = .next s) ∧
    (s.glb.dev = .ready → s.on F.GLB_FEAT_LOCK_lock 0 = false → ∃ t, exec (.featAcceptWrite r v) s = .next t ∧ t = { s with rf := t.rf }
      ∧ ∀ n < 14, bit (t.rd F.GLB_FEAT_ACCEPT_accept) n = (bit v.toNat n && bit (s.rd F.GLB_FEAT_OFFER_offer) n)) ∧
    (s.pcieBoot = false → s.blkDown 0 = false → ∃ t, exec (.lowerSlotRead r (BitVec.ofNat 22 (F.GLB_FEAT_ACCEPT_accept.off / 4))) s = .next t
      ∧ t.rdata = s.rd F.GLB_FEAT_ACCEPT_accept % 2 ^ 14) ∧
    (s.on F.GLB_FEAT_LOCK_lock 0 = false → ∀ n, s.feat n = false)) ∧
  ∀ (s : State) (r : Requester) (v : Word), s.Powered → IsHost r → s.glb.dev = .ready →
    (s.on F.GLB_FEAT_LOCK_lock 0 = true → exec (.featLockWrite r v) s = .next s) ∧
    (v.toNat % 2 = 0 → exec (.featLockWrite r v) s = .next s) ∧
    (s.on F.GLB_FEAT_LOCK_lock 0 = false → v.toNat % 2 = 1 → bit (s.rd F.GLB_FEAT_ACCEPT_accept 0) 9 = true →
      bit (s.rd F.GLB_FEAT_ACCEPT_accept 0) 8 = false → exec (.featLockWrite r v) s
      = .next ((s.wr F.GLB_FEAT_LOCK_lock_status 1).wr F.GLB_FEAT_LOCK_failing_bit 9)) ∧
    (s.on F.GLB_FEAT_LOCK_lock 0 = false → v.toNat % 2 = 1 → featPrereq.all (fun e =>
        !bit (s.rd F.GLB_FEAT_ACCEPT_accept 0) e.1 || bit (s.rd F.GLB_FEAT_ACCEPT_accept 0) e.2) = true →
      ∃ t, exec (.featLockWrite r v) s = .next t ∧ t.rd F.GLB_FEAT_LOCK_lock 0 = 1
        ∧ t.rd F.GLB_FEAT_LOCK_lock_status 0 = 0 ∧ t.rd F.GLB_FEAT_ACCEPT_accept 0 = s.rd F.GLB_FEAT_ACCEPT_accept 0) ∧
    exec (.modeWrite r v) s = .next (s.wr F.GLB_MODE_mode (v.toNat % 16)) ∧
    (∀ i, exec (.modeWrite (.vf i) v) s = .next s ∧ exec (.featLockWrite (.vf i) v) s = .next s)

/-- R19, whole: the host's write of GLB_FEAT_LOCK with lock = 1 where a prerequisite is missing, outside READY, with lock already 1, and with
lock = 0. -/
def Obligations.RefusedLocksLeaveTheirReason : Prop :=
  ∀ (s : State) (r : Requester) (v : Word), s.Powered → IsHost r →
    (s.on F.GLB_FEAT_LOCK_lock 0 = true ∨ v.toNat % 2 = 0 → exec (.featLockWrite r v) s = .next s) ∧
    (s.on F.GLB_FEAT_LOCK_lock 0 = false → v.toNat % 2 = 1 → s.glb.dev ≠ .ready →
      exec (.featLockWrite r v) s = .next (s.wr F.GLB_FEAT_LOCK_lock_status 2)) ∧
    (s.on F.GLB_FEAT_LOCK_lock 0 = false → v.toNat % 2 = 1 → s.glb.dev = .ready → ∀ b q : Nat, (b, q) ∈ featPrereq →
      bit (s.rd F.GLB_FEAT_ACCEPT_accept 0) b = true → bit (s.rd F.GLB_FEAT_ACCEPT_accept 0) q = false →
      (∀ b' q', (b', q') ∈ featPrereq → bit (s.rd F.GLB_FEAT_ACCEPT_accept 0) b' = true →
        bit (s.rd F.GLB_FEAT_ACCEPT_accept 0) q' = false → b ≤ b') →
      ∃ t, exec (.featLockWrite r v) s = .next t ∧ t.rd F.GLB_FEAT_LOCK_lock 0 = 0 ∧ t.rd F.GLB_FEAT_LOCK_lock_status 0 = 1
        ∧ t.rd F.GLB_FEAT_LOCK_failing_bit 0 = b ∧ t.rd F.GLB_FEAT_ACCEPT_accept 0 = s.rd F.GLB_FEAT_ACCEPT_accept 0
        ∧ t = { s with rf := t.rf })

/-- From R26, R44, R48 and R51: unmapped accesses; a slot ends once its length has passed and not before, and the next begins without a gap; a
change of window_ms ends the current slot, and the next has the new length; a monitor below the floor has the margin 0.
Where a clause meets a point that the spec leaves to inference it states the model's choice: log entry 10. -/
def Obligations.GlbEventsTalliesAndPace : Prop :=
  ∀ (s : State), s.Powered →
    (∀ off, exec (.unmappedAccess false off) s = .next ({ s with rdata := 0 }.raise 0 0 0x0004 off.toNat)
      ∧ exec (.unmappedAccess true off) s = .next (s.raise 0 0 0x0004 off.toNat)) ∧
    (s.slots.start + s.slots.length ≤ s.ts.run → exec .tallySlotEnd s = .next { s with
      tal := s.tal.mapAll {} (fun _ t => { t with slots := 0 :: t.slots.take 7 })
      slots := ⟨s.slots.start + s.slots.length, max 1 (s.rd F.GLB_TALLY_CFG_window_ms) * 125000 * 2 ^ 40⟩ }) ∧
    (s.ts.run < s.slots.start + s.slots.length → exec .tallySlotEnd s = .next s) ∧
    (∀ v, s.reach .pf 0 = true → v.toNat / 2 ^ 16 = s.rd F.GLB_TALLY_CFG_window_ms 0 → exec (.tallyCfgWrite .pf v) s
      = .next ((s.wr F.GLB_TALLY_CFG_window_ms (v.toNat / 2 ^ 16)).wr F.GLB_TALLY_CFG_threshold (v.toNat % 256))) ∧
    (∀ v, s.reach .pf 0 = true → v.toNat / 2 ^ 16 ≠ s.rd F.GLB_TALLY_CFG_window_ms 0 → ∃ t, exec (.tallyCfgWrite .pf v) s = .next t
      ∧ t.rd F.GLB_TALLY_CFG_window_ms = v.toNat / 2 ^ 16 ∧ t.slots = ⟨s.ts.run, max 1 (v.toNat / 2 ^ 16) * 125000 * 2 ^ 40⟩
      ∧ t.tal = s.tal.mapAll {} (fun _ t => { t with slots := 0 :: t.slots.take 7 })) ∧
    (∀ m : Fin 48, s.monOut m.val = false → ∃ t, exec (.paceBelowFloor m) s = .next t
      ∧ (s.glb.dev ≠ .bivouac → t.rd F.GLB_PACE_below_floor 0 = 1 ∧ t.rd F.PW_MON_margin m = 0 ∧ t.glb = s.glb))

/-- R38, whole: each event that the merge unit commits takes the next EVSEQ, which rises by exactly 1 modulo 2^32, and leaves with it. -/
def Obligations.EvseqRisesByOneForEachCommittedEvent : Prop :=
  ∀ (s : State) (b : Fin 15) (i : BitVec 11) (e : EvRec), s.Powered → s.nextEvent b i.toNat = some e →
    s.mayCommit e = true →
    ∃ t, exec (.eventCommit b i) s = .next t ∧ t.evu.seq = (s.evu.seq + 1) % 2 ^ 32
      ∧ Out.event ((s.evu.seq + 1) % 2 ^ 32) e.block e.inst e.code e.arg e.stamp ∈ t.out

/-- From R39 and R42: nothing commits before its cause, and the lost events of a source are offered as one event with their count once there is
room.
Where a clause meets a point that the spec leaves to inference it states the model's choice: log entries 15 and 16. -/
def Obligations.CausesCommitFirstAndLossesAreCounted : Prop :=
  ∀ (s : State) (b : Fin 15) (i : BitVec 11), s.Powered →
    (∀ e w, s.nextEvent b i.toNat = some e → w ∈ s.evu.wait → e.cause = some w.ord → exec (.eventCommit b i) s = .next s) ∧
    (s.evu.lost.get 0 (b.val * 2048 + i.toNat) ≠ 0 → s.waiting b.val i.toNat < 16 →
      exec (.eventsLost b i) s = .next ({ s with evu := { s.evu with lost := s.evu.lost.set 0 (b.val * 2048 + i.toNat) 0 } }.raise
        b.val i.toNat 0xFF10 (sat (2 ^ 32 - 1) (s.evu.lost.get 0 (b.val * 2048 + i.toNat))))) ∧
    (∀ c a, 16 ≤ s.waiting b.val i.toNat → (s.raise b.val i.toNat c a).evu.wait = s.evu.wait
      ∧ (s.raise b.val i.toNat c a).evu.lost.get 0 (b.val * 2048 + i.toNat)
        = s.evu.lost.get 0 (b.val * 2048 + i.toNat) + 1)

/-! ### Registers and generations -/

/-- From R6: a read of the lower slot of a 64-bit register answers its lower half and captures the upper half for the requester; the read of the
upper slot that follows answers what was captured. (IC_TGT_CLAIM and GE_FOUND_INFO, which reading changes, are 32 bits wide.) R51: a slot
that no register has reads 0, takes no write, and either access raises 0x0004 with the byte offset. R534: the management port reads
without side effect, and 0 at every offset it does not serve.
Where a clause meets a point that the spec leaves to inference it states the model's choice: log entries 9 and 73. -/
def Obligations.RegisterReadsCaptureAndUnmappedSlotsAnswerZero : Prop :=
  (∀ (s : State) (r : Requester) (slot : BitVec 22) (b : Nat) (d : RegD) (i : Nat), s.Powered → IsHost r →
    blockAt (slot.toNat * 4) = some b →
    (regAt (slot.toNat * 4) = some (d, i, false) → d.is64 = true →
      ∃ t, exec (.lowerSlotRead r slot) s = .next t ∧ t.rdata = s.regShown b d i % 2 ^ 32
        ∧ t.caps.find? (fun c => c.1 == r && c.2.1 == slot.toNat * 4 + 4)
          = some (r, slot.toNat * 4 + 4, s.regShown b d i / 2 ^ 32)) ∧
    (∀ v, regAt (slot.toNat * 4) = some (d, i, true) →
      s.caps.find? (fun c => c.1 == r && c.2.1 == slot.toNat * 4) = some (r, slot.toNat * 4, v) →
      ∃ t, exec (.lowerSlotRead r slot) s = .next t ∧ t.rdata = v ∧ t.rf = s.rf)) ∧
  (∀ (s : State) (r : Requester) (slot : BitVec 22) (v : Word), s.Powered → IsHost r → regAt (slot.toNat * 4) = none →
    exec (.lowerSlotRead r slot) s = .next ({ s with rdata := 0 }.raise 0 0 0x0004 (slot.toNat * 4)) ∧
    exec (.registerWrite r slot v) s = .next (s.raise 0 0 0x0004 (slot.toNat * 4))) ∧
  ∀ (s : State) (off : BitVec 24), s.Powered → ∃ t, exec (.managementRead off) s = .next t ∧ t = { s with rdata := t.rdata }
    ∧ (managed.contains off.toNat = false → t.rdata = 0)

/-- A write of the slot of a register that gives a command is that command: GLB_MODE, GLB_FEAT_ACCEPT and GLB_FEAT_LOCK of a device
whose BAR0 decodes, with its effect in READY. From R7: a write of a slot of the PM block that gives no command puts the word into each
field by its access code. -/
def Obligations.RegisterWritesGiveTheirCommands : Prop :=
  ∀ (s : State) (r : Requester) (v : Word), s.Powered → IsHost r → s.pcieBoot = false → s.pw.blk = [] →
    exec (.registerWrite r (BitVec.ofNat 22 (F.GLB_MODE_mode.off / 4)) v) s = exec (.modeWrite r v) s ∧
    exec (.registerWrite r (BitVec.ofNat 22 (F.GLB_FEAT_ACCEPT_accept.off / 4)) v) s = exec (.featAcceptWrite r v) s ∧
    exec (.registerWrite r (BitVec.ofNat 22 (F.GLB_FEAT_LOCK_lock.off / 4)) v) s = exec (.featLockWrite r v) s ∧
    (s.glb.dev = .ready →
      exec (.registerWrite r (BitVec.ofNat 22 (F.GLB_MODE_mode.off / 4)) v) s = .next (s.wr F.GLB_MODE_mode (v.toNat % 16)) ∧
      (s.on F.GLB_FEAT_LOCK_lock 0 = false → ∃ t, exec (.registerWrite r (BitVec.ofNat 22 (F.GLB_FEAT_ACCEPT_accept.off / 4)) v) s = .next t
        ∧ t = { s with rf := t.rf }
        ∧ ∀ n < 14, bit (t.rd F.GLB_FEAT_ACCEPT_accept) n = (bit v.toNat n && bit (s.rd F.GLB_FEAT_OFFER_offer) n))) ∧
    (∀ (slot : BitVec 22) (d : RegD) (i : Nat) (hi : Bool), s.owns r = true → blockAt (slot.toNat * 4) = some 13 →
      regAt (slot.toNat * 4) = some (d, i, hi) → d.off ≠ F.PM_BEAD_CFG_event.off → s.regAbsent (d.off + i * d.stride) = false →
      exec (.registerWrite r slot v) s = .next (s.regPut d i hi v.toNat)) ∧
    (∀ (d : RegD) (f : Fld) (i : Nat) (hi : Bool) (w : Nat),
      (f.acc = .ro → s.fieldPut d i hi w f = s) ∧
      (f.acc = .rw → hi = false → f.lo + f.w ≤ 32 → (s.fieldPut d i hi w f).rd f i = w / 2 ^ f.lo % 2 ^ f.w) ∧
      (f.acc = .w1c → (s.fieldPut d i hi w f).rd f i
        = (s.rd f i - (s.rd f i &&& (putHalf hi 0 w / 2 ^ f.lo % 2 ^ f.w))) % 2 ^ f.w))

/-- From R30, R34: the commit of each staged object makes the next generation modulo 16 and lets the old one retire, or is refused with
status 1 while one retires and 2 with nothing staged. R29, R33: a generation retires when nothing carries it any more, with its event, and
never before; one that is still carried after 10 ms is reported and goes on retiring.
Where a clause meets a point that the spec leaves to inference it states the model's choice: log entries 10, 30, 74 and 134. -/
def Obligations.GenerationsAreCommittedAndRetire : Prop :=
  (∀ (s : State) (r : Requester) (v : Word), s.Powered → s.Owner r → s.AllUp → v.toNat % 2 = 1 → s.feat 12 = false →
    (∃ t, exec (.pcProgCommit r v) s = .next t ∧ Committed s.ts.run (s.gen .parse) (t.gen .parse)) ∧
    (∃ t, exec (.clRuleCommit r v) s = .next t ∧ Committed s.ts.run (s.gen .rules) (t.gen .rules)) ∧
    (∃ t, exec (.geProgCommit r v) s = .next t ∧ Committed s.ts.run (s.gen .grant) (t.gen .grant)) ∧
    (∃ t, exec (.qsGateCommit r v) s = .next t ∧ Committed s.ts.run (s.gen .gates) (t.gen .gates)) ∧
    (∃ t, exec (.qsShapeCommit r v) s = .next t ∧ Committed s.ts.run (s.gen .shapers) (t.gen .shapers))) ∧
  ∀ (s : State) (o : GenObj) (g : Nat), s.Powered → s.isStandby = false → (s.gen o).ret = some g →
    (s.carried o g = true → exec (.generationRetired o) s = .next s) ∧
    (s.carried o g = false → ∃ t, exec (.generationRetired o) s = .next t ∧ t.gen o = { s.gen o with ret := none }
      ∧ (s.Room (genEvents o).1 0 → t.Raised (genEvents o).1 0 (genEvents o).2.1 g)) ∧
    (s.ts.run < (s.gen o).at_ + 10000000 * 2 ^ 40 ∨ (s.gen o).slow = true → exec (.slowRetire o) s = .next s) ∧
    ((s.gen o).at_ + 10000000 * 2 ^ 40 ≤ s.ts.run → (s.gen o).slow = false → ∃ t, exec (.slowRetire o) s = .next t
      ∧ t.gen o = { s.gen o with slow := true }
      ∧ (s.Room (genEvents o).1 0 → t.Raised (genEvents o).1 0 (genEvents o).2.2 (s.oldestItem o g)))

/-! ### Downstream ports -/

/-- From R65, R64, R69, R377: the owner's key commands on a context of the port's tree. A slot that is live keeps its key (result 3); the key
data registers clear once captured; the other slot, every other context and all that is no key or reply register stays. A requester that
does not own key management changes no key and gets result 6; a virtual function changes nothing at all.
Where a clause meets a point that the spec leaves to inference it states the model's choice: log entry 37. -/
def Obligations.KeySlotsChangeUnlessLive : Prop :=
  (∀ (s : State) (r : Requester) (p : Port) (u : Term) (slot : Bool), s.Powered → s.Owner r → s.portDown 1 p = false →
    s.on F.TP_KEY_STATUS_busy p = false → s.onTree u p = true →
    (s.keyLive u slot = false →
      (∃ t, exec (.keyWrite r p false slot u) s = .next t ∧ (t.keyCtx u).slot slot = ⟨true, s.keyData p⟩
        ∧ (t.keyCtx u).slot (!slot) = (s.keyCtx u).slot (!slot) ∧ t.rd F.TP_KEY_STATUS_result p = 0
        ∧ t.rd F.TP_KEY_DATA0_key p = 0 ∧ (∀ w, w ≠ u.val → t.keyCtx w = s.keyCtx w)
        ∧ t = { s with keys := t.keys, rf := t.rf, out := t.out, pr := t.pr, pm := t.pm }) ∧
      (∃ t, exec (.keyInvalidate r p false slot u) s = .next t ∧ (t.keyCtx u).slot slot = ⟨false, 0⟩
        ∧ (t.keyCtx u).slot (!slot) = (s.keyCtx u).slot (!slot) ∧ t.rd F.TP_KEY_STATUS_result p = 0
        ∧ t = { s with keys := t.keys, rf := t.rf, out := t.out, pr := t.pr, pm := t.pm })) ∧
    (s.keyLive u slot = true →
      (∃ t, exec (.keyWrite r p false slot u) s = .next t ∧ t.keys = s.keys ∧ t.rd F.TP_KEY_STATUS_result p = 3) ∧
      (∃ t, exec (.keyInvalidate r p false slot u) s = .next t ∧ t.keys = s.keys ∧ t.rd F.TP_KEY_STATUS_result p = 3)) ∧
    (∃ t, exec (.keyWrite r p true slot u) s = .next t ∧ t.keys = s.keys ∧ t.rd F.TP_KEY_STATUS_result p = 0
      ∧ (if slot then (t.port p).group1 else (t.port p).group0) = ⟨true, s.keyData p⟩)) ∧
  ∀ (s : State) (p : Port) (u : Term) (g slot : Bool), s.Powered → s.portDown 1 p = false → s.pcieBoot = false →
    (∀ r, IsHost r → s.may r 1 = false →
      exec (.keyWrite r p g slot u) s = .next (s.wr F.TP_KEY_STATUS_result 6 p) ∧
      exec (.keyInvalidate r p g slot u) s = .next (s.wr F.TP_KEY_STATUS_result 6 p) ∧
      exec (.keySwitch r p g slot u) s = .next (s.wr F.TP_KEY_STATUS_result 6 p)) ∧
    (∀ i, exec (.keyWrite (.vf i) p g slot u) s = .next s ∧ exec (.keySwitch (.vf i) p g slot u) s = .next s)

/-- From R65 to R67: a switch is refused with 4, 5 or 7, or stands for the frame named, never before the second after the command; the port's
group slots take no switch; a query of a context or of the group slots changes nothing but its reply; the superseded slot is free once
key_grace, in units of 10 ms, 0 acting as 1, has gone by since the frame of the switch, and not before. -/
def Obligations.KeySwitchesStandForTheirFrame : Prop :=
  ∀ (s : State) (r : Requester) (p : Port) (u : Term) (slot : Bool), s.Powered → s.Owner r → s.portDown 1 p = false →
    s.on F.TP_KEY_STATUS_busy p = false → s.onTree u p = true →
    (((s.keyCtx u).slot slot).valid = true → (s.keyCtx u).pend = none → (s.keyCtx u).active = !slot →
      ∃ t, exec (.keySwitch r p false slot u) s = .next t ∧ t.rd F.TP_KEY_STATUS_result p = 0
        ∧ (t.keyCtx u).pend = some ((s.ctx u).port, slot, s.switchAt (s.ctx u).port (s.rd F.TP_KEY_SFC_switch_sfc p))
        ∧ (t.keyCtx u).active = !slot ∧ t.rd F.TP_KEY_ACTUAL_actual_sfc p
          = s.switchAt (s.ctx u).port (s.rd F.TP_KEY_SFC_switch_sfc p) % 2 ^ 32) ∧
    (((s.keyCtx u).slot slot).valid = false →
      ∃ t, exec (.keySwitch r p false slot u) s = .next t ∧ t.keys = s.keys ∧ t.rd F.TP_KEY_STATUS_result p = 4) ∧
    (((s.keyCtx u).slot slot).valid = true → (s.keyCtx u).pend ≠ none →
      ∃ t, exec (.keySwitch r p false slot u) s = .next t ∧ t.keys = s.keys ∧ t.rd F.TP_KEY_STATUS_result p = 5) ∧
    (((s.keyCtx u).slot slot).valid = true → (s.keyCtx u).pend = none → (s.keyCtx u).active = slot →
      ∃ t, exec (.keySwitch r p false slot u) s = .next t ∧ t.keys = s.keys ∧ t.rd F.TP_KEY_STATUS_result p = 7) ∧
    (∃ t, exec (.keySwitch r p true slot u) s = .next t ∧ t = { s with rf := t.rf } ∧ t.rd F.TP_KEY_STATUS_result p = 4) ∧
    (∀ g, ∃ t, exec (.keyQuery r p g u) s = .next t ∧ t = { s with rf := t.rf } ∧ t.rd F.TP_KEY_STATUS_result p = 0
      ∧ t.rd F.TP_KEY_STATUS_valid0 p = b2n (if g then (s.port p).group0 else (s.keyCtx u).slot0).valid
      ∧ t.rd F.TP_KEY_STATUS_valid1 p = b2n (if g then (s.port p).group1 else (s.keyCtx u).slot1).valid) ∧
    (∀ b f, (s.keyCtx u).grace = some (b, f) →
      (80 * max 1 (s.rd F.TP_CTRL_key_grace (s.ctx u).port) ≤ (s.ts.frame + (2 ^ 32 - f)) % 2 ^ 32 →
        exec (.keyGraceExpire u) s = .next (s.setKeyCtx u { s.keyCtx u with grace := none })) ∧
      ((s.ts.frame + (2 ^ 32 - f)) % 2 ^ 32 < 80 * max 1 (s.rd F.TP_CTRL_key_grace (s.ctx u).port) →
        exec (.keyGraceExpire u) s = .next s ∧ s.keyLive u b = true))

/-- From R71 to R80: port_en of a port sets where the ports of its pair have their modes and its PTX lane is up, else en_status reads 1 or 2;
pair_en is taken with both ports disabled, ds_mode with the port disabled; dTXL sets by its timer once the lane
has been lost for 1 us, and not before, latched, with its event. R81, R82: rx_en is refused with 1 for a PRX lane that is not up, 3 where rate and ds_mode differ, 2 for a
rate that is not available, in that order; else the receiver is enabled. The preambles rise to the least of the rate.
Where a clause meets a point that the spec leaves to inference it states the model's choice: log entries 7, 10 and 102. -/
def Obligations.PortsAndReceiversAreEnabled : Prop :=
  (∀ (s : State) (r : Requester) (p : Port) (v : Word), s.Powered → s.Owner r → s.portDown 1 p = false →
    (s.on F.TP_CTRL_port_en p = false → v.toNat % 2 = 1 →
      ∃ t, exec (.tpCtrlWrite r p v) s = .next t
        ∧ t.rd F.TP_STATUS_en_status p = (if t.paired p = true ∧ (t.on F.TP_CTRL_ds_mode (evenOf p) = true
            ∨ t.on F.TP_CTRL_ds_mode (evenOf p + 1) = false) then 1 else if s.laneUp p then 0 else 2)
        ∧ t.rd F.TP_CTRL_port_en p = (if t.rd F.TP_STATUS_en_status p = 0 then 1 else 0)
        ∧ t.rd F.TP_CTRL_ds_mode p = v.toNat / 2 % 2 ∧ t.rd F.TP_CTRL_key_grace p = v.toNat / 2 ^ 8 % 2 ^ 8
        ∧ (p.val % 2 = 0 → s.feat 1 = true → s.on F.TP_CTRL_port_en (p + 1) = false →
            t.rd F.TP_CTRL_pair_en p = v.toNat / 2 ^ 2 % 2)
        ∧ t = { s with rf := t.rf, out := t.out, pr := t.pr, pm := t.pm }) ∧
    (v.toNat % 2 = 0 → ∃ t, exec (.tpCtrlWrite r p v) s = .next t ∧ t.rd F.TP_CTRL_port_en p = 0) ∧
    ((s.laneUp p = true ∨ s.ts.run < (s.lane p).edgeAt + microsecond) → exec (.tpDefectTimer p 0 true) s = .next s) ∧
    (s.laneUp p = false → (s.lane p).edgeAt + microsecond ≤ s.ts.run → s.tpHas p 0 = false → bit (s.rd F.TP_DEFECT_mask p) 0 = false →
      ∃ t, exec (.tpDefectTimer p 0 true) s = .next t ∧ t.tpHas p 0 = true
        ∧ bit (t.rd F.TP_DEFECT_latched p) 0 = true ∧ (s.Room 1 p → t.Raised 1 p 0x0100 0)
        ∧ t = { s with rf := t.rf, evu := t.evu, pm := t.pm })) ∧
  ∀ (s : State) (r : Requester) (p : Port) (v : Word), s.Powered → s.Owner r → s.portDown 2 p = false →
    s.on F.UB_TREE_CFG_rx_en p = false → v.toNat % 2 = 1 →
    (∃ t, exec (.ubTreeCfgWrite r p v) s = .next t
      ∧ t.rd F.UB_TREE_STATUS_en_status p = (if s.laneUp (64 + p) = false then 1
          else if (v.toNat / 2 ^ 16 % 4 == 3) != s.on F.TP_CTRL_ds_mode p then 3
          else if v.toNat / 2 ^ 16 % 4 = 0 ∧ s.feat 0 = false then 2 else 0)
      ∧ t.rd F.UB_TREE_CFG_rx_en p = (if t.rd F.UB_TREE_STATUS_en_status p = 0 then 1 else 0)
      ∧ t.rd F.UB_TREE_CFG_us_rate p = v.toNat / 2 ^ 16 % 4 ∧ t.rd F.UB_TREE_CFG_guard_q p = v.toNat / 2 ^ 8 % 2 ^ 8
      ∧ t = { s with rf := t.rf, out := t.out, pr := t.pr, pm := t.pm }) ∧
    (s.sharedOdd p = false → ∃ t, exec (.ubTreeProfWrite r p v) s = .next t
      ∧ t.rd F.UB_TREE_PROF_delim_q p = v.toNat / 2 ^ 24 % 4
      ∧ t = { s with rf := t.rf, out := t.out, pr := t.pr, pm := t.pm })

/-! ### Upstream bursts -/

/-- From R86 to R89: the receiver arms a burst of the map whose upstream frame arrives now with its owner and hint, and wakes for it; nothing else of the
machine changes; under dRXL the burst is missing.
R98 to R101, R112: the header of an armed burst, at the first position of the window where the delimiter matches and the header passes. The
owner's ONU-ID makes the burst good and ends the run of missing ones; another makes it foreign, with its event; no accepted position
makes it missing, and toward LOBi only outside a shadow (R134).
Where a clause meets a point that the spec leaves to inference it states the model's choice: log entries 79, 106 and 110. -/
def Obligations.BurstsArmAndHeadersJudgeTheOwner : Prop :=
  (∀ (s : State) (p : Port) (first i : Nat) (b : List MapStruct) (c : MapStruct) (u : Nat), s.Powered → s.receiving p = true →
    (s.winsOf p first (s.armLead p p false)).all (fun w => w.2.s + w.2.off != first) = true → s.findBurst p first = some (i, b) →
    b.head? = some c → c.owner = some u →
    (s.treeHas p 1 = false → ∃ t, exec (.burstArm p first) s = .next t ∧ t = { s with ub := t.ub, termRx := t.termRx }
      ∧ ∃ e ∈ (t.rx p).armed, e.first = first ∧ e.port = i ∧ e.owner = some u ∧ e.structs = b ∧ e.short = c.short ∧ e.hdr = .none
        ∧ e.expect = s.own16 p i first + (s.ctx u).c + s.arrivalSkew u) ∧
    (s.treeHas p 1 = true → (s.newBurst p first i u b c.short).shadow = false → ∃ t, exec (.burstArm p first) s = .next t
      ∧ t.burst p first = s.burst p first ∧ (t.trx u).miss = (s.trx u).miss + 1) ∧
    (s.awaits p = true → exec (.receiverWake p) s = .next (s.wr F.UB_TREE_STATUS_idle 0 p))) ∧
  ∀ (s : State) (p : Port) (first : Nat) (b : Burst) (u : Nat) (tries : List DelimTry) (ph : BitVec 6) (ind : HeaderInd), s.Powered →
    s.burst p first = some b → b.hdr = .none → b.owner = some u → b.freed = false →
    (∀ m, m ∈ s.matches_ p b tries ↔ m ∈ tries ∧ (m.pos - b.expect).natAbs ≤ s.delimWin p ∧ m.differ ≤ s.rd F.UB_TREE_CFG_delim_err p) ∧
    (∀ m, (s.matches_ p b tries).find? (·.hecOk) = some m →
      ((s.ctx u).onu < 1024 → ∃ t, exec (.fsHeaderReceived p first (BitVec.ofNat 10 (s.ctx u).onu) tries ph ind) s = .next t
        ∧ (t.burst p first).map (·.hdr) = some .good ∧ (t.burst p first).map (·.ind) = some ind.ploamu ∧ (t.trx u).miss = 0
        ∧ (t.trx u).offset = m.pos - b.expect ∧ (ind.dying = true → (t.trx u).dyingAt = some s.ts.run)) ∧
      (∀ onu : BitVec 10, onu.toNat ≠ (s.ctx u).onu →
        ∃ t, exec (.fsHeaderReceived p first onu tries ph ind) s = .next t ∧ (t.burst p first).map (·.hdr) = some .foreign)) ∧
    ((s.matches_ p b tries).find? (·.hecOk) = none → ∀ onu, exec (.fsHeaderReceived p first onu tries ph ind) s = .next s) ∧
    (∃ t, exec (.delimiterWindowClose p first) s = .next t ∧ (t.burst p first).map (·.hdr) = some .missing
      ∧ (t.trx u).miss = (s.trx u).miss + (if b.shadow then 0 else 1))

/-- From R105, R106, R178, R180: a DBRu of an armed burst with a good header commits occ, saturated at 18 bits, raises seq by 1 modulo 64 and
sets age to 0; one that fails its CRC marks the report, once one has been committed (R536); a FS trailer that fails counts in the integrity count; a PLOAMu that the header
announced, with a good MIC, goes to the activation machinery. -/
def Obligations.ReportsCommitFromGoodCodewords : Prop :=
  ∀ (s : State) (p : Port) (first : Nat) (b : Burst) (u : Nat) (c : MapStruct) (start : Nat) (occ : BitVec 24) (msg : List Byte), s.Powered →
    s.burst p first = some b → b.hdr = .good → b.owner = some u → b.freed = false → b.structs.find? (·.start == start) = some c →
    b.cut.contains start = false → (s.alloc c.alloc).valid = true → c.freed = false →
    (∃ t, exec (.codewordRelease p first start ⟨0, 0, some 0, none, false, [.dbru true occ]⟩) s = .next t
      ∧ (t.alloc c.alloc).occ = min 0x3FFFF occ.toNat ∧ (t.alloc c.alloc).seq = ((s.alloc c.alloc).seq + 1) % 64
      ∧ (t.alloc c.alloc).age = 0 ∧ (t.alloc c.alloc).crcSeen = false
      ∧ t = { s with allocs := t.allocs, ub := t.ub, termRx := t.termRx, pm := t.pm }) ∧
    (∃ t, exec (.codewordRelease p first start ⟨0, 0, some 0, none, false, [.dbru false occ]⟩) s = .next t
      ∧ (t.alloc c.alloc).occ = (s.alloc c.alloc).occ ∧ (t.alloc c.alloc).crcSeen = (s.alloc c.alloc).reported) ∧
    (b.port = p.val → s.sharedOdd p = false → ∃ t, exec (.codewordRelease p first start ⟨0, 0, some 0, none, false, [.trailer false]⟩) s
      = .next t ∧ (t.rx p).integrity = (s.rx p).integrity + 1 ∧ t.allocs = s.allocs) ∧
    (b.ind = true → s.isStandby = false → exec (.ploamuReceived p first true msg) s = .next (s.emit (.ploamu u msg))) ∧
    exec (.ploamuReceived p first false msg) s = .next s

/-- BURST_CLOSE ends a burst: it is armed no longer (R89). REASSEMBLY_TIMEOUT discards the rest of a chain that has waited reasm_frames (R109).
UNEXPECTED_ENERGY marks the frame, and keeps the first quantum while dUXL is set (R87, R91, R151).
R95 to R97: a preset older than age_limit falls to training with the drop event of reason 1 (age); the drop command drops one with
reason 2; a query changes nothing but its reply; a Free context answers 2.
Where a clause meets a point that the spec leaves to inference it states the model's choice: log entries 79, 107 and 108. -/
def Obligations.BurstsEndAndPresetsDrop : Prop :=
  (∀ (s : State) (p : Port), s.Powered →
    (∀ first b fin, s.burst p first = some b →
      ∃ t, exec (.burstClose p first fin) s = .next t ∧ t.burst p first = none ∧ t.allocs = s.allocs ∧ t.keys = s.keys
        ∧ (b.owner = none ∨ b.hdr ≠ .good ∨ b.freed = true → t = { s with ub := t.ub, rf := t.rf })) ∧
    (∀ (x : BitVec 17) c, s.chain x.toNat = some c → max 1 (s.rd F.UB_THRESH_reasm_frames) ≤ s.framesSince c.frame →
      ∃ t, exec (.reassemblyTimeout x) s = .next t ∧ t.chain x.toNat = some { c with dead := true }
        ∧ t = { s with chains := t.chains }) ∧
    (∀ q : BitVec 17, s.receiving p = true → s.lightExpected p q.toNat = false → s.lateLight p q.toNat = false → (s.rx p).uxlNow = false →
      ∃ t, exec (.unexpectedEnergy p q) s = .next t ∧ (t.rx p).uxlNow = true
        ∧ t.rd F.GE_DISC_STATUS_uxl_q (s.treeNo p)
          = (if s.treeHas p 2 then sat 0xFFFF q.toNat % 2 ^ 16 else s.rd F.GE_DISC_STATUS_uxl_q (s.treeNo p))
        ∧ t = { s with ub := t.ub, rf := t.rf })) ∧
  ∀ (s : State) (r : Requester) (u : Term), s.Powered → s.Owner r → s.on F.UB_TERM_STATUS_busy 0 = false → s.feat 2 = true →
    ((s.preset u).st = .trained → s.ageLimit < s.presetAge u →
      ∃ t, exec (.presetAgeOut u) s = .next t ∧ (t.preset u).st = .training ∧ (t.preset u).clean = 0) ∧
    ((s.ctx u).st ≠ .free → ∃ t, exec (.presetDrop r u) s = .next t ∧ (t.preset u).st = .training
      ∧ (t.preset u).vals = (s.preset u).vals ∧ t.rd F.UB_TERM_STATUS_result 0 = 0
      ∧ (s.Room 2 (s.ctx u).port → t.Raised 2 (s.ctx u).port 0x0A00 (u.val + 2 * 2 ^ 30))) ∧
    (∃ t, exec (.presetQuery r u) s = .next t ∧ t = { s with rf := t.rf }
      ∧ t.rd F.UB_TERM_STATUS_result 0 = (if (s.ctx u).st = .free then 2 else 0)) ∧
    (∀ p : Port, s.laneUp (64 + p.val) = false → s.treeHas p 1 = false → s.portDown 2 p = false →
      (s.lane (64 + p.val)).edgeAt + microsecond ≤ s.ts.run → s.on F.UB_TREE_CFG_rx_en p = true →
      ∃ t, exec (.ubDefectTimer (.tree p 1) true) s = .next t ∧ t.treeHas p 1 = true)


/-! ### Activation and ranging -/

/-- From R118 to R125, R140: the owner's context commands: the states a context moves through, the refusals 5 (Free) and 8 (a state the
command is not legal in), and that an allocation touches one context alone; one beyond the tree's limit is refused with 3.
Where a clause meets a point that the spec leaves to inference it states the model's choice: log entry 29. -/
def Obligations.ContextCommandsMoveTheirContext : Prop :=
  ∀ (s : State) (r : Requester) (u p : Nat), s.Powered → s.Owner r → s.AllUp → s.on F.GE_CTX_STATUS_busy = false →
    s.rd F.GE_CTX_ARG_term = u → s.rd F.GE_CTX_ARG_port = p →
    (∃ t, exec (.contextQuery r) s = .next t ∧ t = { s with rf := t.rf } ∧ t.rd F.GE_CTX_STATUS_result = 0) ∧
    (∀ (anyId : Bool) (id f : Nat), (s.onTreeList p).length < s.rd F.GE_POOL_TREE_limit (s.treeNo p) →
      f = lowestFrom 0 s.taken → f < 16384 →
      ((s.onTreeList p).length < s.rd F.GE_POOL_TREE_reserve (s.treeNo p) ∨ s.unreservedFree ≠ 0) →
      (if anyId then s.anyOnu p = some id else s.onuTaken p id = false ∧ s.rd F.GE_CTX_ARG_onu_id = id) →
      ∃ t, exec (.contextAllocate r anyId) s = .next t
        ∧ t.ctx f = { st := .allocated, port := p, onu := id, tenant := s.rd F.GE_CTX_TENANT_tenant, since := s.ts.run,
                         frees := (s.ctx f).frees }
        ∧ t.rd F.GE_CTX_STATUS_result = 0 ∧ t.rd F.GE_CTX_STATUS_term = f ∧ (∀ w, w ≠ f → t.ctx w = s.ctx w)
        ∧ t = { s with ctxs := t.ctxs, evu := t.evu, rf := t.rf, out := t.out, pr := t.pr, pm := t.pm }) ∧
    (s.rd F.GE_POOL_TREE_limit (s.treeNo p) ≤ (s.onTreeList p).length → ∀ anyId, exec (.contextAllocate r anyId) s
      = .next (s.wr F.GE_CTX_STATUS_result 3)) ∧
    ((s.ctx u).st = .allocated → s.boundTo (s.rd F.GE_CTX_SN_vendor_id * 2 ^ 32 + s.rd F.GE_CTX_SN_vssn) = none →
      ∃ t, exec (.contextBind r) s = .next t ∧ (t.ctx u).st = .waiting
        ∧ (t.ctx u).sn = some (s.rd F.GE_CTX_SN_vendor_id * 2 ^ 32 + s.rd F.GE_CTX_SN_vssn)
        ∧ t.rd F.GE_CTX_STATUS_result = 0) ∧
    ((s.ctx u).st = .operating → ∃ t, exec (.contextDisable r) s = .next t ∧ (t.ctx u).st = .disabled
      ∧ (t.ctx u).due = (s.ctx u).due ++ List.replicate 3 (.disable ((s.ctx u).sn.getD 0)) ∧ t.rd F.GE_CTX_STATUS_result = 0) ∧
    ((s.ctx u).st = .disabled → ∃ t, exec (.contextEnable r) s = .next t ∧ (t.ctx u).st = .waiting
      ∧ (t.ctx u).due = (s.ctx u).due ++ List.replicate 3 (.enable ((s.ctx u).sn.getD 0)) ∧ t.rd F.GE_CTX_STATUS_result = 0) ∧
    ((s.ctx u).st = .waiting → ∃ t, exec (.activateNow r) s = .next t ∧ (t.ctx u).st = .assigned
      ∧ (t.port (s.ctx u).port).ploam = (s.port (s.ctx u).port).ploam ++ [.assignOnuId (s.ctx u).onu ((s.ctx u).sn.getD 0)]
      ∧ t.rd F.GE_CTX_STATUS_result = 0) ∧
    ((s.ctx u).st ≠ .free → (s.ctx u).st ≠ .leaving → ∃ t, exec (.contextFree r) s = .next t
      ∧ (t.ctx u).st = (if (s.ctx u).st = .allocated then .free else .leaving) ∧ t.keyCtx u = {} ∧ t.preset u = {}
      ∧ t.rd F.GE_CTX_STATUS_result = 0) ∧
    ((s.ctx u).st = .free → ∃ t, exec (.contextBind r) s = .next t ∧ t = { s with rf := t.rf }
      ∧ t.rd F.GE_CTX_STATUS_result = 5) ∧
    ((s.ctx u).st = .leaving → ∃ t, exec (.contextFree r) s = .next t ∧ t = { s with rf := t.rf }
      ∧ t.rd F.GE_CTX_STATUS_result = 8)

/-- From R120, R122, R138 to R142: answers found in open discovery enter the list of their tree, n, bound ones are assigned; the host takes the
oldest entry, and one not taken within 10 s goes; attempts, slices and the pre-assigned delay fall when they are due; a reserve stands
only where all of them fit the pool.
Where a clause meets a point that the spec leaves to inference it states the model's choice: log entries 76, 79 and 122. -/
def Obligations.TerminalsAreFoundAndAttempted : Prop :=
  ∀ (s : State) (p : Port) (n : Nat), s.Powered → s.AllUp → s.isStandby = false → s.treeNo p = n →
    (∀ (sn : BitVec 64) (a : Nat) (b : Burst) (w : MapWin) (u : Nat), s.discWin p a = none →
      s.rangeWin p (fun _ => a * 1024) = some ((b, w), u) → ∃ t, exec (.serialNumberOnu p sn a) s = .next t
        ∧ t = { s with act := t.act, ub := t.ub } ∧ (t.actTree n).discarded = (s.actTree n).discarded + 1) ∧
    (∀ (sn : BitVec 64) (a : Nat) (b : Burst) (w : MapWin), s.discWin p a = some (b, w) → (s.actTree n).found.any (fun e => e.sn == sn.toNat) = false →
      (s.boundTo sn.toNat = none → s.pr.registry.find? (fun e => e.2 == sn.toNat) = none → (s.actTree n).found.length < 16 →
        ∃ t, exec (.serialNumberOnu p sn a) s = .next t ∧ (t.actTree n).found
          = (s.actTree n).found ++ [⟨sn.toNat, (s.xBounds p a w).1, (s.xBounds p a w).2, false, s.ts.run⟩] ∧ t.ctxs = s.ctxs) ∧
      (∀ u, s.boundTo sn.toNat = some u → s.onTree u p = true → (s.ctx u).st = .waiting →
        ∃ t, exec (.serialNumberOnu p sn a) s = .next t ∧ (t.ctx u).st = .assigned ∧ (t.ctx u).x = some (s.xBounds p a w))) ∧
    (∀ e rest, (s.actTree p).found = e :: rest → ∃ t, exec (.foundInfoRead .pf p) s = .next t
      ∧ (t.actTree p).found = rest ∧ (t.actTree p).taken = some e ∧ t.rd F.GE_FOUND_SN_vssn p = e.sn % 2 ^ 32
      ∧ t.rdata = 2 ^ 31 + b2n e.dup * 2 ^ 30 + e.hi % 2 ^ 15 * 2 ^ 15 + e.lo % 2 ^ 15) ∧
    (∀ sn : BitVec 64, ∃ t, exec (.foundEntryExpire p sn) s = .next t ∧ t = { s with act := t.act }
      ∧ ∀ e, e ∈ (t.actTree n).found ↔ e ∈ (s.actTree n).found ∧ ¬(e.sn = sn.toNat ∧ e.at_ + 10 * (10 ^ 9 * 2 ^ 40) ≤ s.ts.run)) ∧
    (s.live = true → s.on F.GE_DISC_CFG_disc_en n = true → bit (s.rd F.UB_TREE_STATUS_defects p) 2 = false →
      (s.actTree p).dueAt = none → ∃ t, exec (.discoverySliceDue p) s = .next t ∧ (t.actTree p).due = true
        ∧ (t.actTree p).dueAt = some s.ts.frame ∧ t = { s with act := t.act }) ∧
    (s.live = true → s.on F.GE_DISC_CFG_disc_en n = true ∨ s.on F.GE_DISC_CFG_dir_en n = true → (s.actTree n).padAt = none →
      s.rd F.GE_DISC_DIST_rtd_min n ≤ s.rd F.GE_DISC_DIST_teq n → ∃ t, exec (.preAssignedDelaySend p) s = .next t
        ∧ (∀ q ∈ s.treePorts p, (t.port q).ploam
            = (s.port q).ploam ++ [.preAssignedDelay (s.rd F.GE_DISC_DIST_teq n - s.rd F.GE_DISC_DIST_rtd_min n)])
        ∧ (t.actTree n).padAt = some s.ts.frame
        ∧ t = { s with act := t.act, tp := t.tp }) ∧
    (∀ u, s.live = true → s.on F.GE_DISC_CFG_dir_en n = true → (s.actTree n).ranging = none → (s.actTree n).attemptAt = none →
      nextAfter (s.actTree n).lastTried ((s.onTreeList p).filter (fun t => (s.ctx t).st == .waiting)) = some u →
      ∃ t, exec (.directedAttempt p) s = .next t ∧ (t.ctx u).st = .assigned ∧ (t.actTree n).lastTried = some u) ∧
    (∀ r v, s.Owner r → (((List.range 64).filter (· != p.val)).map (fun q => s.rd F.GE_POOL_TREE_reserve q)).sum
        + bits v.toNat 9 0 ≤ 16384 → ∃ t, exec (.poolTreeWrite r p v) s = .next t
      ∧ t.rd F.GE_POOL_TREE_limit p = bits v.toNat 25 16 ∧ t.rd F.GE_POOL_TREE_reserve p = bits v.toNat 9 0
      ∧ t = { s with rf := t.rf, out := t.out, pr := t.pr, pm := t.pm }) ∧
    (∀ r v, s.Owner r → 16384 < (((List.range 64).filter (· != p.val)).map (fun q => s.rd F.GE_POOL_TREE_reserve q)).sum
        + bits v.toNat 9 0 → s.Room 3 n → ∃ t, exec (.poolTreeWrite r p v) s = .next t
      ∧ t.rd F.GE_POOL_TREE_limit p = bits v.toNat 25 16 ∧ t.rd F.GE_POOL_TREE_reserve p = s.rd F.GE_POOL_TREE_reserve p
      ∧ t.Raised 3 n 0x1023 (bits v.toNat 9 0))

/-- From R122, R124, R137, R141, R142, R145: a Registration gives EqD = T_eq − RTD, both in 1/16 bit, and Ranging_Time goes before what is queued; any other answer in
a ranging slice is discarded and counted; two cycles with no answer, a correction not confirmed for eqd_confirm frames, lost_t in Lost
and the frame of the third deactivation each end as the spec says, and not before.
Where a clause meets a point that the spec leaves to inference it states the model's choice: log entries 19 and 79. -/
def Obligations.TerminalsAreRangedAndLetGo : Prop :=
  ∀ (s : State), s.Powered → s.isStandby = false →
    (∀ (p : Port) (onu : BitVec 10) (x16 : Nat) (b : Burst) (w : MapWin) (u : Nat),
      s.rangeWin p (fun w => w.s * 1024 + x16) = some ((b, w), u) →
      ((s.ctx u).st = .assigned → (s.ctx u).measured = false → (s.ctx u).onu = onu.toNat → (s.ctx u).port = p.val →
        ∃ t, exec (.registration p onu x16) s = .next t ∧ (t.ctx u).measured = true
          ∧ (t.ctx u).rtd = (s.tenths16 p (s.rd F.GE_DISC_DIST_rtd_min (s.treeNo p)) + x16 : Nat)
          ∧ (t.ctx u).eqd = (s.tenths16 p (s.rd F.GE_DISC_DIST_teq (s.treeNo p)) : Int) - (t.ctx u).rtd
          ∧ (t.port p).ploam = s.rangingMsg p onu.toNat (t.ctx u).eqd :: (s.port p).ploam
          ∧ (∀ v, v ≠ u → t.ctx v = s.ctx v)) ∧
      ((s.ctx u).st ≠ .assigned ∨ (s.ctx u).measured = true ∨ (s.ctx u).onu ≠ onu.toNat ∨ (s.ctx u).port ≠ p.val →
        ∃ t, exec (.registration p onu x16) s = .next t ∧ t = { s with act := t.act, ub := t.ub }
          ∧ (t.actTree (s.treeNo p)).discarded = (s.actTree (s.treeNo p)).discarded + 1)) ∧
    (∀ (p : Port) (n u : Nat) (e : Nat × Nat), s.treeNo p = n → (s.actTree n).ranging = some u → (s.actTree n).rDone = some e →
      (s.ctx u).st = .assigned → (s.passed p e.1 e.2 = false → exec (.rangingCycleEnd p) s = .next s) ∧ (s.passed p e.1 e.2 = true →
      ∃ t, exec (.rangingCycleEnd p) s = .next t
        ∧ (if (s.ctx u).cycles = 0 then (t.ctx u).cycles = 1 ∧ (t.ctx u).st = .assigned ∧ (t.actTree n).rDone = none
            ∧ (t.actTree n).ranging = some u
          else (t.ctx u).st = .waiting ∧ (t.actTree n).ranging ≠ some u
            ∧ (t.actTree n).unanswered = (s.actTree n).unanswered + 1))) ∧
    (∀ (u : Term) (d : Int), (s.ctx u).corr = some d →
      (s.framesSince (s.ctx u).corrAt < max 1 (s.rd F.GE_ACT_CTRL_eqd_confirm) → exec (.eqdConfirmTimeout u) s = .next s) ∧
      (max 1 (s.rd F.GE_ACT_CTRL_eqd_confirm) ≤ s.framesSince (s.ctx u).corrAt →
        ((s.ctx u).corrSent = false → ∃ t, exec (.eqdConfirmTimeout u) s = .next t
          ∧ (t.ctx u) = { s.ctx u with corrSent := true, corrAt := s.ts.frame } ∧ (t.port (s.ctx u).port).ploam
            = (s.port (s.ctx u).port).ploam ++ [s.rangingMsg (s.ctx u).port (s.ctx u).onu ((s.ctx u).eqd - 16 * d)]) ∧
        ((s.ctx u).corrSent = true → ∃ t, exec (.eqdConfirmTimeout u) s = .next t ∧ (t.ctx u).corr = none
          ∧ (t.ctx u).eqd = (s.ctx u).eqd
          ∧ (s.Room 3 (s.treeNo (s.ctx u).port) → t.Raised 3 (s.treeNo (s.ctx u).port) 0x1031 u)))) ∧
    (∀ u : Term, (s.ctx u).st = .lost → s.ts.run < (s.ctx u).since + max 1 (s.rd F.GE_ACT_CTRL_lost_t) * (10 ^ 8 * 2 ^ 40) →
      exec (.lostTimeout u) s = .next s) ∧
    (∀ u : Term, (s.ctx u).st = .lost → (s.ctx u).since + max 1 (s.rd F.GE_ACT_CTRL_lost_t) * (10 ^ 8 * 2 ^ 40) ≤ s.ts.run → ∃ t, exec (.lostTimeout u) s = .next t ∧ (t.ctx u).st = .waiting
      ∧ (t.ctx u).kept = some (s.ctx u).eqd ∧ (t.ctx u).due = (s.ctx u).due ++ List.replicate 3 (.deactivate (s.ctx u).onu)) ∧
    (∀ u : Term, (s.ctx u).st = .leaving → (s.ctx u).due = [] → s.framesSince (s.ctx u).dueAt ≠ 0 → ∃ t, exec (.leavingComplete u) s = .next t
      ∧ (t.ctx u).st = .free ∧ (s.treeNo (s.ctx u).port, (s.ctx u).onu, (s.ts.frame + 8000) % 2 ^ 32) ∈ t.onuHolds) ∧
    (∀ (p : Port) (onu : BitVec 10), ∃ t, exec (.onuIdHoldExpire p onu) s = .next t ∧ t = { s with onuHolds := t.onuHolds }
      ∧ ∀ h, h ∈ t.onuHolds ↔ h ∈ s.onuHolds ∧ ¬(h.1 = s.treeNo p ∧ h.2.1 = onu.toNat ∧ reached s.ts.frame h.2.2 = true))

/-! ### Grant engines -/

/-- From R154 to R166, R358: a pitch opens in frame n, at the offset of its tree, for frame n + 2 from the committed entry of its tree, in a clean machine; an absent entry
faults with 11; the deadline, 31.25 µs on, ends it and nothing before, unsealed with reason 1 or 3 and without a trace in the tables; the map builder queues the map of a
sealed draft for its frame. The frame instant ends the frame in progress.
Where a clause meets a point that the spec leaves to inference it states the model's choice: log entries 13 and 77. -/
def Obligations.PitchesOpenEndAndSealMaps : Prop :=
  ∀ (s : State) (p : Port), s.Powered →
    (∀ target e w, target = (s.ts.frame + 2) % 2 ^ 32 → e = s.ge.entries.get 0 p → w = s.imageWord s.ge.cur e →
      s.noPitch p = false → s.on F.GE_TREE_CFG_gp_en p = true → (s.tree p).pitch = none → (s.tree p).due.get none target = none →
      s.ge.rotation = none → s.ge.takeover = [] → s.engineOf p ≠ 0x1F → s.inPitch p = true →
      (e < s.ge.len → w ≠ 0 → ∃ t x, exec (.pitchOpen p) s = .next t ∧ (t.tree p).pitch = some x ∧ x.pc = w % 2 ^ 14
        ∧ x.bank = s.ge.cur ∧ x.len = s.ge.len ∧ x.gen = (s.gen .grant).cur ∧ x.draft.frame = target ∧ x.draft.structs = []
        ∧ x.regs = List.replicate 16 0 ∧ x.sealed = false ∧ x.allocs = s.allocs ∧ x.ports = s.treePorts p ∧ x.keep = s.keepOf p
        ∧ x.deadline = s.pitchStart p + 31250 * 2 ^ 40
        ∧ (t.tree p).due.get none target = some 0 ∧ t = { s with trees := t.trees, fresh := t.fresh }) ∧
      (s.ge.len ≤ e → ∃ t, exec (.pitchOpen p) s = .next t ∧ (t.tree p).pitch = none ∧ t.rd F.GE_TREE_FAULT_code p = 11
        ∧ t.rd F.GE_TREE_STATUS_last_reason p = 2)) ∧
    (s.inPitch p = false → exec (.pitchOpen p) s = .next s) ∧
    (∀ x, (s.tree p).pitch = some x → (s.tree p).waits = false →
      (s.ts.run < x.deadline → exec (.pitchDeadline p) s = .next s) ∧
      (x.deadline ≤ s.ts.run → x.sealed = false → ∃ t, exec (.pitchDeadline p) s = .next t ∧ (t.tree p).pitch = none
        ∧ t.rd F.GE_TREE_STATUS_last_reason p = (if x.late then 3 else 1)
        ∧ t.allocs = s.allocs ∧ t.ctxs = s.ctxs ∧ t.ge = s.ge) ∧
      (x.deadline ≤ s.ts.run → x.sealed = true → ∃ t, exec (.pitchDeadline p) s = .next t ∧ (t.tree p).pitch = none
        ∧ t.rd F.GE_TREE_STATUS_last_reason p = 0
        ∧ t.rd F.GE_TREE_STATUS_late_yields p = sat (2 ^ F.GE_TREE_STATUS_late_yields.w - 1)
            (s.rd F.GE_TREE_STATUS_late_yields p + 1))) ∧
    (∀ m acc, (s.tree p).draft = some m → acc = s.sealKeep p (m.structs.map (s.cand p m)) →
      ∃ t, exec (.mapBuildComplete p) s = .next t ∧ (t.tree p).draft = none ∧ (t.tree p).everSealed = true
        ∧ (t.tree p).lastChk = m.structs.length - acc.length
        ∧ (t.port p).maps.get none m.frame = some (s.portMap p m acc false)
        ∧ (s.sharedUs p = true → (t.port (p + 1)).maps.get none m.frame = some (s.portMap p m acc true))) ∧
    (s.glb.dev ≠ .boot → s.ts.align = none → s.ts.step = none → s.ts.incrNext = none → ∃ t, exec .frameInstant s = .next t
      ∧ t.ts.phase = 0 ∧ t.ts.started = true ∧ t.ts.frame = (if s.ts.started then (s.ts.frame + 1) % 2 ^ 32 else 0))

/-- From R160: what the map builder keeps of a draft lies inside the frame, belongs to terminals in Operating or Lost with a valid
allocation, and overlaps nothing else that it keeps. -/
def Obligations.SealedStructuresLieApartInsideTheFrame : Prop :=
  ∀ (s : State) (p : Nat) (l : List Cand),
    (∀ c ∈ s.sealKeep p l, c ∈ l ∧ c.stop ≤ s.qpf p ∧ (s.alloc c.alloc).valid = true
      ∧ ((s.ctx c.owner).st = .operating ∨ (s.ctx c.owner).st = .lost)) ∧
    (s.sealKeep p l).Pairwise (fun b c => b.stop ≤ c.start ∨ c.stop ≤ b.start)

/-- From R46, R167 to R173: self-test passes of the spare, rotation, takeover and repair.
Where a clause meets a point that the spec leaves to inference it states the model's choice: log entries 38 and 52. -/
def Obligations.EnginesTestRotateTakeOverAndRepair : Prop :=
  ∀ (s : State) (r : Requester) (e : Eng), s.Powered → s.Owner r → s.AllUp → s.on F.GE_ENG_CMD_STATUS_busy = false →
    (s.glb.dev ≠ .boot → s.fenced (.engine e) = false → s.ge.takeover = [] → s.ge.rotation = none →
      s.rd F.GE_ENG_STATUS_spare = e.val → ∀ unit,
      (∃ t, exec (.bistPassComplete e true unit) s = .next t ∧ t = { s with rf := t.rf, ge := t.ge }
        ∧ t.rd F.GE_ENG_BIST_last_fail = 0 ∧ e.val ∉ t.ge.bistFailed) ∧
      (s.ge.bistFailed = [] → 1 < s.threshold → s.tally (.engine e) = {} → ∃ t, exec (.bistPassComplete e false unit) s = .next t
        ∧ t.rd F.GE_ENG_BIST_last_fail = 1 ∧ t.ge.bistFailed = [e.val] ∧ t.fenced (.engine e) = false
        ∧ (t.tally (.engine e)).total = 1) ∧
      (e.val ∈ s.ge.bistFailed → ∃ t, exec (.bistPassComplete e false unit) s = .next t ∧ t.fenced (.engine e) = true)) ∧
    (s.rotationDue = false → exec .spareRotation s = .next s) ∧
    (s.rotationDue = true → s.isStandby = false → s.ge.rotation = none → s.ge.takeover ≠ [] →
      exec .spareRotation s = .next { s with ge := { s.ge with rotAsked := some s.ts.frame, rotAt := some s.ts.frame } }) ∧
    (∀ sp q (f : Nat), s.rotationDue = true → s.isStandby = false → s.ge.rotation = none → s.ge.takeover = [] →
      s.rd F.GE_ENG_STATUS_spare = sp → sp ≠ 0x1F → s.nextEngine sp = some f → s.quadOf f = some q →
      ∃ t, exec .spareRotation s = .next t ∧ t.ge = { s.ge with rotation := some (q, f, sp), rotAsked := none, rotAt := some s.ts.frame }
        ∧ t = { s with ge := t.ge, rf := t.rf }) ∧
    (∀ q sp, s.ge.takeover = [(q, sp)] → s.rd F.GE_ENG_STATUS_spare = sp → q < 16 → sp < 17 →
      (∀ i < 4, (s.tree (q * 4 + i)).waits = false) → (∀ i < 16, i ≠ q → s.rd F.GE_QUAD_MAP_engine i ≠ 0x1F) →
      ∃ t, exec .takeoverLoadComplete s = .next t ∧ t.ge.takeover = [] ∧ t.rd F.GE_QUAD_MAP_engine q = sp
        ∧ t.rd F.GE_ENG_STATUS_spare = s.ge.idle.headD 0x1F % 2 ^ 5 ∧ t.rd F.GE_ENG_STATUS_takeover = 0
        ∧ (s.Room 3 sp → t.Raised 3 sp 0x2010 (q * 2 ^ 16 + sp)) ∧ t.trees = s.trees) ∧
    (∀ n : BitVec 5, (∃ t, exec (.engineQuery r n) s = .next t ∧ t = { s with rf := t.rf }
        ∧ t.rd F.GE_ENG_CMD_STATUS_result = 0 ∧ t.rd F.GE_ENG_CMD_STATUS_eng = n.toNat) ∧
      (s.fenced (.engine n.toNat) = true → ∃ t, exec (.engineRepair r n) s = .next t ∧ t.ge.repair = some n.toNat
        ∧ t.rd F.GE_ENG_CMD_STATUS_busy = 1 ∧ t = { s with rf := t.rf, ge := t.ge }) ∧
      (s.fenced (.engine n.toNat) = false → ∃ t, exec (.engineRepair r n) s = .next t ∧ t = { s with rf := t.rf }
        ∧ t.rd F.GE_ENG_CMD_STATUS_result = 2 ∧ t.rd F.GE_ENG_CMD_STATUS_busy = 0)) ∧
    (s.ge.repair = some e.val →
      (∃ t, exec (.engineRepairDone true) s = .next t ∧ t.fenced (.engine e) = false ∧ t.ge.repair = none
        ∧ (s.rd F.GE_ENG_STATUS_spare = 0x1F → s.ge.idle = [] → s.needy = none → t.rd F.GE_ENG_STATUS_spare = e.val)
        ∧ (s.rd F.GE_ENG_STATUS_spare ≠ 0x1F → s.needy = none → t.ge.idle = s.ge.idle ++ [e.val])
        ∧ t.rd F.GE_ENG_CMD_STATUS_result = 0 ∧ t.rd F.GE_ENG_CMD_STATUS_busy = 0) ∧
      (∃ t, exec (.engineRepairDone false) s = .next t ∧ t.fenced (.engine e) = true ∧ (t.tally (.engine e)).total = 0
        ∧ t.rd F.GE_ENG_CMD_STATUS_result = 4)) ∧
    (s.rd F.GE_ENG_STATUS_spare ≠ 0x1F → ∃ t, exec (.engineRotate r) s = .next t ∧ t.ge = { s.ge with rotAsked := some s.ts.frame }
      ∧ t.rd F.GE_ENG_CMD_STATUS_result = 0) ∧
    (s.rd F.GE_ENG_STATUS_spare = 0x1F → ∃ t, exec (.engineRotate r) s = .next t ∧ t = { s with rf := t.rf }
      ∧ t.rd F.GE_ENG_CMD_STATUS_result = 5)

/-- From R174, R178 to R184, R536: the image words and the tables of the grant engines as the owner writes and reads them.
Where a clause meets a point that the spec leaves to inference it states the model's choice: log entries 10, 29 and 132. -/
def Obligations.GrantImagesAndTables : Prop :=
  ∀ (s : State) (r : Requester), s.Powered → s.Owner r → s.AllUp → s.on F.GE_TBL_STATUS_busy = false →
    (∀ (v : Word) (a : Nat), (s.gen .grant).ret = none → s.rd F.GE_PROG_ADDR_addr = a →
      ∃ t, exec (.geProgDataWrite r v) s = .next t ∧ t.imageWord (!s.ge.cur) a = v.toNat % 2 ^ 18
        ∧ (∀ b, t.imageWord s.ge.cur b = s.imageWord s.ge.cur b) ∧ (∀ b, b ≠ a → t.imageWord (!s.ge.cur) b
          = s.imageWord (!s.ge.cur) b) ∧ (t.gen .grant).staged = true
        ∧ t.rd F.GE_PROG_ADDR_addr = (a + 1) % 2 ^ F.GE_PROG_ADDR_addr.w) ∧
    (∀ (i : BitVec 16) (u : Bool), i.toNat < 16384 → (s.ctx i.toNat).st ≠ .free →
      (∃ t, exec (.geTableRead r 0 false i) s = .next t ∧ t = { s with rf := t.rf, ge := t.ge }
        ∧ t.rd F.GE_TBL_STATUS_result = 0 ∧ t.rd F.GE_TBL_STATUS_index = i.toNat
        ∧ t.rd F.GE_TBL_DATA_word 2 = (s.ctx i.toNat).prog0 % 2 ^ 18
        ∧ t.rd F.GE_TBL_DATA_word 0 = ((s.ctx i.toNat).st.code * 2 ^ 15 + (s.pstate i.toNat).code * 2 ^ 13
          + b2n (bit (s.trx i.toNat).defects 0) * 2 ^ 12 + (s.ctx i.toNat).onu) % 2 ^ 18) ∧
      (∃ t, exec (.geTableWrite r 0 false i) s = .next t ∧ t.rd F.GE_TBL_STATUS_result = 0
        ∧ t.ctx i.toNat = { s.ctx i.toNat with prog0 := s.rd F.GE_TBL_DATA_word 2, prog1 := s.rd F.GE_TBL_DATA_word 3 }
        ∧ (∀ w, w ≠ i.toNat → t.ctx w = s.ctx w) ∧ t.allocs = s.allocs) ∧
      (∃ t, exec (.geTableRead r 5 u i) s = .next t ∧ t.rd F.GE_TBL_STATUS_result = 7 ∧ t.ctxs = s.ctxs)) ∧
    (∀ (u id p a : Nat), s.rd F.GE_TBL_DATA_word 1 % 16384 = u → s.rd F.GE_TBL_DATA_word 0 % 16384 = id → (s.ctx u).port = p →
      (s.ctx u).st ≠ .free → (s.allocsOn p).length < 4096 → s.allocIdTaken p id = false → s.freeAllocNo = some a →
      ∃ t, exec (.allocContextAllocate r 1 false) s = .next t ∧ (t.alloc a).valid = true ∧ (t.alloc a).allocId = id
        ∧ (t.alloc a).term = u ∧ (t.alloc a).histCount = 0 ∧ (t.alloc a).occ = 0 ∧ t.rd F.GE_TBL_STATUS_index = a
        ∧ t.rd F.GE_TBL_STATUS_result = 0 ∧ (∀ b, b ≠ a → t.alloc b = s.alloc b)) ∧
    (∀ i : BitVec 16, (s.alloc i.toNat).valid = true → ∃ t, exec (.allocContextFree r 1 false i) s = .next t
      ∧ (t.alloc i.toNat).valid = false ∧ t.rd F.GE_TBL_STATUS_result = 0
      ∧ (i.toNat, (s.alloc i.toNat).allocId, (s.ctx (s.alloc i.toNat).term).port, (s.ts.frame + 4) % 2 ^ 32) ∈ t.allocHolds) ∧
    (∀ i : BitVec 16, (s.alloc i.toNat).valid = false → ∃ t, exec (.allocContextFree r 1 false i) s = .next t
      ∧ t.rd F.GE_TBL_STATUS_result = 5 ∧ t.allocs = s.allocs) ∧
    (∀ a : BitVec 16, ∃ t, exec (.allocHoldExpire a) s = .next t ∧ t = { s with allocHolds := t.allocHolds }
      ∧ ∀ h, h ∈ t.allocHolds ↔ h ∈ s.allocHolds ∧ ¬(h.1 = a.toNat ∧ reached s.ts.frame h.2.2.2 = true)) ∧
    (∀ p : Port, s.on F.GE_TREE_CFG_gp_en p = false → ∃ t, exec (.keepClear r p) s = .next t
      ∧ (∀ i, i < 512 → t.ge.keep.get 0 (p * 512 + i) = 0) ∧ t = { s with ge := t.ge, out := t.out, pr := t.pr, pm := t.pm })

/-! ### Grant instructions -/

/-- From R186, R262: a pitch opens with sixteen registers of 18 bits, all 0; a write keeps a register file in form, is read back from its register
and from no other, and register 0 reads 0 and discards what is written to it, in both instruction sets. -/
def Obligations.RegistersReadWhatWasWritten : Prop :=
  (∀ (s : State) (p e target pc : Nat) (late : Bool), (s.newPitch p e late target pc).Formed
    ∧ (∀ r, (s.newPitch p e late target pc).g r = 0)) ∧
  (∀ (x : Pitch) (d r : G4) (v : Nat), x.Formed → (x.put d v).Formed ∧
    (x.put d v).g r = (if r = 0 then 0 else if r = d then v % 2 ^ 18 else x.g r)) ∧
  (∀ (x : Pass) (d r : P5) (v : Nat), x.Formed → (x.putN d.toNat v).Formed ∧
    (x.putN d.toNat v).r r = (if r = 0 then 0 else if r = d then v % 2 ^ 36 else x.r r))

/-- From R190, R194, R195: the sums, differences, products, quotients and extremes, with the flags the table names for each. -/
def Obligations.GrantArithmeticWritesResultAndFlags : Prop :=
  ∀ (s : State) (p : Port) (x : Pitch) (d a b : G4) (imm : GWord), s.Powered → x.Formed →
    (s.Stands p (gR 0x01 0 0 0) x → exec (.grantNop p) s = .next (s.retired p { x with pc := x.pc + 1 })) ∧
    (s.Stands p (gR 0x02 d a b) x → exec (.grantAdd p d a b) s = .next (s.retired p
      (x.after d ((x.g a + x.g b) % 2 ^ 18) (x.pc + 1) (decide (2 ^ 18 ≤ x.g a + x.g b))
        (signedOverflow (signed 18 (x.g a) + signed 18 (x.g b)))))) ∧
    (s.Stands p (gR 0x04 d a b) x → exec (.grantAdc p d a b) s = .next (s.retired p
      (x.after d ((x.g a + x.g b + b2n x.c) % 2 ^ 18) (x.pc + 1) (decide (2 ^ 18 ≤ x.g a + x.g b + b2n x.c))
        (signedOverflow (signed 18 (x.g a) + signed 18 (x.g b) + b2n x.c))))) ∧
    (s.Stands p (gR 0x15 d a b) x → exec (.grantAddq p d a b) s = .next (s.retired p
      (x.after d ((x.g a + sext4 b) % 2 ^ 18) (x.pc + 1) (decide (2 ^ 18 ≤ x.g a + sext4 b))
        (signedOverflow (signed 18 (x.g a) + signed 18 (sext4 b)))))) ∧
    (s.Stands p (gX 0x16 d a imm) x → exec (.grantAddi p d a imm) s = .next (s.retired p
      (x.after d ((x.g a + imm.toNat) % 2 ^ 18) (x.pc + 2) (decide (2 ^ 18 ≤ x.g a + imm.toNat))
        (signedOverflow (signed 18 (x.g a) + signed 18 imm.toNat))))) ∧
    (s.Stands p (gR 0x03 d a b) x → exec (.grantSub p d a b) s = .next (s.retired p
      (x.after d ((x.g a + 2 ^ 18 - x.g b) % 2 ^ 18) (x.pc + 1) (decide (x.g b ≤ x.g a))
        (signedOverflow (signed 18 (x.g a) - signed 18 (x.g b)))))) ∧
    (s.Stands p (gR 0x05 d a b) x → exec (.grantSbc p d a b) s = .next (s.retired p
      (x.after d ((x.g a + 2 ^ 18 - x.g b - b2n !x.c) % 2 ^ 18) (x.pc + 1) (decide (x.g b + b2n (!x.c) ≤ x.g a))
        (signedOverflow (signed 18 (x.g a) - signed 18 (x.g b) - b2n !x.c))))) ∧
    (s.Stands p (gR 0x11 0 a b) x → exec (.grantCmp p a b) s = .next (s.retired p
      (x.after 0 ((x.g a + 2 ^ 18 - x.g b) % 2 ^ 18) (x.pc + 1) (decide (x.g b ≤ x.g a))
        (signedOverflow (signed 18 (x.g a) - signed 18 (x.g b)))))) ∧
    (s.Stands p (gX 0x1B 0 a imm) x → exec (.grantCmpi p a imm) s = .next (s.retired p
      (x.after 0 ((x.g a + 2 ^ 18 - imm.toNat) % 2 ^ 18) (x.pc + 2) (decide (imm.toNat ≤ x.g a))
        (signedOverflow (signed 18 (x.g a) - signed 18 imm.toNat))))) ∧
    (s.Stands p (gR 0x0C d a b) x → exec (.grantMul p d a b) s = .next (s.retired p
      (x.after d (x.g a * x.g b % 2 ^ 18) (x.pc + 1) x.c x.v))) ∧
    (s.Stands p (gR 0x0D d a b) x → exec (.grantMulh p d a b) s = .next (s.retired p
      (x.after d (x.g a * x.g b / 2 ^ 18) (x.pc + 1) x.c x.v))) ∧
    (s.Stands p (gR 0x0E d a b) x → exec (.grantDivu p d a b) s = .next (s.retired p
      (x.after d (if x.g b = 0 then 0x3FFFF else x.g a / x.g b) (x.pc + 1) x.c (decide (x.g b = 0))))) ∧
    (s.Stands p (gR 0x0F d a b) x → exec (.grantMinu p d a b) s = .next (s.retired p
      (x.after d (min (x.g a) (x.g b)) (x.pc + 1) x.c x.v))) ∧
    (s.Stands p (gR 0x10 d a b) x → exec (.grantMaxu p d a b) s = .next (s.retired p
      (x.after d (max (x.g a) (x.g b)) (x.pc + 1) x.c x.v)))

/-- From R190, R194, R195: the logic, the loads of an immediate and the shifts. A shift's C is the last bit shifted out; a shift by 0 leaves C. -/
def Obligations.GrantLogicAndShiftsWriteResultAndFlags : Prop :=
  ∀ (s : State) (p : Port) (x : Pitch) (d a b : G4) (imm : GWord), s.Powered → x.Formed →
    (s.Stands p (gR 0x06 d a b) x → exec (.grantAnd p d a b) s = .next (s.retired p
      (x.after d (x.g a &&& x.g b) (x.pc + 1) x.c x.v))) ∧
    (s.Stands p (gR 0x07 d a b) x → exec (.grantOr p d a b) s = .next (s.retired p
      (x.after d (x.g a ||| x.g b) (x.pc + 1) x.c x.v))) ∧
    (s.Stands p (gR 0x08 d a b) x → exec (.grantXor p d a b) s = .next (s.retired p
      (x.after d (x.g a ^^^ x.g b) (x.pc + 1) x.c x.v))) ∧
    (s.Stands p (gX 0x17 d a imm) x → exec (.grantAndi p d a imm) s = .next (s.retired p
      (x.after d (x.g a &&& imm.toNat) (x.pc + 2) x.c x.v))) ∧
    (s.Stands p (gX 0x18 d a imm) x → exec (.grantOri p d a imm) s = .next (s.retired p
      (x.after d (x.g a ||| imm.toNat) (x.pc + 2) x.c x.v))) ∧
    (s.Stands p (gX 0x19 d a imm) x → exec (.grantXori p d a imm) s = .next (s.retired p
      (x.after d (x.g a ^^^ imm.toNat) (x.pc + 2) x.c x.v))) ∧
    (s.Stands p (gX 0x1A d 0 imm) x → exec (.grantLdi p d imm) s = .next (s.retired p
      (x.after d imm.toNat (x.pc + 2) x.c x.v))) ∧
    (∀ n, n = x.g b % 32 →
      (s.Stands p (gR 0x09 d a b) x → exec (.grantShl p d a b) s = .next (s.retired p
        (x.after d (x.g a * 2 ^ n % 2 ^ 18) (x.pc + 1) (if n = 0 then x.c else bit (x.g a * 2 ^ n) 18) x.v))) ∧
      (s.Stands p (gR 0x0A d a b) x → exec (.grantShr p d a b) s = .next (s.retired p
        (x.after d (x.g a / 2 ^ n) (x.pc + 1) (if n = 0 then x.c else bit (x.g a) (n - 1)) x.v))) ∧
      (s.Stands p (gR 0x0B d a b) x → exec (.grantSra p d a b) s = .next (s.retired p
        (x.after d (wrapTo 18 (signed 18 (x.g a) / (2 ^ n : Int))) (x.pc + 1)
          (if n = 0 then x.c else if n ≤ 18 then bit (x.g a) (n - 1) else bit (x.g a) 17) x.v)))) ∧
    (s.Stands p (gR 0x12 d a b) x → exec (.grantShlq p d a b) s = .next (s.retired p
      (x.after d (x.g a * 2 ^ b.toNat % 2 ^ 18) (x.pc + 1) (if b = 0 then x.c else bit (x.g a * 2 ^ b.toNat) 18) x.v))) ∧
    (s.Stands p (gR 0x13 d a b) x → exec (.grantShrq p d a b) s = .next (s.retired p
      (x.after d (x.g a / 2 ^ b.toNat) (x.pc + 1) (if b = 0 then x.c else bit (x.g a) (b.toNat - 1)) x.v))) ∧
    (s.Stands p (gR 0x14 d a b) x → exec (.grantSraq p d a b) s = .next (s.retired p
      (x.after d (wrapTo 18 (signed 18 (x.g a) / (2 ^ b.toNat : Int))) (x.pc + 1)
        (if b = 0 then x.c else bit (x.g a) (b.toNat - 1)) x.v)))

/-- From R187, R209: time arithmetic, and the data store: reads and writes of the partition, fault 2 outside it; a load whose row
is corrected counts its fault first, one whose row is uncorrectable fences the row and the engine, and one of a row that is being copied
waits (R170, R339, R340, R342).
Where a clause meets a point that the spec leaves to inference it states the model's choice: log entry 52. -/
def Obligations.GrantTimeAndDataStore : Prop :=
  ∀ (s : State) (p : Port) (x : Pitch) (d a b : G4) (imm : GWord), s.Powered → x.Formed →
    (s.Stands p (gR 0x1C d a b) x → exec (.grantQadd p d a b) s = .next (s.retired p
      (x.after d ((x.g a + x.g b - if x.qpf ≤ x.g a + x.g b then x.qpf else 0) % 2 ^ 18) (x.pc + 1)
        (decide (x.qpf ≤ x.g a + x.g b)) (decide (x.qpf ≤ x.g a + x.g b - if x.qpf ≤ x.g a + x.g b then x.qpf else 0))))) ∧
    (s.Stands p (gR 0x1D d a b) x → x.g b ≤ x.g a → exec (.grantQsub p d a b) s = .next (s.retired p
      (x.after d (x.g a - x.g b) (x.pc + 1) false (decide (x.qpf ≤ x.g a - x.g b))))) ∧
    (s.Stands p (gR 0x1D d a b) x → x.g a < x.g b → exec (.grantQsub p d a b) s = .next (s.retired p
      (x.after d (wrapTo 18 ((x.g a : Int) - x.g b + x.qpf)) (x.pc + 1) true (decide (x.g a + x.qpf < x.g b))))) ∧
    (s.Stands p (gR 0x1E d a 0) x → exec (.grantNsq p d a) s = .next (s.retired p
      (x.after d (x.g a * x.qpf / 125000) (x.pc + 1) x.c x.v))) ∧
    (s.Stands p (gR 0x1F d a 0) x → exec (.grantQns p d a) s = .next (s.retired p
      (x.after d (min 0x3FFFF (x.g a * 125000 / x.qpf)) (x.pc + 1) x.c (decide (0x3FFFF < x.g a * 125000 / x.qpf))))) ∧
    (∀ i, (x.g a + imm.toNat) % 2 ^ 18 = i → i < 4096 →
      (s.Stands p (gX 0x20 d a imm) x → exec (.grantLd p d a imm none) s = .next (s.retired p
        { x.put d (x.dsRead i) with pc := x.pc + 2 })) ∧
      (∀ (r : RowRead) (k : Nat), k = rowNo 3 r.macroNo.toNat r.row.toNat → s.Stands p (gX 0x20 d a imm) x →
        (k ∈ s.bm.copying → exec (.grantLd p d a imm (some r)) s = .next s) ∧
        (k ∉ s.bm.copying → k ∉ s.bm.gone →
          (r.errs.dedup.length = 1 ∨ r.errs.dedup.length = 2 → exec (.grantLd p d a imm (some r)) s
            = exec (.grantLd p d a imm none) (s.rowFault 3 r.macroNo.toNat r.row.toNat false 0)) ∧
          (2 < r.errs.dedup.length → exec (.grantLd p d a imm (some r)) s = .next
            (s.afterCmd ((s.rowFault 3 r.macroNo.toNat r.row.toNat true 15).engineFault x.engine true 15))))) ∧
      (s.Stands p (gX 0x21 d a imm) x → exec (.grantSt p d a imm) s = .next (s.retired p
        { x with ds := x.ds.set none i (some (x.g d)), pc := x.pc + 2 }))) ∧
    (∀ i, (x.g a + x.g b) % 2 ^ 18 = i → i < 4096 →
      (s.Stands p (gR 0x22 d a b) x → exec (.grantLdx p d a b none) s = .next (s.retired p
        { x.put d (x.dsRead i) with pc := x.pc + 1 })) ∧
      (∀ (r : RowRead) (k : Nat), k = rowNo 3 r.macroNo.toNat r.row.toNat → k ∉ s.bm.copying → k ∉ s.bm.gone → 2 < r.errs.dedup.length →
        s.Stands p (gR 0x22 d a b) x → exec (.grantLdx p d a b (some r)) s = .next
          (s.afterCmd ((s.rowFault 3 r.macroNo.toNat r.row.toNat true 15).engineFault x.engine true 15))) ∧
      (s.Stands p (gR 0x23 d a b) x → exec (.grantStx p d a b) s = .next (s.retired p
        { x with ds := x.ds.set none i (some (x.g d)), pc := x.pc + 1 }))) ∧
    (∀ i v j, { x with ds := x.ds.set none i (some v) }.dsRead j = if j = i then v else x.dsRead j) ∧
    (∀ mem, x.sealed = false → 4096 ≤ (x.g a + imm.toNat) % 2 ^ 18 →
      (s.Stands p (gX 0x20 d a imm) x → ∃ t, exec (.grantLd p d a imm mem) s = .next t ∧ s.Faulted t p 2 x.pc) ∧
      (s.Stands p (gX 0x21 d a imm) x → ∃ t, exec (.grantSt p d a imm) s = .next t ∧ s.Faulted t p 2 x.pc))

/-- From R196 to R200: rows of the tree read as they stood at the opening, rows of no tree read 0, rows of another tree fault with 3;
reductions over the history, 0 without feature 5; buffered writes; the walk of the sweep list. -/
def Obligations.GrantTablesReadRowsOfTheTree : Prop :=
  ∀ (s : State) (p : Port) (x : Pitch) (d a w : G4), s.Powered → x.Formed →
    (∀ i, x.g a = i → i < 16384 → x.termRowOf i = .tree → w.toNat ≤ 3 →
      (s.Stands p (gR 0x24 d a w) x → exec (.grantTrm p d a w) s = .next (s.retired p { x.put d
        (termWord (x.ctxs.get {} i) (x.pstates.get 0 i) (x.lobis.contains i) w.toNat) with pc := x.pc + 1 })) ∧
      (2 ≤ w.toNat → x.wbuf.length < 1024 → s.Stands p (gR 0x2B d a w) x → exec (.grantTwt p d a w) s
        = .next (s.retired p { x with pc := x.pc + 1, wbuf := x.wbuf
          ++ [⟨false, i, w.toNat, x.g d, (x.ctxs.get {} i).frees⟩] }))) ∧
    (∀ i, x.g a = i → i < 65536 → x.allocRowOf i = .tree →
      (w.toNat ≤ 7 → s.Stands p (gR 0x25 d a w) x → exec (.grantAlc p d a w) s = .next (s.retired p { x.put d
        (allocWord (s.feat 5) (x.allocs.get {} i) w.toNat) with pc := x.pc + 1 })) ∧
      (w.toNat ≤ 1 → s.Stands p (gR 0x26 d a w) x → exec (.grantRpt p d a w) s = .next (s.retired p { x.put d
        (reportWord (x.allocs.get {} i) w.toNat) with pc := x.pc + 1 })) ∧
      (s.Stands p (gR 0x27 d a w) x → exec (.grantHst p d a w) s = .next (s.retired p { x.put d
        (if s.feat 5 then histWord (x.allocs.get {} i) w.toNat else 0) with pc := x.pc + 1 })) ∧
      (s.Stands p (gR 0x28 d a w) x → exec (.grantHsum p d a w) s = .next (s.retired p (x.after d
        (if s.feat 5 then (((x.allocs.get {} i).hist.take (w.toNat + 1)).map (·.2)).sum else 0) (x.pc + 1) x.c x.v))) ∧
      (s.Stands p (gR 0x29 d a w) x → exec (.grantHpeak p d a w) s = .next (s.retired p (x.after d
        (if s.feat 5 then (((x.allocs.get {} i).hist.take (w.toNat + 1)).map (·.2)).foldl max 0 else 0) (x.pc + 1) x.c x.v))) ∧
      (s.Stands p (gR 0x2A d a w) x → exec (.grantHrsum p d a w) s = .next (s.retired p (x.after d
        (if s.feat 5 then (((x.allocs.get {} i).hist.take (w.toNat + 1)).map (·.1)).sum else 0) (x.pc + 1) x.c x.v))) ∧
      ((w.toNat = 6 ∨ w.toNat = 7) → x.wbuf.length < 1024 → s.Stands p (gR 0x2C d a w) x → exec (.grantAwt p d a w) s
        = .next (s.retired p { x with pc := x.pc + 1, wbuf := x.wbuf
          ++ [⟨true, i, w.toNat, x.g d, (x.allocs.get {} i).frees⟩] }))) ∧
    (x.sealed = false → x.termRowOf (x.g a) = .other → x.g a < 16384 → s.Stands p (gR 0x24 d a w) x →
      ∃ t, exec (.grantTrm p d a w) s = .next t ∧ s.Faulted t p 3 x.pc) ∧
    (x.termRowOf (x.g a) = .none → x.g a < 16384 → w.toNat ≤ 3 → s.Stands p (gR 0x24 d a w) x →
      exec (.grantTrm p d a w) s = .next (s.retired p { x.put d 0 with pc := x.pc + 1 })) ∧
    (s.Stands p (gR 0x2D d a w) x → exec (.grantSweep p d a w) s = .next (s.retired p
      { x.put d (x.sweepList).length with sweep := some (w.toNat, x.g a % 8, 0), pc := x.pc + 1 })) ∧
    (1 ≤ d.toNat → d.toNat ≤ 12 → s.Stands p (gR 0x2E d 0 0) x →
      (∀ mode plim cur c rest, x.sweep = some (mode, plim, cur) → (x.sweepList).drop cur = c :: rest →
        x.filtered c mode plim = false → ∃ y, exec (.grantNext p d) s = .next (s.retired p y) ∧ y.z = false
          ∧ y.sweep = some (mode, plim, cur + 1) ∧ y.pc = x.pc + 1 ∧ y.g d = c % 2 ^ 18
          ∧ y.regs.getD (d.toNat + 1) 0 = (x.allocs.get {} c).occ % 2 ^ 18) ∧
      (∀ mode plim cur, x.sweep = some (mode, plim, cur) → (x.sweepList).length ≤ cur →
        ∃ y, exec (.grantNext p d) s = .next (s.retired p y) ∧ y.z = true ∧ y.g d = 0x3FFFF ∧ y.pc = x.pc + 1) ∧
      (x.sealed = false → x.sweep = none → ∃ t, exec (.grantNext p d) s = .next t ∧ s.Faulted t p 10 x.pc))

/-- From R201 to R207: emit and gate write structures until the map holds 1,024, recall fixes a profile, ddesc reads and win places a
discovery window, cal asks for a calibration window, ovh gives the overhead of a burst.
Where a clause meets a point that the spec leaves to inference it states the model's choice: log entries 39 and 124. -/
def Obligations.GrantMapInstructionsFillTheDraft : Prop :=
  ∀ (s : State) (p : Port) (x : Pitch) (d a b : G4), s.Powered → x.Formed →
    (∀ c odd, c = x.g d % 65536 → x.allocRowOf c = .tree → x.sealed = false →
      odd = (x.shared && (x.ctxs.get {} (x.allocs.get {} c).term).port != p.val) →
      (x.g b ≠ 0 → x.draft.filled odd < 1024 →
        (s.Stands p (gR 0x30 d a b) x → exec (.grantEmit p d a b) s = .next (s.retired p { x with
          pc := x.pc + 1, z := false, v := false, draft := { x.draft with structs := x.draft.structs ++ [(c, x.g a, x.g b, x.g d / 65536, false, odd)] } })) ∧
        (s.feat 4 = true → s.Stands p (gR 0x31 d a b) x → exec (.grantGate p d a b) s = .next (s.retired p { x with
          pc := x.pc + 1, z := false, v := false, draft := { x.draft with structs := x.draft.structs ++ [(c, x.g a, x.g b, x.g d / 65536, true, odd)] } }))) ∧
      (x.g b = 0 → s.Stands p (gR 0x30 d a b) x → exec (.grantEmit p d a b) s
        = .next (s.retired p { x with pc := x.pc + 1, z := true, v := false })) ∧
      (x.g b ≠ 0 → 1024 ≤ x.draft.filled odd → s.Stands p (gR 0x30 d a b) x → exec (.grantEmit p d a b) s
        = .next (s.retired p { x with pc := x.pc + 1, z := false, v := true }))) ∧
    (x.sealed = false → b.toNat ≤ 2 → s.Stands p (gR 0x32 0 a b) x → exec (.grantRecall p a b) s = .next (s.retired p
      { x with pc := x.pc + 1, draft := { x.draft with
        recalls := x.draft.recalls.filter (fun r => r.1 != x.g a % 16384) ++ [(x.g a % 16384, b.toNat)] } })) ∧
    (1 ≤ d.toNat → d.toNat ≤ 12 → b.toNat ≤ 3 → s.Stands p (gR 0x33 d 0 b) x → ∃ y, exec (.grantDdesc p d b) s
      = .next (s.retired p y) ∧ y.g d = (x.draft.descs.getD b.toNat {}).kind % 2 ^ 18
        ∧ y.regs.getD (d.toNat + 3) 0 = (x.draft.descs.getD b.toNat {}).width % 2 ^ 18
        ∧ y.z = ((x.draft.descs.getD b.toNat {}).kind == 0) ∧ y.pc = x.pc + 1) ∧
    (x.sealed = false → b.toNat ≤ 3 → s.Stands p (gR 0x34 0 a b) x →
      ((x.draft.descs.getD b.toNat {}).kind = 0 → exec (.grantWin p a b) s
        = .next (s.retired p { x with pc := x.pc + 1, z := true })) ∧
      ((x.draft.descs.getD b.toNat {}).kind ≠ 0 → exec (.grantWin p a b) s = .next (s.retired p { x with
          pc := x.pc + 1, z := false, draft := { x.draft with wins := x.draft.wins.filter (fun w => w.1 != b.toNat) ++ [(b.toNat, x.g a)] } }))) ∧
    (x.sealed = false → s.Stands p (gR 0x35 0 a b) x →
      (x.draft.cals.length < 4 → exec (.grantCal p a b) s = .next (s.retired p { x with
          pc := x.pc + 1, v := false, draft := { x.draft with cals := x.draft.cals ++ [(x.g a, x.g b)] } })) ∧
      (4 ≤ x.draft.cals.length → exec (.grantCal p a b) s = .next (s.retired p { x with pc := x.pc + 1, v := true }))) ∧
    (∀ t q, t = x.g a % 16384 → q = (x.ctxs.get {} t).port →
      (s.Stands p (gR 0x2F d a 1) x → exec (.grantOvh p d a 1) s = .next (s.retired p
        { x.put d (s.overheadOn p (if x.shared && x.ports.contains q then q else p) false) with pc := x.pc + 1 })) ∧
      (s.Stands p (gR 0x2F d a 0) x → exec (.grantOvh p d a 0) s = .next (s.retired p
        { x.put d (s.overheadOn p (if x.shared && x.ports.contains q then q else p)
          (!x.draft.recalls.any (fun r => r.1 == t && r.2 == 1) && x.pstates.get 0 t == 2 && s.feat 2)) with pc := x.pc + 1 })))

/-- From R188, R189, R191, R208, R210 to R212: seal hands the draft to the map builder, yield ends a sealed pitch and faults with 7 before,
mfs reads the registers of the opening, the time left and the structures written, branches follow their condition, calls and returns their stack; an illegal word faults with 1,
none once the deadline has fallen. -/
def Obligations.GrantSealYieldAndControl : Prop :=
  ∀ (s : State) (p : Port) (x : Pitch) (d a : G4), s.Powered → x.Formed →
    (x.sealed = false → s.Stands p (gR 0x36 0 0 0) x → ∃ t, exec (.grantSeal p) s = .next t
      ∧ (t.tree p).draft = some x.draft ∧ (t.tree p).pitch = some { x with pc := x.pc + 1, sealed := true, count := x.count + 1 }
      ∧ t.rd F.GE_TREE_BUDGET_instr p = sat 0xFFFF (x.count + 1)) ∧
    (x.sealed = true → s.Stands p (gR 0x37 0 0 0) x → ∃ t, exec (.grantYield p) s = .next t ∧ (t.tree p).pitch = none
      ∧ t.rd F.GE_TREE_STATUS_last_reason p = 0) ∧
    (x.sealed = false → s.Stands p (gR 0x37 0 0 0) x → ∃ t, exec (.grantYield p) s = .next t ∧ s.Faulted t p 7 x.pc) ∧
    (x.sealed = true → s.Stands p (gR 0x36 0 0 0) x → ∃ t, exec (.grantSeal p) s = .next t ∧ (t.tree p).pitch = none
      ∧ t.rd F.GE_TREE_FAULT_code p = 6 ∧ (t.tree p).draft = (s.tree p).draft) ∧
    (∀ sel : BitVec 8, sel.toNat ≤ 0x11 → sel ≠ 0x08 → sel ≠ 0x0A → sel ≠ 0x0B → s.Stands p (gS 0x38 d sel) x →
      exec (.grantMfs p d sel) s = .next (s.retired p { x.put d (x.mfs.getD sel.toNat 0) with pc := x.pc + 1 })) ∧
    (s.Stands p (gS 0x38 d 0x08) x → exec (.grantMfs p d 0x08) s = .next (s.retired p
      { x.put d (min 0x3FFFF ((x.deadline - s.ts.run) / (10 * 2 ^ 40))) with pc := x.pc + 1 })) ∧
    (s.Stands p (gS 0x38 d 0x0A) x → exec (.grantMfs p d 0x0A) s = .next (s.retired p
      { x.put d (x.draft.count false) with pc := x.pc + 1 })) ∧
    (s.Stands p (gS 0x38 d 0x0B) x → exec (.grantMfs p d 0x0B) s = .next (s.retired p
      { x.put d (x.draft.count true) with pc := x.pc + 1 })) ∧
    (∀ off : BitVec 8, s.Stands p (gB 0x39 d off) x →
      (x.cond d = some false → exec (.grantBrs p d off) s = .next (s.retired p { x with pc := x.pc + 1 })) ∧
      (∀ n : Nat, x.cond d = some true → (x.pc + 1 : Int) + signed 8 off.toNat = n → n < x.len →
        exec (.grantBrs p d off) s = .next (s.retired p { x with pc := n })) ∧
      (x.sealed = false → x.cond d = some true → (x.pc + 1 : Int) + signed 8 off.toNat < 0 →
        ∃ t, exec (.grantBrs p d off) s = .next t ∧ s.Faulted t p 8 x.pc)) ∧
    (∀ n : BitVec 14, s.Stands p (gL 0x3A d n) x →
      (x.cond d = some false → exec (.grantBr p d n) s = .next (s.retired p { x with pc := x.pc + 2 })) ∧
      (x.cond d = some true → n.toNat < x.len → exec (.grantBr p d n) s = .next (s.retired p { x with pc := n.toNat }))) ∧
    (∀ n : BitVec 14, s.Stands p (gL 0x3B 0 n) x → n.toNat < x.len → x.stack.length < 16 →
      exec (.grantCall p n) s = .next (s.retired p { x with pc := n.toNat, stack := (x.pc + 2) :: x.stack })) ∧
    (∀ n rest, s.Stands p (gR 0x3C 0 0 0) x → x.stack = n :: rest → n < x.len →
      exec (.grantRet p) s = .next (s.retired p { x with pc := n, stack := rest })) ∧
    (x.sealed = false → x.stack = [] → s.Stands p (gR 0x3C 0 0 0) x →
      ∃ t, exec (.grantRet p) s = .next t ∧ s.Faulted t p 9 x.pc) ∧
    (x.g a < 2 ^ 14 → x.g a < x.len → s.Stands p (gR 0x3D 0 a 0) x →
      exec (.grantJr p a) s = .next (s.retired p { x with pc := x.g a })) ∧
    ((s.tree p).pitch = some x → x.sealed = false → x.pc < x.len → s.ts.run < x.deadline →
      s.illegalWord (s.imageWord x.bank x.pc) (s.imageWord x.bank (x.pc + 1)) = true →
      ∃ t, exec (.grantIllegalInstruction p) s = .next t ∧ s.Faulted t p 1 x.pc) ∧
    ((s.tree p).pitch = some x → x.deadline ≤ s.ts.run → exec (.grantIllegalInstruction p) s = .next s)

/-! ### Queues, shaping, gates -/

/-- From R234, R258, R259: the rows of the scheduler's tables as the owner reads and writes them, and the refusals 7, 2, 8, 4; the status and
the flush of a queue.
Where a clause meets a point that the spec leaves to inference it states the model's choice: log entries 29 and 35. -/
def Obligations.QueueTableCommands : Prop :=
  ∀ (s : State) (r : Requester) (table : BitVec 4) (idx : BitVec 17) (n row : Nat), s.Powered → s.Owner r → s.blkDown 6 = false →
    s.on F.QS_CMD_STATUS_busy = false → table.toNat = n → idx.toNat = row →
    (9 ≤ n → ∃ t, exec (.qsRowRead r table idx) s = .next t ∧ t = { s with rf := t.rf } ∧ t.rd F.QS_CMD_STATUS_result = 7) ∧
    (n < 9 → (qsTable n).1 ≤ row → ∃ t, exec (.qsRowWrite r table idx) s = .next t ∧ t = { s with rf := t.rf }
      ∧ t.rd F.QS_CMD_STATUS_result = 2) ∧
    (n < 9 → row < (qsTable n).1 → ∃ t, exec (.qsRowRead r table idx) s = .next t ∧ t = { s with rf := t.rf }
      ∧ t.rd F.QS_CMD_STATUS_result = 0 ∧ (∀ i < 8, t.rd F.QS_DATA_word i = s.qw n row i % 2 ^ 18)) ∧
    (n = 5 → row < 4096 → (s.gen .shapers).ret = none → qsInvalid 5 row (s.qsWords 5) = false →
      ∃ t, exec (.qsRowWrite r table idx) s = .next t ∧ t.rd F.QS_CMD_STATUS_result = 0 ∧ (t.gen .shapers).staged = true
        ∧ t.qs.profiles = s.qs.profiles ∧ (∀ i < 4, t.qw 5 row i = (s.qsWords 5).getD i 0)
        ∧ (∀ k w i, i < 8 → k ≠ row → t.qw 5 k i = s.qw 5 k i ∧ (w ≠ 5 → t.qw w row i = s.qw w row i))) ∧
    (n = 5 → row < 4096 → (s.gen .shapers).ret ≠ none → ∃ t, exec (.qsRowWrite r table idx) s = .next t
      ∧ t = { s with rf := t.rf } ∧ t.rd F.QS_CMD_STATUS_result = 8) ∧
    (n = 5 → row = 0 → (s.gen .shapers).ret = none → ∃ t, exec (.qsRowWrite r table idx) s = .next t
      ∧ t = { s with rf := t.rf } ∧ t.rd F.QS_CMD_STATUS_result = 4) ∧
    (n < 9 → row < (qsTable n).1 → row < 65536 → ∃ t, exec (.qsQueueStatus r table idx) s = .next t ∧ t = { s with rf := t.rf }
      ∧ t.rd F.QS_DATA_word 0 = (s.queueAt row).depth % 2 ^ 18 ∧ t.rd F.QS_CMD_STATUS_result = 0) ∧
    (n < 9 → row < (qsTable n).1 → row < 65536 → bit (s.qw 0 row 0) 17 = false → ∃ t, exec (.qsFlush r table idx) s = .next t
      ∧ (t.queueAt row).chip = [] ∧ (t.queueAt row).fetch = [] ∧ (t.queueAt row).deep = []
      ∧ t.rd F.QS_CMD_STATUS_result = 0) ∧
    (n < 9 → row < (qsTable n).1 → row < 65536 → bit (s.qw 0 row 0) 17 = true → ∃ t, exec (.qsFlush r table idx) s = .next t
      ∧ t = { s with rf := t.rf } ∧ t.rd F.QS_CMD_STATUS_result = 4)

/-- From R237, R243 to R246, R250 to R255, R537: a bucket update credits what has passed up to the size of its profile; lists start and end at
their instants with their event; an egress whose turn it is sends the head packet of the queue it chooses: an uplink or rope port whole, a
tree port in an XGEM frame under the Port-ID and the key index of its context (R58 to R60), or discards it for want of a key (R62).
Where a clause meets a point that the spec leaves to inference it states the model's choice: log entries 27 and 28. -/
def Obligations.BucketsGatesAndEgresses : Prop :=
  ∀ (s : State), s.Powered → s.blkDown 6 = false →
    (∀ (i : BitVec 16) (b : Bucket), s.bucket 4 i.toNat = b → b.profile ≠ 0 → s.profileOf 4 i.toNat = b.profile →
      s.profileAt b.profile = (b.rate, b.cbs) → ∃ t, exec (.bucketUpdate (.queue i)) s = .next t
        ∧ t.bucket 4 i.toNat = { b with b := min (b.b + ((s.runNs - b.last) * b.rate : Nat)) (b.cbs * 2 ^ 24 : Nat), last := s.runNs }
        ∧ (∀ j, j ≠ nodeKey 4 i.toNat → t.qs.buckets.get {} j = s.qs.buckets.get {} j)) ∧
    (∀ (l : BitVec 8) (st : Int), (s.gate l.toNat).start = some st → (s.gate l.toNat).cur.cycle ≠ 0 →
      (s.gate l.toNat).started = false → (s.gate l.toNat).old = none → st ≤ s.absNs →
      ∃ t, exec (.gateListStart l) s = .next t ∧ t.gate l.toNat = { s.gate l.toNat with started := true }
        ∧ t.rd F.QS_GATE_ACTUAL_start_ns l.toNat = wrapTo 32 st) ∧
    (∀ l : BitVec 8, (s.gate l.toNat).start = none → ∃ t, exec (.gateListStart l) s = .next t ∧ t = s) ∧
    (∀ (l : BitVec 8) (o : GList) (st e : Int), (s.gate l.toNat).old = some (o, st, e) → e ≤ s.absNs →
      (s.gate l.toNat).cur.cycle = 0 → ∃ t, exec (.oldCycleEnd l) s = .next t ∧ (t.gate l.toNat).old = none
        ∧ (t.gate l.toNat).cur = (s.gate l.toNat).cur) ∧
    (∀ l : BitVec 8, ∃ t, exec (.gateEntryChange l) s = .next t ∧ t.qs.gates = s.qs.gates ∧ t.qs.tab = s.qs.tab
      ∧ t.qs.buckets = s.qs.buckets ∧ t.qs.profiles = s.qs.profiles) ∧
    (∀ (e : Fin 98) (v u : State) (q : Nat) (k : Pkt) (rest : List Pkt), v = (if e.val < 64 then s.fillIdle e else s) → u = v.settle e →
      (v.pulling e = false → exec (.egressPull e) s = .next v) ∧
      (v.pulling e = true → u.choose e = some q → (u.queueAt q).chip = k :: rest → u.cellsWait k.cells = false →
        u.chainBad k = false → u.poisoned k = false →
        (64 ≤ e.val → ∃ t, exec (.egressPull e) s = .next t ∧ Out.packet e k.bytes ∈ t.out) ∧
        (e.val < 64 → ∀ i, s.xgKey e k.xgem = some i → ∃ t f, exec (.egressPull e) s = .next t
          ∧ (t.port e).body = (s.port e).body ++ [f] ∧ f.portId = s.xgPortId k.xgem ∧ f.keyIndex = i) ∧
        (e.val < 64 → s.xgKey e k.xgem = none → ∃ t, exec (.egressPull e) s = .next t ∧ (t.port e).body = (s.port e).body
          ∧ t.tpHas e 2 = true)))

/-! ### Parse stage -/

/-- From R269 to R271: the arithmetic, logic and shifts of the parse instructions, with the flags the table names for each. -/
def Obligations.ParseArithmeticWritesResultAndFlags : Prop :=
  ∀ (s : State) (pid : Nat) (k : Work) (x : Pass) (d a b : P5) (imm : BitVec 20) (u v n : Nat), s.Powered → x.Formed →
    x.r a = u → x.r b = v → v % 64 = n →
    (s.Ready pid (pR 0x01 0 0 0) [] k x → exec (.parseNop pid) s = .next (s.went k x.past)) ∧
    (s.Ready pid (pR 0x02 d.toNat a.toNat b.toNat) [d.toNat, a.toNat, b.toNat] k x → exec (.parseAdd pid d a b) s = .next (s.went k
      (x.after d ((u + v) % 2 ^ 36) (decide (2 ^ 36 ≤ u + v)) (signedOverflow36 (signed 36 u + signed 36 v))))) ∧
    (s.Ready pid (pR 0x03 d.toNat a.toNat b.toNat) [d.toNat, a.toNat, b.toNat] k x → exec (.parseSub pid d a b) s = .next (s.went k
      (x.after d ((u + 2 ^ 36 - v) % 2 ^ 36) (decide (v ≤ u)) (signedOverflow36 (signed 36 u - signed 36 v))))) ∧
    (s.Ready pid (pR 0x0A 0 a.toNat b.toNat) [0, a.toNat, b.toNat] k x → exec (.parseCmp pid a b) s = .next (s.went k
      (x.after 0 ((u + 2 ^ 36 - v) % 2 ^ 36) (decide (v ≤ u)) (signedOverflow36 (signed 36 u - signed 36 v))))) ∧
    (s.Ready pid (pR 0x04 d.toNat a.toNat b.toNat) [d.toNat, a.toNat, b.toNat] k x → exec (.parseAnd pid d a b) s
      = .next (s.went k (x.after d (u &&& v) x.c x.v))) ∧
    (s.Ready pid (pR 0x05 d.toNat a.toNat b.toNat) [d.toNat, a.toNat, b.toNat] k x → exec (.parseOr pid d a b) s
      = .next (s.went k (x.after d (u ||| v) x.c x.v))) ∧
    (s.Ready pid (pR 0x06 d.toNat a.toNat b.toNat) [d.toNat, a.toNat, b.toNat] k x → exec (.parseXor pid d a b) s
      = .next (s.went k (x.after d (u ^^^ v) x.c x.v))) ∧
    (s.Ready pid (pR 0x07 d.toNat a.toNat b.toNat) [d.toNat, a.toNat, b.toNat] k x → exec (.parseShl pid d a b) s = .next (s.went k
      (x.after d (u * 2 ^ n % 2 ^ 36) (if n = 0 then x.c else bit (u * 2 ^ n) 36) x.v))) ∧
    (s.Ready pid (pR 0x08 d.toNat a.toNat b.toNat) [d.toNat, a.toNat, b.toNat] k x → exec (.parseShr pid d a b) s = .next (s.went k
      (x.after d (u / 2 ^ n) (if n = 0 then x.c else bit u (n - 1)) x.v))) ∧
    (s.Ready pid (pR 0x09 d.toNat a.toNat b.toNat) [d.toNat, a.toNat, b.toNat] k x → exec (.parseSra pid d a b) s = .next (s.went k
      (x.after d (wrapTo 36 (signed 36 u / (2 ^ n : Int))) (if n = 0 then x.c else bit u (min (n - 1) 35)) x.v))) ∧
    (s.Ready pid (pR 0x0B d.toNat a.toNat b.toNat) [d.toNat, a.toNat, b.toNat] k x → exec (.parseMin pid d a b) s
      = .next (s.went k (x.after d (min u v) x.c x.v))) ∧
    (s.Ready pid (pR 0x0C d.toNat a.toNat b.toNat) [d.toNat, a.toNat, b.toNat] k x → exec (.parseMax pid d a b) s
      = .next (s.went k (x.after d (max u v) x.c x.v))) ∧
    (s.Ready pid (pR 0x0D d.toNat a.toNat b.toNat) [d.toNat, a.toNat, b.toNat] k x → exec (.parseMul pid d a b) s
      = .next (s.went k (x.after d (u * v % 2 ^ 36) x.c x.v))) ∧
    (s.Ready pid (pI 0x0E d.toNat a.toNat imm.toNat) [d.toNat, a.toNat] k x → exec (.parseAddi pid d a imm) s = .next (s.went k
      (x.after d ((u + sext20 imm) % 2 ^ 36) (decide (2 ^ 36 ≤ u + sext20 imm)) (signedOverflow36 (signed 36 u + imm.toInt))))) ∧
    (s.Ready pid (pI 0x12 0 a.toNat imm.toNat) [0, a.toNat] k x → exec (.parseCmpi pid a imm) s = .next (s.went k
      (x.after 0 ((u + 2 ^ 36 - sext20 imm) % 2 ^ 36) (decide (sext20 imm ≤ u)) (signedOverflow36 (signed 36 u - imm.toInt))))) ∧
    (s.Ready pid (pI 0x0F d.toNat a.toNat imm.toNat) [d.toNat, a.toNat] k x → exec (.parseAndi pid d a imm) s
      = .next (s.went k (x.after d (u &&& imm.toNat) x.c x.v))) ∧
    (s.Ready pid (pI 0x10 d.toNat a.toNat imm.toNat) [d.toNat, a.toNat] k x → exec (.parseOri pid d a imm) s
      = .next (s.went k (x.after d (u ||| imm.toNat) x.c x.v))) ∧
    (s.Ready pid (pI 0x11 d.toNat a.toNat imm.toNat) [d.toNat, a.toNat] k x → exec (.parseXori pid d a imm) s
      = .next (s.went k (x.after d (u ^^^ imm.toNat) x.c x.v))) ∧
    (s.Ready pid (pI 0x13 d.toNat 0 imm.toNat) [d.toNat, 0] k x → exec (.parseLdi pid d imm) s
      = .next (s.went k (x.after d imm.toNat x.c x.v))) ∧
    (s.Ready pid (pI 0x14 d.toNat 0 imm.toNat) [d.toNat] k x → exec (.parseLdu pid d imm) s
      = .next (s.went k (x.after d (imm.toNat * 2 ^ 20 + x.r d % 2 ^ 20) x.c x.v))) ∧
    (s.Ready pid (pI 0x15 d.toNat a.toNat imm.toNat) [d.toNat, a.toNat] k x → exec (.parseShli pid d a imm) s = .next (s.went k
      (x.after d (u * 2 ^ imm.toNat % 2 ^ 36) (if imm = 0 then x.c else bit (u * 2 ^ imm.toNat) 36) x.v))) ∧
    (s.Ready pid (pI 0x16 d.toNat a.toNat imm.toNat) [d.toNat, a.toNat] k x → exec (.parseShri pid d a imm) s = .next (s.went k
      (x.after d (u / 2 ^ imm.toNat) (if imm = 0 then x.c else bit u (imm.toNat - 1)) x.v)))

/-- From R267, R271 to R275: bit fields, the head window and its cursor, special registers; a hash and a lookup go out, not more than four at a time, and a
lookup of a table that is undefined, of another width, of the spread table or while the table block is down has its answer at once; every lookup ends with its reply, with status 2 while the table block is down; branches, calls and returns.
Where a clause meets a point that the spec leaves to inference it states the model's choice: log entry 31. -/
def Obligations.ParseFieldsLookupsAndControl : Prop :=
  ∀ (s : State) (pid : Nat) (k : Work) (x : Pass) (d a : P5) (off : BitVec 14) (w1 : BitVec 6), s.Powered → x.Formed →
    (s.Ready pid (pE 0x17 d.toNat a.toNat off.toNat w1.toNat) [d.toNat, a.toNat] k x → exec (.parseBfx pid d a off w1) s
      = .next (s.went k (x.after d (x.r a / 2 ^ off.toNat % 2 ^ (w1.toNat + 1)) x.c x.v))) ∧
    (s.Ready pid (pE 0x18 d.toNat a.toNat off.toNat w1.toNat) [d.toNat, a.toNat] k x → ∃ v, exec (.parseBfi pid d a off w1) s
      = .next (s.went k (x.after d v x.c x.v)) ∧ ∀ i < 36, bit v i = if off.toNat ≤ i ∧ i ≤ off.toNat + w1.toNat
        then bit (x.r a) (i - off.toNat) else bit (x.r d) i) ∧
    (s.Ready pid (pE 0x19 d.toNat a.toNat off.toNat w1.toNat) [d.toNat, a.toNat] k x → exec (.parseExt pid d a off w1) s
      = .next (s.went k { x.after d (k.extract ((x.cur + x.r a) * 8 + off.toNat) (w1.toNat + 1)) x.c x.v with
        x := decide (k.lim * 8 < (x.cur + x.r a) * 8 + off.toNat + (w1.toNat + 1)) })) ∧
    (∀ imm : BitVec 20, s.Ready pid (pI 0x1A 0 a.toNat imm.toNat) [a.toNat] k x → exec (.parseAdv pid a imm) s
      = .next (s.went k { x.past with
        cur := min k.lim (x.cur + x.r a + imm.toNat), x := decide (k.lim < x.cur + x.r a + imm.toNat) })) ∧
    (∀ sel : BitVec 20, sel.toNat ≤ 6 → s.Ready pid (pI 0x1B d.toNat 0 sel.toNat) [d.toNat] k x → exec (.parseMfs pid d sel) s
      = .next (s.went k (x.past.putN d.toNat
          ([x.cur, k.origin, k.passNo, k.pkt.pgen, k.pkt.rgen, x.core, x.thread].getD sel.toNat 0)))) ∧
    (∀ (n1 : BitVec 3) (sym : Bool),
      s.Ready pid (pK 0x1C d.toNat a.toNat 0 n1.toNat (b2n sym)) (lookUses d a (n1.toNat + 1) 1) k x →
      (4 ≤ x.looks.length → exec (.parseHsh pid d a n1 sym) s = .next s) ∧
      (x.looks.length < 4 → exec (.parseHsh pid d a n1 sym) s = .next (s.went k { x.past with
        looks := x.looks ++ [⟨d.toNat, 2, 0, x.key a (n1.toNat + 1), [hashOf (x.key a (n1.toNat + 1)) sym]⟩] }))) ∧
    (∀ (n1 : BitVec 3) (tbl : BitVec 4) (key : List Nat), x.key a (n1.toNat + 1) = key →
      (s.Ready pid (pK 0x1D d.toNat a.toNat tbl.toNat n1.toNat 0) (lookUses d a (n1.toNat + 1) 3) k x →
        (4 ≤ x.looks.length → exec (.parseLkx pid d a tbl n1) s = .next s) ∧
        (x.looks.length < 4 → s.blkDown 5 = true → exec (.parseLkx pid d a tbl n1) s = .next (s.went k { x.past with
          looks := x.looks ++ [⟨d.toNat, 2, tbl.toNat, key, lookStatus 2⟩] })) ∧
        (x.looks.length < 4 → s.blkDown 5 = false → tbl.toNat = 15 → n1 = 0 →
          exec (.parseLkx pid d a tbl n1) s = .next (s.went k { x.past with
            looks := x.looks ++ [⟨d.toNat, 2, tbl.toNat, key, s.spreadLookup (key.headD 0)⟩] })) ∧
        (x.looks.length < 4 → s.blkDown 5 = false → tbl.toNat < 15 → s.descValid (descRow false tbl.toNat) = true →
          s.descN (descRow false tbl.toNat) = n1.toNat + 1 → exec (.parseLkx pid d a tbl n1) s = .next (s.went k { x.past with
            looks := x.looks ++ [⟨d.toNat, 0, tbl.toNat, key, []⟩] })) ∧
        (x.looks.length < 4 → s.blkDown 5 = false → (tbl.toNat = 15 ∧ n1 ≠ 0) ∨ (tbl.toNat < 15 ∧
          (s.descValid (descRow false tbl.toNat) = false ∨ s.descN (descRow false tbl.toNat) ≠ n1.toNat + 1)) →
          ∃ t, exec (.parseLkx pid d a tbl n1) s = .next t ∧ t = { s with pc := t.pc, rf := t.rf } ∧ t.pc.work = (s.went k { x.past with
            looks := x.looks ++ [⟨d.toNat, 2, tbl.toNat, key, lookStatus 1⟩] }).pc.work)) ∧
      (s.Ready pid (pK 0x1E d.toNat a.toNat tbl.toNat n1.toNat 0) (lookUses d a (n1.toNat + 1) 3) k x →
        (4 ≤ x.looks.length → exec (.parseLkt pid d a tbl n1) s = .next s) ∧
        (x.looks.length < 4 → s.blkDown 5 = true → exec (.parseLkt pid d a tbl n1) s = .next (s.went k { x.past with
          looks := x.looks ++ [⟨d.toNat, 2, tbl.toNat, key, lookStatus 2⟩] })) ∧
        (x.looks.length < 4 → s.blkDown 5 = false → s.descValid (descRow true tbl.toNat) = true →
          s.descN (descRow true tbl.toNat) = n1.toNat + 1 → exec (.parseLkt pid d a tbl n1) s = .next (s.went k { x.past with
            looks := x.looks ++ [⟨d.toNat, 1, tbl.toNat, key, []⟩] })) ∧
        (x.looks.length < 4 → s.blkDown 5 = false → s.descValid (descRow true tbl.toNat) = false ∨
          s.descN (descRow true tbl.toNat) ≠ n1.toNat + 1 →
          ∃ t, exec (.parseLkt pid d a tbl n1) s = .next t ∧ t = { s with pc := t.pc, rf := t.rf } ∧ t.pc.work = (s.went k { x.past with
            looks := x.looks ++ [⟨d.toNat, 2, tbl.toNat, key, lookStatus 1⟩] }).pc.work))) ∧
    (∀ (i : Nat) (l : Look) (rd : LookRead), s.work pid = some k → k.run = some x → x.looks[i]? = some l →
      (∀ v, l.kind = 2 → l.res = [v] →
        exec (.lookupReply pid i rd) s = .next (s.went k { x.putN l.dst v with looks := x.looks.eraseIdx i })) ∧
      (l.kind ≠ 2 → s.rowWaits 5 rd.macroNo.toNat rd.row.toNat = true → exec (.lookupReply pid i rd) s = .next s) ∧
      (l.kind ≠ 2 → s.rowWaits 5 rd.macroNo.toNat rd.row.toNat = false → ∃ t n y, exec (.lookupReply pid i rd) s = .next t
        ∧ t.work pid = some n ∧ n.run = some y ∧ y.looks = x.looks.eraseIdx i ∧ y.pc = x.pc ∧ y.cur = x.cur
        ∧ (s.blkDown 5 = true → l.dst + 2 < 32 → l.dst ≠ 0 → y.rN l.dst = (lookStatus 2).headD 0))) ∧
    (∀ (c : G4) (t : BitVec 12), s.Ready pid (pB 0x1F c.toNat t.toNat) [] k x →
      (x.cond c = false → exec (.parseBr pid c t) s = .next (s.went k x.past)) ∧
      (x.cond c = true → t.toNat < (s.parseGen k.pkt.pgen).len → exec (.parseBr pid c t) s
        = .next (s.went k { x.past with pc := t.toNat })) ∧
      (x.cond c = true → (s.parseGen k.pkt.pgen).len ≤ t.toNat → ∃ u, exec (.parseBr pid c t) s = .next u
        ∧ u.ParseFaulted pid 5 x.pc)) ∧
    (∀ t : BitVec 12, s.Ready pid (pB 0x20 0 t.toNat) [] k x →
      (t.toNat < (s.parseGen k.pkt.pgen).len → x.stack.length < 4 →
        exec (.parseCall pid t) s = .next (s.went k { x.past with pc := t.toNat, stack := (x.pc + 1) :: x.stack })) ∧
      (4 ≤ x.stack.length → ∃ u, exec (.parseCall pid t) s = .next u ∧ u.ParseFaulted pid 4 x.pc) ∧
      ((s.parseGen k.pkt.pgen).len ≤ t.toNat → x.stack.length < 4 → ∃ u, exec (.parseCall pid t) s = .next u ∧ u.ParseFaulted pid 5 x.pc)) ∧
    (∀ n rest, s.Ready pid (pR 0x21 0 0 0) [] k x → x.stack = n :: rest →
      (n < (s.parseGen k.pkt.pgen).len → exec (.parseRet pid) s = .next (s.went k { x.past with pc := n, stack := rest })) ∧
      ((s.parseGen k.pkt.pgen).len ≤ n → ∃ u, exec (.parseRet pid) s = .next u ∧ u.ParseFaulted pid 5 x.pc)) ∧
    (s.Ready pid (pR 0x21 0 0 0) [] k x → x.stack = [] → ∃ u, exec (.parseRet pid) s = .next u ∧ u.ParseFaulted pid 4 x.pc)

/-- From R35, R37, R275 to R280: a verdict ends the pass and leaves p8 to p15 and the cursor; the oldest packet of a place commits:
it leaves the stage, goes to its queue, or comes round again, and waits without a verdict; where the block that it asks is down its request is
withdrawn and made again once that is up, a second time the packet is dropped; faults end the pass with the exception of reason 0, that of the
hold time once hold_max has passed.
Where a clause meets a point that the spec leaves to inference it states the model's choice: log entries 36 and 119. -/
def Obligations.VerdictsEndPassesAndCommit : Prop :=
  ∀ (s : State) (pid : Nat) (k : Work) (x : Pass) (imm : BitVec 15), s.Powered → x.Formed →
    (x.looks = [] →
      (∀ a b, s.Ready pid (pV 0x22 a.toNat b.toNat imm.toNat) [] k x → ∃ t, exec (.parseEnq pid a b imm) s = .next t
        ∧ t.work pid = some { k with run := none, carry := (x.regs.drop 8).take 8, cursor := x.cur,
                                     verdict := some (.enq (x.r a % 2 ^ 16) (x.r b % 2 ^ 17) (bit imm.toNat 0)) }) ∧
      (s.Ready pid (pV 0x23 0 0 imm.toNat) [] k x → ∃ t, exec (.parseDrp pid imm) s = .next t
        ∧ (t.work pid).bind (·.verdict) = some (.drp imm.toNat)) ∧
      (s.Ready pid (pV 0x24 0 0 imm.toNat) [] k x → ∃ t, exec (.parseRcv pid imm) s = .next t
        ∧ (t.work pid).bind (·.verdict) = some (.rcv imm.toNat)) ∧
      (s.Ready pid (pV 0x25 0 0 imm.toNat) [] k x → ∃ t, exec (.parseExc pid imm) s = .next t
        ∧ (t.work pid).bind (·.verdict) = some (.exc imm.toNat 0 0))) ∧
    (x.looks ≠ [] →
      (∀ a b, s.Ready pid (pV 0x22 a.toNat b.toNat imm.toNat) [] k x → exec (.parseEnq pid a b imm) s = .next s) ∧
      (s.Ready pid (pV 0x23 0 0 imm.toNat) [] k x → exec (.parseDrp pid imm) s = .next s) ∧
      (s.Ready pid (pV 0x24 0 0 imm.toNat) [] k x → exec (.parseRcv pid imm) s = .next s) ∧
      (s.Ready pid (pV 0x25 0 0 imm.toNat) [] k x → exec (.parseExc pid imm) s = .next s)) ∧
    (s.work pid = some k → k.run = some x →
      (x.pc < (s.parseGen k.pkt.pgen).len → illegalParse (s.coreWord x.core (s.parseGen k.pkt.pgen).bank x.pc) = true →
        ∃ t, exec (.parseIllegalInstruction pid) s = .next t ∧ t.ParseFaulted pid 1 x.pc) ∧
      (x.at_ + max 1 (s.rd F.PC_CTRL_hold_max) * 1000 * 2 ^ 40 < s.ts.run →
        ∃ t, exec (.holdMaxTimeout pid) s = .next t ∧ t.ParseFaulted pid 3 x.pc) ∧
      (s.ts.run ≤ x.at_ + max 1 (s.rd F.PC_CTRL_hold_max) * 1000 * 2 ^ 40 → exec (.holdMaxTimeout pid) s = .next s)) ∧
    (∀ src : Fin 100, s.pc.work.find? (fun w => w.place == src.val) = some k →
      (s.cellsWait k.pkt.cells = true ∨ (k.held = true ∧ s.verdictDown k = true) → exec (.verdictCommit src) s = .next s) ∧
      (s.cellsWait k.pkt.cells = false → s.verdictDown k = true → k.held = false →
        (k.refused = false → exec (.verdictCommit src) s = .next (s.putWork { k with held := true, refused := true })) ∧
        (∀ c, k.refused = true → k.core = some c → ∃ t, exec (.verdictCommit src) s = .next t
          ∧ t.pc.work.all (fun w => w.pkt.pid != k.pkt.pid) = true)) ∧
      (s.cellsWait k.pkt.cells = false → s.verdictDown k = false →
      ((∃ n, k.verdict = some (.drp n)) ∨ (∃ q x de, k.verdict = some (.enq q x de)) ∨ (∃ n c p, k.verdict = some (.exc n c p)) →
        ∃ t, exec (.verdictCommit src) s = .next t ∧ t.pc.work = s.pc.work.filter (fun w => w.pkt.pid != k.pkt.pid)) ∧
      (∀ q x de e, k.verdict = some (.enq q x de) → s.enqReason k q x = none → bit (s.qw 0 q 0) 17 = true →
        (s.dropWork k.pkt.pid).egressOf q = some e → bit (s.qw 0 q 4) 16 = false → (s.queueAt q).depth < bits (s.qw 0 q 6) 17 0 * 8 →
        exec (.verdictCommit src) s = .next (((s.dropWork k.pkt.pid).placePkt q { k.pkt with xgem := x, de := de }).settle e)) ∧
      (∀ e, k.verdict = some (.rcv e) → k.passNo < s.passLimit → s.entryAddr k.pkt.pgen e ≠ 0 →
        ∃ t, exec (.verdictCommit src) s = .next t ∧ t = { s with pc := t.pc } ∧ t.pc.work
          = s.pc.work.filter (fun w => w.pkt.pid != k.pkt.pid) ++ [{ k with
              place := 99, passNo := k.passNo + 1, entry := some e, origin := k.origin + k.cursor, run := none, verdict := none
              cursor := 0, held := false, refused := false }]) ∧
      (k.verdict = none → exec (.verdictCommit src) s = .next s)))

/-- From R12, R261, R263, R277, R281 to R285: packets arrive into the stage from an uplink, from a tree's bursts and from the rings, in RUN and
BIVOUAC alone; the oldest waiting one of its place takes a thread of the core with the most free ones; image words are staged in the image store
and in every core in service; cores are queried, repaired and, on a standby, tested.
Where a clause meets a point that the spec leaves to inference it states the model's choice: log entry 30. -/
def Obligations.PacketsEnterAndCoresServe : Prop :=
  ∀ (s : State) (r : Requester), s.Powered → s.blkDown 4 = false →
    (∀ (src : Fin 99) (k : Arrival), 64 ≤ src.val → src.val < 96 → s.ulUp (src.val - 64) = true → s.live = true →
      s.isStandby = false → k.bytes ≠ [] → k.bytes.length ≤ 16383 → s.blkDown 7 = false →
      (s.arrFloor ≤ s.freeCells → ∃ t w, exec (.packetArrival src k) s = .next t ∧ t.pc.work = s.pc.work ++ [w]
        ∧ w.pkt.bytes = k.bytes ∧ w.pkt.pid = s.pc.pids ∧ w.place = src.val ∧ w.run = none ∧ w.verdict = none
        ∧ t.pc.pids = s.pc.pids + 1) ∧
      (s.freeCells < s.arrFloor → ∃ t, exec (.packetArrival src k) s = .next t ∧ t.pc = s.pc ∧ t.qs = s.qs)) ∧
    (∀ (src : Fin 99) (k : Arrival), s.live = true → s.blkDown 7 = false → s.arrFloor ≤ s.freeCells →
      (∀ d rest, src.val < 64 → (s.rx src).deliv = d :: rest → d.bytes ≠ [] → d.bytes.length ≤ 16383 →
        ∃ t w, exec (.packetArrival src k) s = .next t ∧ t.pc.work = s.pc.work ++ [w] ∧ w.pkt.bytes = d.bytes
          ∧ w.pkt.term = d.term ∧ w.pkt.xgem = d.xgem ∧ w.pkt.bound = some (s.ctx d.term).tenant ∧ w.pkt.src = src.val
          ∧ (t.rx src).deliv = rest) ∧
      (∀ j rest, src.val = 98 → s.hd.inject = j :: rest → j.bytes ≠ [] → j.bytes.length ≤ 16383 →
        ∃ t w, exec (.packetArrival src k) s = .next t ∧ t.pc.work = s.pc.work ++ [w] ∧ w.pkt.bytes = j.bytes
          ∧ w.pkt.bound = s.ringTenant j.ring ∧ w.pkt.src = 98 ∧ t.hd.inject = rest)) ∧
    (s.live = false → ∀ (src : Fin 99) (k : Arrival), exec (.packetArrival src k) s = .next s) ∧
    (∀ pid c w e, s.work pid = some w → s.pc.work.find? (fun v => v.place == w.place && v.waits) = some w → s.pickCore = some c →
      s.cellsWait w.pkt.cells = false → w.begun = false → s.pc.cur.entries.get 0 w.pkt.src = e →
      (s.entryAddr (s.gen .parse).cur e ≠ 0 → ∃ t k x, exec (.passDispatch pid) s = .next t ∧ t.work pid = some k
        ∧ k.run = some x ∧ k.pkt.pgen = (s.gen .parse).cur ∧ k.pkt.rgen = (s.gen .rules).cur ∧ k.pkt.entered = s.ns
        ∧ x.core = c ∧ x.pc = s.entryAddr (s.gen .parse).cur e ∧ x.cur = 0 ∧ x.count = 0 ∧ x.regs.length = 32
        ∧ x.rN 1 = w.pkt.src ∧ x.rN 2 = w.pkt.bytes.length) ∧
      (s.entryAddr (s.gen .parse).cur e = 0 → ∃ t k, exec (.passDispatch pid) s = .next t ∧ t.work pid = some k
        ∧ k.run = none ∧ k.verdict = some (.exc 2 0 0))) ∧
    (∀ pid c w e, s.work pid = some w → s.pc.work.find? (fun v => v.place == w.place && v.waits) = some w → s.pickCore = some c →
      s.cellsWait w.pkt.cells = false → w.begun = true → w.entry = some e →
      (s.entryAddr w.pkt.pgen e ≠ 0 → ∃ t k x, exec (.passDispatch pid) s = .next t ∧ t.work pid = some k ∧ k.run = some x
        ∧ k.pkt = w.pkt ∧ k.origin = w.origin ∧ k.passNo = w.passNo ∧ x.core = c ∧ x.pc = s.entryAddr w.pkt.pgen e ∧ x.cur = 0
        ∧ x.count = 0 ∧ x.regs.length = 32 ∧ ∀ i, i < 8 → x.rN (8 + i) = w.carry.getD i 0) ∧
      (s.entryAddr w.pkt.pgen e = 0 → ∃ t k, exec (.passDispatch pid) s = .next t ∧ t.work pid = some k
        ∧ k.run = none ∧ k.verdict = some (.exc 2 0 0))) ∧
    (∀ pid, s.pickCore = none → exec (.passDispatch pid) s = .next s) ∧
    (∀ v : Word, s.Owner r → (s.gen .parse).ret ≠ none → exec (.pcProgDataHiWrite r v) s = .next (s.wr F.PC_PROG_STATUS_stage_err 1)) ∧
    (∀ (v : Word) (a : Nat), s.Owner r → (s.gen .parse).ret = none → s.rd F.PC_PROG_ADDR_addr = a →
      ∃ t, exec (.pcProgDataHiWrite r v) s = .next t
        ∧ t.parseWord (!s.pc.cur.bank) a = v.toNat % 16 * 2 ^ 32 + s.rd F.PC_PROG_DATA_LO_word_lo
        ∧ (∀ b, t.parseWord s.pc.cur.bank b = s.parseWord s.pc.cur.bank b) ∧ (t.gen .parse).staged = true
        ∧ (∀ c, c < 128 → s.coreOut c = false → t.coreWord c (!s.pc.cur.bank) a = t.parseWord (!s.pc.cur.bank) a)
        ∧ (∀ c, c < 128 → s.coreOut c = true → t.coreWord c (!s.pc.cur.bank) a = s.coreWord c (!s.pc.cur.bank) a)) ∧
    (∀ c : BitVec 7, s.Owner r → s.on F.PC_CORE_STATUS_busy = false →
      (∃ t, exec (.coreQuery r c) s = .next t ∧ t = { s with rf := t.rf } ∧ t.rd F.PC_CORE_STATUS_core = c.toNat
        ∧ t.rd F.PC_CORE_STATUS_result = 0 ∧ t.rd F.PC_CORE_STATUS_fenced = b2n (s.fenced (.core c.toNat))) ∧
      (s.fenced (.core c.toNat) = true → ∃ t, exec (.coreRepair r c) s = .next t ∧ t.pc = { s.pc with repair := some c.toNat }
        ∧ t.rd F.PC_CORE_STATUS_busy = 1 ∧ (t.tally (.core c.toNat)).total = 0) ∧
      (s.fenced (.core c.toNat) = false → ∃ t, exec (.coreRepair r c) s = .next t ∧ t = { s with rf := t.rf }
        ∧ t.rd F.PC_CORE_STATUS_result = 2)) ∧
    (∀ c, c < 128 → s.pc.repair = some c → (∃ t, exec (.coreRepairDone true) s = .next t ∧ t.fenced (.core c) = false
        ∧ t.pc.repair = none ∧ t.rd F.PC_CORE_STATUS_result = 0 ∧ t.rd F.PC_CORE_STATUS_busy = 0) ∧
      (∃ t, exec (.coreRepairDone false) s = .next t ∧ t.fenced (.core c) = s.fenced (.core c)
        ∧ t.rd F.PC_CORE_STATUS_result = 4)) ∧
    (∀ (c : BitVec 7) (ok : Bool), s.isStandby = true → s.pc.testing = c.toNat →
      (ok = true ∨ s.domDown (coreDomain c.toNat) = true → exec (.parseSelfTestPass c ok) s
        = .next { s with pc := { s.pc with testing := (c.toNat + 1) % 128 } }) ∧
      (ok = false → s.domDown (coreDomain c.toNat) = false → ∃ t, exec (.parseSelfTestPass c ok) s = .next t
        ∧ t.pc.testing = (c.toNat + 1) % 128 ∧ t.pr.testFailAt = some s.ts.run
        ∧ (s.fenced (.core c.toNat) = false → (t.tally (.core c.toNat)).total = ((s.tally (.core c.toNat)).hit).total)))

/-! ### Classification -/

/-- From R292 to R303, R308, R311, R316 to R318: exact entries are added to the first free candidate slot, changed where they were added since the
last commit, and deleted at the next generation, found by key, invisible to the current one until it commits; ternary entries and rows are read
and written under their masks, refused by their rules; the kinds that an op does not have are refused with 7; buckets of a member that is down move.
Where a clause meets a point that the spec leaves to inference it states the model's choice: log entries 32 and 33. -/
def Obligations.RulesStageForTheNextGeneration : Prop :=
  ∀ (s : State) (r : Requester) (tbl : BitVec 4) (key : List Nat) (tn : Nat), s.Powered → s.Owner r → s.blkDown 5 = false →
    s.on F.CL_CMD_STATUS_busy = false →
    (tbl.toNat < 15 → s.descValid tbl.toNat = true → s.clKey (s.descN tbl.toNat) = key →
      (if s.descPart tbl.toNat then s.rd F.CL_ARG_tenant else 0) = tn →
      (∀ new : Slot, (s.gen .rules).ret = none → (s.gen .rules).cur < 16 →
        new = ⟨tbl.toNat, key, tn, s.clAct1, s.clAct2, some s.ruleNext, none⟩ →
        (∀ i, s.slotsOf tbl.toNat key tn = [] → (s.candidates tbl.toNat key).find? (fun i => (s.slotAt i).isNone) = some i →
          ∃ t, exec (.clAdd r 0 tbl) s = .next t ∧ t.slotAt i = some new ∧ (∀ j, j ≠ i → t.slotAt j = s.slotAt j)
            ∧ (t.gen .rules).staged = true ∧ t.rd F.CL_CMD_STATUS_result = 0 ∧ t.rd F.CL_ARG_live = 0
            ∧ t.rd F.CL_ARG_staged_live = 1 ∧ t.slotSeen new (s.gen .rules).cur = false ∧ t.slotSeen new s.ruleNext = true) ∧
        (∀ i x rest, s.slotsOf tbl.toNat key tn = (i, x) :: rest → x.added = some s.ruleNext →
          ∃ t, exec (.clAdd r 0 tbl) s = .next t ∧ t.slotAt i = some new ∧ (∀ j, j ≠ i → t.slotAt j = s.slotAt j)
            ∧ t.rd F.CL_CMD_STATUS_result = 0) ∧
        (∀ i x j, s.slotsOf tbl.toNat key tn = [(i, x)] → x.added ≠ some s.ruleNext → x.deleted = none →
          (s.candidates tbl.toNat key).find? (fun i => (s.slotAt i).isNone) = some j → ∃ t, exec (.clAdd r 0 tbl) s = .next t
            ∧ t.slotAt i = some { x with deleted := some s.ruleNext } ∧ t.slotAt j = some new ∧ t.rd F.CL_CMD_STATUS_result = 0) ∧
        ((∀ e ∈ s.slotsOf tbl.toNat key tn, e.2.added ≠ some s.ruleNext) →
          (s.candidates tbl.toNat key).find? (fun i => (s.slotAt i).isNone) = none → ∃ t, exec (.clAdd r 0 tbl) s = .next t
            ∧ t = { s with rf := t.rf } ∧ t.rd F.CL_CMD_STATUS_result = 5)) ∧
      ((s.gen .rules).ret ≠ none →
        (∃ t, exec (.clAdd r 0 tbl) s = .next t ∧ t = { s with rf := t.rf } ∧ t.rd F.CL_CMD_STATUS_result = 8) ∧
        (∃ t, exec (.clDelete r 0 tbl) s = .next t ∧ t = { s with rf := t.rf } ∧ t.rd F.CL_CMD_STATUS_result = 8)) ∧
      (s.slotsOf tbl.toNat key tn = [] → (s.gen .rules).ret = none →
        (∃ t, exec (.clDelete r 0 tbl) s = .next t ∧ t = { s with rf := t.rf } ∧ t.rd F.CL_CMD_STATUS_result = 2) ∧
        (∃ t, exec (.clFind r 0 tbl) s = .next t ∧ t = { s with rf := t.rf } ∧ t.rd F.CL_CMD_STATUS_result = 2)) ∧
      (∀ i x rest, s.slotsOf tbl.toNat key tn = (i, x) :: rest → x.deleted = none → i < 2 ^ 28 → (s.gen .rules).cur < 16 →
        (x.added = none → (s.gen .rules).ret = none → ∃ t, exec (.clDelete r 0 tbl) s = .next t
          ∧ t.slotAt i = some { x with deleted := some s.ruleNext } ∧ t.rd F.CL_CMD_STATUS_result = 0
          ∧ t.rd F.CL_ARG_live = 1 ∧ t.rd F.CL_ARG_staged_live = 0) ∧
        (x.added = some s.ruleNext → (s.gen .rules).ret = none → ∃ t, exec (.clDelete r 0 tbl) s = .next t ∧ t.slotAt i = none
          ∧ t.rd F.CL_CMD_STATUS_result = 0 ∧ t.rd F.CL_ARG_staged_live = 0) ∧
        (x.added = none → ∃ t, exec (.clFind r 0 tbl) s = .next t ∧ t = { s with rf := t.rf } ∧ t.rd F.CL_CMD_STATUS_result = 0
          ∧ t.rd F.CL_INDEX_index = i ∧ t.rd F.CL_ARG_live = 1))) ∧
    (tbl.toNat = 15 ∨ s.descValid tbl.toNat = false →
      (∃ t, exec (.clAdd r 0 tbl) s = .next t ∧ t = { s with rf := t.rf } ∧ t.rd F.CL_CMD_STATUS_result = 4) ∧
      (∃ t, exec (.clDelete r 0 tbl) s = .next t ∧ t = { s with rf := t.rf } ∧ t.rd F.CL_CMD_STATUS_result = 4) ∧
      (∃ t, exec (.clFind r 0 tbl) s = .next t ∧ t = { s with rf := t.rf } ∧ t.rd F.CL_CMD_STATUS_result = 4)) ∧
    (∀ k : BitVec 4,
      (k ≠ 0 → exec (.clAdd r k tbl) s = .next (s.wr F.CL_CMD_STATUS_result 7)
        ∧ exec (.clDelete r k tbl) s = .next (s.wr F.CL_CMD_STATUS_result 7)
        ∧ exec (.clFind r k tbl) s = .next (s.wr F.CL_CMD_STATUS_result 7)) ∧
      (8 ≤ k.toNat → exec (.clRead r k tbl) s = .next (s.wr F.CL_CMD_STATUS_result 7)) ∧
      (k = 0 ∨ 8 ≤ k.toNat → exec (.clWrite r k tbl) s = .next (s.wr F.CL_CMD_STATUS_result 7))) ∧
    (∀ i, s.clIndex = i →
      (i < s.storeSlots → ∃ t, exec (.clRead r 0 tbl) s = .next t ∧ t = { s with rf := t.rf } ∧ t.rd F.CL_CMD_STATUS_result = 0
        ∧ t.rd F.CL_ARG_valid = b2n (s.slotAt i).isSome) ∧
      (s.ternIndexOk tbl.toNat i = true →
        (∃ t, exec (.clRead r 1 tbl) s = .next t ∧ t = { s with rf := t.rf } ∧ t.rd F.CL_CMD_STATUS_result = 0
          ∧ t.rd F.CL_ARG_valid = b2n ((s.ternAt i).now.valid || (s.ternAt i).next.valid)
          ∧ t.rd F.CL_ARG_live = b2n (s.ternAt i).now.valid ∧ t.rd F.CL_ARG_staged_live = b2n (s.ternAt i).next.valid) ∧
        ((s.gen .rules).ret = none → ∃ t n, exec (.clWrite r 1 tbl) s = .next t ∧ n = s.descN (descRow true tbl.toNat)
          ∧ t.rd F.CL_CMD_STATUS_result = 0 ∧ (t.gen .rules).staged = true ∧ (t.ternAt i).now = (s.ternAt i).now
          ∧ (t.ternAt i).next = ⟨s.on F.CL_ARG_valid, s.rd F.CL_ARG_tenant, (s.clKey n).take 4, (s.clMask n).take 4, s.clAct1, s.clAct2⟩) ∧
        ((s.gen .rules).ret ≠ none → ∃ t, exec (.clWrite r 1 tbl) s = .next t ∧ t = { s with rf := t.rf }
          ∧ t.rd F.CL_CMD_STATUS_result = 8)) ∧
      (s.ternIndexOk tbl.toNat i = false →
        (∃ t, exec (.clRead r 1 tbl) s = .next t ∧ t = { s with rf := t.rf } ∧ t.rd F.CL_CMD_STATUS_result = 9) ∧
        (∃ t, exec (.clWrite r 1 tbl) s = .next t ∧ t = { s with rf := t.rf } ∧ t.rd F.CL_CMD_STATUS_result = 9)) ∧
      (∀ k : BitVec 4, 2 ≤ k.toNat → k.toNat < 8 →
        (clBeyond k.toNat i = true →
          (∃ t, exec (.clRead r k tbl) s = .next t ∧ t = { s with rf := t.rf } ∧ t.rd F.CL_CMD_STATUS_result = 9) ∧
          (∃ t, exec (.clWrite r k tbl) s = .next t ∧ t = { s with rf := t.rf } ∧ t.rd F.CL_CMD_STATUS_result = 9)) ∧
        (clBeyond k.toNat i = false →
          (∃ t, exec (.clRead r k tbl) s = .next t ∧ t = { s with rf := t.rf } ∧ t.rd F.CL_CMD_STATUS_result = 0
            ∧ ∀ w < 8, t.rd F.CL_DATA_word w = s.clWord k.toNat i w % 2 ^ 18) ∧
          (∀ n, n = (match k.toNat with
              | 2 => s.descRefusal (s.clStore 2 i (s.clWords 2)) i
              | 3 => s.xgRefusal (s.clStore 3 i (s.clWords 3)) i
              | 6 => chanRefusal (s.clWords 6)
              | _ => 0) →
            (n = 0 → ∃ t, exec (.clWrite r k tbl) s = .next t ∧ t.rd F.CL_CMD_STATUS_result = 0
              ∧ t = { s with rows := t.rows, rf := t.rf, out := t.out, pr := t.pr, pm := t.pm, cl := t.cl }
              ∧ ∀ w m, (clTable k.toNat).2[w]? = some m → t.row k.toNat i w = s.rd F.CL_DATA_word w &&& m) ∧
            (n ≠ 0 → ∃ t, exec (.clWrite r k tbl) s = .next t ∧ t = { s with rf := t.rf } ∧ t.rd F.CL_CMD_STATUS_result = n))))) ∧
    (∀ (g : BitVec 6) (m : BitVec 4), s.memberValid (g.toNat * 16 + m.toNat) = true →
      (s.memberUp (g.toNat * 16 + m.toNat) = false → g.toNat * 16 + m.toNat ∉ s.cl.moved →
        ∃ t, exec (.spreadBucketsMoved g m) s = .next t ∧ g.toNat * 16 + m.toNat ∈ t.cl.moved
          ∧ (s.Room 5 g.toNat → t.Raised 5 g.toNat 0x5003 m.toNat)) ∧
      (s.memberUp (g.toNat * 16 + m.toNat) = true → g.toNat * 16 + m.toNat ∈ s.cl.moved →
        ∃ t, exec (.spreadBucketsRestored g m) s = .next t ∧ g.toNat * 16 + m.toNat ∉ t.cl.moved
          ∧ (s.Room 5 g.toNat → t.Raised 5 g.toNat 0x5004 m.toNat)))

/-! ### Buffers and memory -/

/-- From R323, R324, R327 to R332, R339 to R347: the packets of a queue come back from deep memory in order, cells return with their reuse count
raised, deep requests wait for those of higher precedence, the scrubber's findings are counted and judged, rows are repaired, lines relocated,
memories tested, thresholds kept in order.
Where a clause meets a point that the spec leaves to inference it states the model's choice: log entries 52, 53, 54 and 98. -/
def Obligations.BuffersFetchScrubAndTest : Prop :=
  ∀ (s : State) (r : Requester), s.Powered → IsHost r → s.owns r = true → s.blkDown 7 = false → s.pcieBoot = false → s.domDown 11 = false →
    (∀ (q : BitVec 16) (k : Pkt), s.fetchHead q.toNat = some k → ∃ t k', exec (.fetchIssue q) s = .next t
      ∧ (t.queueAt q.toNat).deep = (s.queueAt q.toNat).deep.tail ∧ (t.queueAt q.toNat).fetch = (s.queueAt q.toNat).fetch ++ [k']
      ∧ k'.bytes = k.bytes ∧ k'.pid = k.pid ∧ k'.cells.length = cellsFor k.bytes.length) ∧
    (∀ q : BitVec 16,
      ((∃ l ∈ s.fetchLines q.toNat, s.storeWaits (l / 2 ^ 28) = true) → ∀ es, exec (.fetchComplete q es) s = .next s) ∧
      (∀ (k : Pkt) (rest : List Pkt), (∀ l ∈ s.fetchLines q.toNat, s.storeWaits (l / 2 ^ 28) = false ∧ l ∉ s.bm.bad) →
        (∀ es d ds, (s.queueAt q.toNat).dead = d :: ds → ∃ t, exec (.fetchComplete q es) s = .next t
          ∧ (t.queueAt q.toNat).dead = ds ∧ (t.queueAt q.toNat).fetch = (s.queueAt q.toNat).fetch ∧ ∀ c ∈ d.cells, c ∉ t.bm.used) ∧
        ((s.queueAt q.toNat).dead = [] → (s.queueAt q.toNat).fetch = k :: rest → k.tagGens.headD k.cgen = k.cgen →
          s.gateOf q.toNat = none → ∃ t k', exec (.fetchComplete q []) s = .next t ∧ (t.queueAt q.toNat).fetch = rest
            ∧ (t.queueAt q.toNat).chip = (s.queueAt q.toNat).chip ++ [k'] ∧ k'.pid = k.pid ∧ k'.bytes = k.bytes ∧ k'.cells = k.cells
            ∧ (t.queueAt q.toNat).deep = (s.queueAt q.toNat).deep))) ∧
    (∀ w rest, s.bm.spills = w :: rest → s.cellsWait w.cells = false →
      ((∃ n ∈ w.subs, s.storeWaits n = true ∨ s.fetchWaits n = true) → exec .spillWriteComplete s = .next s) ∧
      ((∀ n ∈ w.subs, s.storeWaits n = false ∧ s.fetchWaits n = false) → ∃ t, exec .spillWriteComplete s = .next t
        ∧ t.bm.spills = rest ∧ t.bm.used = s.bm.used.filter (fun c => !w.cells.contains c))) ∧
    (∀ c : BitVec 21, c.toNat ∈ s.bm.draining → s.cellsWait [c.toNat] = false → ∃ t, exec (.cellLastByteRead c) s = .next t
      ∧ c.toNat ∉ t.bm.used ∧ c.toNat ∉ t.bm.draining ∧ t.bm.cgen.get 0 c.toNat = (s.bm.cgen.get 0 c.toNat + 1) % 16) ∧
    (∀ (b : Fin 15) (m : BitVec 11) (row : BitVec 10) (n : Nat), s.bm.test = none → rowNo b.val m.toNat row.toNat = n →
      (n ∈ s.bm.copying → ∀ es, exec (.scrubRead (.row b m row) es) s = .next s) ∧
      (n ∉ s.bm.copying →
        (∃ t, exec (.scrubRead (.row b m row) []) s = .next t ∧ t = { s with bm := { s.bm with chip := t.bm.chip } }
          ∧ ((insertNat n s.bm.chip.seen).length < Config.chipRows → t.bm.chip = { s.bm.chip with seen := insertNat n s.bm.chip.seen })) ∧
        (n ∉ s.bm.gone → s.tally (.row b.val m.toNat row.toNat) = {} → 1 < s.threshold →
          ∃ t, exec (.scrubRead (.row b m row) [5]) s = .next t ∧ (t.tally (.row b.val m.toNat row.toNat)).total = 1
            ∧ t.fenced (.row b.val m.toNat row.toNat) = false ∧ t.bm = { s.bm with chip := t.bm.chip }) ∧
        (n ∉ s.bm.gone → s.fenced (.row b.val m.toNat row.toNat) = false → s.bm.spares.get 0 (b.val * 2048 + m.toNat) < 8 →
          ∃ t, exec (.scrubRead (.row b m row) [1, 2, 3]) s = .next t ∧ t.fenced (.row b.val m.toNat row.toNat) = true
            ∧ n ∈ t.bm.copying ∧ (b.val = 7 → m.toNat * 1024 + row.toNat ∈ t.bm.poison)))) ∧
    (∀ (n : Fin 16) (l : BitVec 32), s.bm.test = none → s.feat 11 = true →
      (s.storeWaits n = true ∨ s.fetchWaits n = true ∨ s.spillWaits n = true → ∀ es, exec (.scrubRead (.line n l) es) s = .next s) ∧
      (s.storeWaits n = false → s.fetchWaits n = false → s.spillWaits n = false → lineNo n l.toNat ∉ s.bm.bad → l.toNat * 16 < s.deepLines →
        (∃ t, exec (.scrubRead (.line n l) []) s = .next t ∧ t = { s with bm := { s.bm with deep := t.bm.deep } }) ∧
        (∃ t, exec (.scrubRead (.line n l) [7, 8, 9]) s = .next t ∧ lineNo n l.toNat ∈ t.bm.bad
          ∧ t.rd F.BM_DEEP_ERR_uncorrectable = min 255 (s.rd F.BM_DEEP_ERR_uncorrectable + 1)))) ∧
    (s.bm.test = none →
      (s.bm.chip.late = true ∨ s.ts.run < s.bm.chip.start + s.chipInterval → exec (.scrubSweepLate false) s = .next s) ∧
      (s.bm.chip.late = false → s.bm.chip.start + s.chipInterval ≤ s.ts.run → ∃ t, exec (.scrubSweepLate false) s = .next t
        ∧ t.rd F.BM_SCRUB_STATUS_chip_late = 1 ∧ (s.Room 7 0 → t.Raised 7 0 0x6030 0)
        ∧ t = { s with bm := { s.bm with chip := { s.bm.chip with late := true } }, rf := t.rf, evu := t.evu, pm := t.pm }) ∧
      (s.feat 11 = true → s.bm.deep.late = false → s.bm.deep.start + s.deepInterval ≤ s.ts.run →
        ∃ t, exec (.scrubSweepLate true) s = .next t ∧ t.rd F.BM_SCRUB_STATUS_deep_late = 1 ∧ (s.Room 7 0 → t.Raised 7 0 0x6030 1)
          ∧ t = { s with bm := { s.bm with deep := { s.bm.deep with late := true } }, rf := t.rf, evu := t.evu, pm := t.pm })) ∧
    (∀ (b : Fin 15) (m : BitVec 11) (row : BitVec 10) (ok : Bool) (n : Nat), rowNo b.val m.toNat row.toNat = n → n ∈ s.bm.copying →
      ∃ t, exec (.rowRepairComplete ⟨b, m⟩ row ok) s = .next t ∧ n ∉ t.bm.copying ∧ n ∈ t.bm.repaired
        ∧ t.fenced (.row b.val m.toNat row.toNat) = false ∧ (ok = true → t.bm.poison = s.bm.poison ∧ t.bm.gone = s.bm.gone)
        ∧ (ok = false → b.val = 7 → m.toNat * 1024 + row.toNat ∈ t.bm.poison) ∧ (ok = false → b.val ≠ 7 → n ∈ t.bm.gone)) ∧
    (∀ (n : Fin 16) (lost : List (BitVec 29)), s.bm.relocating = some n.val →
      (s.storeWaits n = true ∨ s.fetchWaits n = true ∨ s.spillWaits n = true → exec (.relocationComplete ⟨n, lost⟩) s = .next s) ∧
      (s.storeWaits n = false → s.fetchWaits n = false → s.spillWaits n = false → ∃ t, exec (.relocationComplete ⟨n, lost⟩) s = .next t
        ∧ t.bm.relocating = none ∧ (s.Room 7 n → t.Raised 7 n 0x6021 20480))) ∧
    (s.bm.test = none → exec (.memoryTestQuery r) s = .next s ∧
      (s.glb.dev = .test →
        (∃ t, exec (.packetBufferTest r) s = .next t ∧ t.bm.test = some 1 ∧ t.rd F.BM_TEST_STATUS_busy = 1
          ∧ t = { s with bm := t.bm, rf := t.rf }) ∧
        (∃ t, exec (.deepMemoryTest r) s = .next t ∧ t.bm.test = some 2 ∧ t.rd F.BM_TEST_STATUS_busy = 1 ∧ t.cl.tern = s.cl.tern
          ∧ (s.cacheOnly = false → t.cl.slots = [] ∧ t.cl.cache = []) ∧ (s.cacheOnly = true → t.cl = s.cl) ∧ t.imh.terms = []
          ∧ t.pr.snap = [] ∧ ∀ q, (t.queueAt q).deep = (s.queueAt q).deep.map (fun k =>
            { k with lost := List.range (cellsFor k.bytes.length) }))) ∧
      (s.glb.dev ≠ .test → exec (.packetBufferTest r) s = .next (s.wr F.BM_TEST_STATUS_result 3)
        ∧ exec (.deepMemoryTest r) s = .next (s.wr F.BM_TEST_STATUS_result 3))) ∧
    (∀ n, s.bm.test = some n → (∃ t, exec (.memoryTestDone none) s = .next t ∧ t.bm.test = none
        ∧ t.rd F.BM_TEST_STATUS_busy = 0 ∧ t.rd F.BM_TEST_STATUS_result = 0) ∧
      (∀ u : BitVec 16, ∃ t, exec (.memoryTestDone (some u)) s = .next t ∧ t.rd F.BM_TEST_STATUS_result = 2
        ∧ t.rd F.BM_TEST_STATUS_fail_unit = u.toNat % 2 ^ F.BM_TEST_STATUS_fail_unit.w) ∧
      exec (.packetBufferTest r) s = .next (s.wr F.BM_TEST_STATUS_result 1)) ∧
    (∀ (v : Word) (low on off : Nat), bits v.toNat 26 18 = low → bits v.toNat 17 9 = on → bits v.toNat 8 0 = off →
      (off < on → on < low → low + max 8 (s.rd F.BM_ADMIT_arr_floor) ≤ 512 → ∃ t, exec (.bmSpillWrite r v) s = .next t
        ∧ t.rd F.BM_SPILL_low_max = low ∧ t.rd F.BM_SPILL_spill_on = on ∧ t.rd F.BM_SPILL_spill_off = off ∧ t = { s with rf := t.rf }) ∧
      (¬(off < on ∧ on < low) → exec (.bmSpillWrite r v) s = .next (s.wr F.BM_STATUS_cfg_err 1)))

/-! ### Time -/

/-- From R349 to R370: the owner's increment, steps and alignments; a scheduled step takes effect at the next cycle and never touches the run count;
the nanosecond field wraps with its event; edges, records of a port's frames, fibre delays.
Where a clause meets a point that the spec leaves to inference it states the model's choice: log entries 3, 13 and 18. -/
def Obligations.TheTimeBaseStepsWrapsAndAligns : Prop :=
  ∀ (s : State) (r : Requester), s.Powered → IsHost r → s.owns r = true → s.blkDown 8 = false → s.pcieBoot = false → s.slaved = false →
    (∀ (v : Word) (n : Nat), n = bits v.toNat 15 0 * 2 ^ 32 + s.rd F.TS_INCR_incr % 2 ^ 32 →
      (6423611 * 2 ^ 40 ≤ n * 10 ^ 6 → n * 10 ^ 6 ≤ 6436471 * 2 ^ 40 → ∃ t, exec (.tsIncrWrite r v) s = .next t
        ∧ t.ts.incrNext = some n ∧ t.ts.incr = s.ts.incr ∧ t.rd F.TS_INCR_incr = n) ∧
      (n * 10 ^ 6 < 6423611 * 2 ^ 40 ∨ 6436471 * 2 ^ 40 < n * 10 ^ 6 → exec (.tsIncrWrite r v) s
        = .next (s.wr F.TS_STATUS_incr_err 1))) ∧
    (∀ v : Word, (v.toNat ≠ 0x80000000 → s.ts.step = none → (s.evu.wait.filter (·.wrap)).length < 4 →
        ∃ t, exec (.tsAdjWrite r v) s = .next t ∧ t.ts = { s.ts with step := some (signed 32 v.toNat * 2 ^ 24 + s.rd F.TS_ADJ_frac) }
          ∧ t.rd F.TS_STATUS_adj_busy = 1 ∧ t = { s with ts := t.ts, rf := t.rf }) ∧
      (s.ts.step ≠ none ∨ v.toNat = 0x80000000 → exec (.tsAdjWrite r v) s = .next (s.wr F.TS_STATUS_adj_err 1))) ∧
    (∀ d : Int, s.ts.step = some d → s.ts.incrNext = none → s.ts.align = none → s.ts.phase + 1 < 19440 →
      0 ≤ (s.ts.tb : Int) + s.ts.incr + d * 2 ^ 16 → (s.ts.tb : Int) + s.ts.incr + d * 2 ^ 16 < 2 ^ 72 →
      ∃ t, exec .stepApply s = .next t ∧ (t.ts.tb : Int) = s.ts.tb + s.ts.incr + d * 2 ^ 16 ∧ t.ts.run = s.ts.run + s.ts.incr
        ∧ t.ts.step = none ∧ t.ts.phase = s.ts.phase + 1 ∧ t.ts.wrap = s.ts.wrap ∧ t.rd F.TS_STATUS_adj_busy = 0) ∧
    (s.ts.step = none → s.ts.incrNext = none → s.ts.align = none → s.ts.tb < 2 ^ 72 → 0 < s.ts.incr → s.ts.incr < 2 ^ 72 →
      s.wrapIn < s.cyclesLeft → ∃ t, exec .timeBaseWrap s = .next t ∧ t.ts.tb = s.ts.tb + s.wrapIn * s.ts.incr - 2 ^ 72
        ∧ t.ts.tb < s.ts.incr ∧ t.ts.wrap = (s.ts.wrap + 1) % 256 ∧ t.ts.run = s.ts.run + s.wrapIn * s.ts.incr
        ∧ t.ts.phase = s.ts.phase + s.wrapIn ∧ ∃ e ∈ t.evu.wait, e.code = 0x7001 ∧ e.wrap = true ∧ e.arg = (s.ts.wrap + 1) % 256) ∧
    (∀ v : Word, bit v.toNat 1 = true → bit v.toNat 0 = false →
      (s.glb.dev = .ready → 1000 ≤ signed 32 (s.rd F.TS_FRAME_ALIGN_align_ns + (2 ^ 32 - s.ns)) →
        signed 32 (s.rd F.TS_FRAME_ALIGN_align_ns + (2 ^ 32 - s.ns)) ≤ 2 * 10 ^ 9 → ∃ t, exec (.alignGo r v) s = .next t
          ∧ t.ts = { s.ts with align := some (.ns ((s.longTime / 2 ^ 40
            + signed 32 (s.rd F.TS_FRAME_ALIGN_align_ns + (2 ^ 32 - s.ns))) * 2 ^ 40)) } ∧ t.rd F.TS_CTRL_pps_tol = bits v.toNat 31 16) ∧
      (s.glb.dev = .run → ∃ t, exec (.alignGo r v) s = .next t ∧ t.ts = s.ts ∧ t.rd F.TS_STATUS_align_err = 1)) ∧
    (∀ v : Word, bit v.toNat 1 = true → bit v.toNat 0 = true → s.glb.dev = .ready ∨ s.glb.dev = .test → ∃ t, exec (.alignGo r v) s = .next t
      ∧ t.ts = { s.ts with align := some .pps } ∧ t.rd F.TS_CTRL_align_src = 1) ∧
    (∀ n m, s.ts.align = some (.ns m) → s.alignIn = some n → n ≤ s.cyclesLeft → s.ts.step = none → s.ts.incrNext = none → s.glb.dev ≠ .boot →
      ∃ t, exec .frameAligned s = .next t ∧ t.ts.phase = 0 ∧ t.ts.align = none ∧ t.rd F.TS_STATUS_aligned = 1) ∧
    (s.on F.TS_CTRL_align_src = true → ∃ t, exec .ppsEdge s = .next t ∧ t.rd F.TS_STATUS_pps_seen = 1
      ∧ t.rd F.TS_PPS_STAMP_stamp = s.stamp % 2 ^ 64
      ∧ t.rd F.TS_PPS_ERR_offset = (if s.ts.align = some .pps then 0 else wrapTo 32 s.ppsOffset)) ∧
    (s.ts.run < s.ts.ppsAt + 1500 * millisecond → exec .ppsLost s = .next s) ∧
    (s.on F.TS_STATUS_pps_seen = true → s.ts.ppsAt + 1500 * millisecond ≤ s.ts.run → ∃ t, exec .ppsLost s = .next t ∧ t.rd F.TS_STATUS_pps_seen = 0
      ∧ (s.Room 8 0 → t.Raised 8 0 0x7005 0)) ∧
    (∀ p : Port, s.on F.TS_TOD_STATUS_busy = false →
      (∃ t, exec (.todQuery r p) s = .next t ∧ t = { s with rf := t.rf } ∧ t.rd F.TS_TOD_STATUS_port = p.val
        ∧ t.rd F.TS_TOD_STATUS_result = 0) ∧
      ((s.port p).framing = true → 2 ≤ s.todAhead p (s.rd F.TS_TOD_SFC_sfc) → s.todAhead p (s.rd F.TS_TOD_SFC_sfc) ≤ 8000 →
        ∃ t, exec (.todCompute r p) s = .next t ∧ t.rd F.TS_TOD_STATUS_result = 0
          ∧ t.todOf p = { sfc := s.rd F.TS_TOD_SFC_sfc, record := s.predict p (s.rd F.TS_TOD_SFC_sfc), pending := true, final := false }) ∧
      ((s.port p).framing = false → ∃ t, exec (.todCompute r p) s = .next t ∧ t = { s with rf := t.rf }
        ∧ t.rd F.TS_TOD_STATUS_result = 3) ∧
      (∃ t, exec (.todCancel r p) s = .next t ∧ (t.todOf p).pending = false ∧ (t.todOf p).record = (s.todOf p).record)) ∧
    (∀ u : Term, (s.ctx u).st ≠ .operating → (s.ctx u).st ≠ .lost → ∃ t, exec (.termDelayCompute r u) s = .next t ∧ t = { s with rf := t.rf }
      ∧ t.rd F.TS_TERM_DOWN_delay = 0 ∧ t.rd F.TS_TERM_UP_delay = 0) ∧
    (∀ u : Term, (s.ctx u).st = .operating ∨ (s.ctx u).st = .lost → ∃ t, exec (.termDelayCompute r u) s = .next t ∧ t = { s with rf := t.rf }
      ∧ t.rd F.TS_TERM_DOWN_delay = wrapTo 32 ((s.fibre u).1 * (5 * 10 ^ 8 + s.asym (s.ctx u).port) / ((s.fibre u).2 * 10 ^ 9)))

/-! ### Power, reset, boot -/

/-- From R499 to R509: domains go down only where nothing refuses it and they stand still, and come up again; the voltage loop acts on the least
margin; the temperature warns, and at trip takes the device to SAFE.
Where a clause meets a point that the spec leaves to inference it states the model's choice: log entries 61 and 62. -/
def Obligations.DomainsVoltageAndTemperature : Prop :=
  ∀ (s : State) (r : Requester), s.Powered → IsHost r → s.owns r = true → s.glb.move = none →
    (s.pw.dom = none → ∀ d : BitVec 4,
      (∃ t, exec (.domainQuery r d) s = .next t ∧ t = { s with rf := t.rf } ∧ t.rd F.PW_DOM_CMD_STATUS_result = 0
        ∧ t.rd F.PW_DOM_CMD_STATUS_domain = d.toNat) ∧
      (s.domRefusal d.toNat ≠ 0 → ∃ t, exec (.domainDownRequest r d) s = .next t ∧ t = { s with rf := t.rf }
        ∧ t.rd F.PW_DOM_CMD_STATUS_result = s.domRefusal d.toNat % 16 ∧ t.rd F.PW_DOM_STATUS_down = s.rd F.PW_DOM_STATUS_down) ∧
      (s.domRefusal d.toNat = 0 → s.domDown d.toNat = false → ∃ t, exec (.domainDownRequest r d) s = .next t
        ∧ t.pw.dom = some (d.toNat, true) ∧ t.rd F.PW_DOM_CMD_STATUS_busy = 1 ∧ t.domDown d.toNat = false) ∧
      (s.domDown d.toNat = false → ∃ t, exec (.domainUpRequest r d) s = .next t ∧ t = { s with rf := t.rf }
        ∧ t.rd F.PW_DOM_CMD_STATUS_result = 0) ∧
      (s.domRefusal d.toNat = 0 → s.domDown d.toNat = true → ∃ t, exec (.domainDownRequest r d) s = .next t ∧ t = { s with rf := t.rf }
        ∧ t.rd F.PW_DOM_CMD_STATUS_result = 0) ∧
      (s.domDown d.toNat = true → ∃ t, exec (.domainUpRequest r d) s = .next t ∧ t.pw.dom = some (d.toNat, false)
        ∧ t.rd F.PW_DOM_CMD_STATUS_busy = 1 ∧ t.domDown d.toNat = true)) ∧
    ((s.glb.dev = .boot ∨ s.glb.dev = .safe → ∀ d, s.domRefusal d = 2) ∧
      (s.glb.dev = .ready → s.domRefusal 10 = 5 ∧ s.domRefusal 13 = 5 ∧ s.domRefusal 14 = 5) ∧
      (s.glb.dev = .ready → ∀ (d : Fin 8) (p : Port), p.val / 8 = d.val → s.on F.TP_CTRL_port_en p = true → s.domRefusal d = 4)) ∧
    (∀ d, d < 15 → s.pw.dom = some (d, true) →
      (s.quiescent d = true → ∃ t, exec .domainQuiescent s = .next t ∧ t.domDown d = true ∧ t.pw.dom = none
        ∧ t.rd F.PW_DOM_CMD_STATUS_busy = 0) ∧
      (s.ts.run < s.pw.domAt + max 1 (s.rd F.PW_DOM_CFG_dom_timeout) * microsecond → exec .domainTimeout s = .next s) ∧
      (s.quiescent d = false → exec .domainQuiescent s = .next s) ∧
      (s.quiescent d = false → s.pw.domAt + max 1 (s.rd F.PW_DOM_CFG_dom_timeout) * microsecond ≤ s.ts.run → ∃ t, exec .domainTimeout s = .next t
        ∧ t.rd F.PW_DOM_STATUS_down = s.rd F.PW_DOM_STATUS_down ∧ t.pw.dom = none
        ∧ (s.on F.PW_DOM_CMD_STATUS_busy = true → t.rd F.PW_DOM_CMD_STATUS_result = 3))) ∧
    (∀ d, d < 15 → s.pw.dom = some (d, false) → ∃ t, exec .domainUpComplete s = .next t ∧ t.domDown d = false ∧ t.pw.dom = none) ∧
    (∀ (ms : List (BitVec 16)) (i : BitVec 14) (m : Nat), ms.length = 48 → (s.readMargins ms).rd F.PW_MON_margin (s.readMargins ms).worstMon = m →
      (s.ts.run < s.pw.avsDue → m ≠ 0 → exec (.avsPeriod ms i) s = .next s) ∧ (s.pw.avsDue ≤ s.ts.run →
      m < s.rd F.PW_AVS_CFG_margin_lo → m ≠ 0 → m ≤ s.rd F.PW_AVS_CFG_margin_hi →
      s.rd F.PW_AVS_STATUS_v_now + 5 ≤ s.rd F.PW_AVS_LIMIT_v_max → s.rd F.PW_AVS_LIMIT_v_min ≤ s.rd F.PW_AVS_STATUS_v_now →
      ∃ t, exec (.avsPeriod ms i) s = .next t ∧ t.rd F.PW_AVS_STATUS_v_now = s.rd F.PW_AVS_STATUS_v_now + 5
        ∧ t.rd F.PW_AVS_STATUS_i_now = i.toNat ∧ t.rd F.PW_AVS_STATUS_bus_fault = 0)) ∧
    (∀ (ms : List (BitVec 16)) (i : BitVec 14) (m v : Nat), ms.length = 48 →
      (s.readMargins ms).rd F.PW_MON_margin (s.readMargins ms).worstMon = m → s.rd F.PW_AVS_STATUS_v_now = v →
      s.rd F.PW_AVS_LIMIT_v_min ≤ v → v ≤ s.rd F.PW_AVS_LIMIT_v_max → s.pw.avsDue ≤ s.ts.run ∨ m = 0 → ∃ t, exec (.avsPeriod ms i) s = .next t
        ∧ t.rd F.PW_AVS_STATUS_i_now = i.toNat ∧ t.rd F.PW_AVS_STATUS_bus_fault = 0
        ∧ (m = 0 → t.rd F.PW_AVS_STATUS_v_now = min (s.rd F.PW_AVS_LIMIT_v_max) (v + 20))
        ∧ (s.rd F.PW_AVS_CFG_margin_lo ≤ m → m ≠ 0 → m ≤ s.rd F.PW_AVS_CFG_margin_hi ∨ s.pw.avsHigh < 9 →
            t.rd F.PW_AVS_STATUS_v_now = v)
        ∧ (s.rd F.PW_AVS_CFG_margin_lo ≤ m → s.rd F.PW_AVS_CFG_margin_hi < m → s.pw.avsHigh = 9 →
            t.rd F.PW_AVS_STATUS_v_now = max (s.rd F.PW_AVS_LIMIT_v_min) (v - 5))) ∧
    (s.on F.PW_AVS_STATUS_bus_fault = false → ∃ t, exec .avsBusFault s = .next t ∧ t.rd F.PW_AVS_STATUS_bus_fault = 1
      ∧ t.rd F.PW_AVS_STATUS_v_now = s.rd F.PW_AVS_STATUS_v_now ∧ t = { s with rf := t.rf, evu := t.evu, pm := t.pm }) ∧
    (∀ ts : List Byte, s.ts.run < s.pw.thermDue → exec (.thermalSample ts) s = .next s) ∧
    (∀ (ts : List Byte) (x : Byte), s.pw.thermDue ≤ s.ts.run → ts.length = 8 → x ∈ ts → (∀ y ∈ ts, y.toInt ≤ x.toInt) →
      (x.toInt < s.rd F.PW_THERM_CFG_warn → s.pw.warnHeld = false → x.toInt < s.rd F.PW_THERM_CFG_trip →
        ∃ t, exec (.thermalSample ts) s = .next t ∧ t = { s with rf := t.rf, pw := { s.pw with thermDue := s.ts.run + 10 * microsecond } } ∧ t.rd F.PW_THERM_STATUS_temp = x.toNat
          ∧ t.rd F.PW_THERM_STATUS_warn = 0) ∧
      ((s.rd F.PW_THERM_CFG_warn : Int) ≤ x.toInt → s.pw.warnHeld = false → x.toInt < s.rd F.PW_THERM_CFG_trip →
        ∃ t n, exec (.thermalSample ts) s = .next t ∧ t.rd F.PW_THERM_STATUS_temp = x.toNat ∧ t.rd F.PW_THERM_STATUS_warn = 1
          ∧ t.rd F.PW_THERM_STATUS_warn_seen = 1 ∧ t.pw.warnHeld = true ∧ t.glb = s.glb
          ∧ (s.Room 14 n → t.Raised 14 n 0xD020 (wrapTo 32 x.toInt))) ∧
      (x.toInt + 3 ≤ s.rd F.PW_THERM_CFG_warn → s.pw.warnHeld = true → x.toInt < s.rd F.PW_THERM_CFG_trip →
        ∃ t n, exec (.thermalSample ts) s = .next t ∧ t.rd F.PW_THERM_STATUS_temp = x.toNat ∧ t.rd F.PW_THERM_STATUS_warn = 0
          ∧ t.pw.warnHeld = false ∧ (s.Room 14 n → t.Raised 14 n 0xD021 (wrapTo 32 x.toInt))) ∧
      ((s.rd F.PW_THERM_CFG_trip : Int) ≤ x.toInt → s.glb.dev ≠ .safe → ∃ t, exec (.thermalSample ts) s = .next t ∧ t.glb.dev = .safe
        ∧ t.belay.laser = false ∧ t.rd F.PW_RESET_CAUSE_safe_cause = 3))

/-- From R510 to R516: a reset of kind 1, 2 or 3 leaves the device in BOOT, the claim released and the lasers off, its straps sampled and, after a power-on, its tables empty;
a block reset touches one block; BOOT goes through load, training and self-test to READY.
Where a clause meets a point that the spec leaves to inference it states the model's choice: log entries 63, 64 and 65. -/
def Obligations.ResetsAndBoot : Prop :=
  ∀ (s : State) (r : Requester) (st : Straps),
    (∀ a, ∃ t, exec (.powerOnReset st a) s = .next t ∧ t.glb = {} ∧ t.pw = { straps := st } ∧ t.belay.laser = false
      ∧ t.belay.claim = false ∧ t.ts = {} ∧ t.qs = State.reset.qs ∧ t.ctxs = [] ∧ t.bm = {} ∧ t.pending = s.pending
      ∧ t.rd F.PW_RESET_CAUSE_kind = 1 ∧ t.rd F.PW_RESET_CAUSE_safe_cause = 0 ∧ t.rd F.TS_INCR_incr = 7069905013992) ∧
    (s.Powered → IsHost r → s.owns r = true →
      (∃ t, exec (.pinReset st) s = .next t ∧ t.glb = {} ∧ t.pw.straps = st ∧ t.belay.laser = false ∧ t.rd F.PW_RESET_CAUSE_kind = 2
        ∧ t.rd F.PW_RESET_CAUSE_safe_cause = s.rd F.PW_RESET_CAUSE_safe_cause) ∧
      (s.pw.blkCmd = none →
        (∃ t, exec (.deviceReset r 0xA5 st) s = .next t ∧ t.glb = {} ∧ t.belay.laser = false ∧ t.rd F.PW_RESET_CAUSE_kind = 3) ∧
        exec (.deviceReset r 0x5A st) s = .next s ∧
        (∃ t, exec (.blockReset r 0xA5 14) s = .next t ∧ t = { s with rf := t.rf } ∧ t.rd F.PW_RESET_STATUS_result = 3) ∧
        (∀ b : BitVec 4,
          (b.toNat = 0 ∨ 14 ≤ b.toNat → ∃ t, exec (.blockReset r 0xA5 b) s = .next t ∧ t = { s with rf := t.rf }
            ∧ t.rd F.PW_RESET_STATUS_result = 3) ∧
          (1 ≤ b.toNat → b.toNat < 14 → s.glb.dev ≠ .ready → s.glb.dev ≠ .test → ∃ t, exec (.blockReset r 0xA5 b) s = .next t
            ∧ t = { s with rf := t.rf } ∧ t.rd F.PW_RESET_STATUS_result = 2) ∧
          (1 ≤ b.toNat → b.toNat < 14 → s.glb.dev = .ready ∨ s.glb.dev = .test → ∃ t, exec (.blockReset r 0xA5 b) s = .next t
            ∧ t.pw.blkCmd = some b.toNat ∧ b.toNat ∈ t.pw.blk ∧ t.blkDown b.toNat = true ∧ t.rd F.PW_RESET_STATUS_busy = 1))) ∧
      (∀ b, 1 ≤ b → b < 14 → s.pw.blkCmd = some b → ∃ t, exec .blockResetComplete s = .next t ∧ t.pw.blkCmd = none ∧ b ∉ t.pw.blk
        ∧ t.rd F.PW_RESET_STATUS_busy = 0 ∧ t.rd F.PW_RESET_STATUS_result = 0) ∧
      (s.pw.blkCmd = some 3 → ∃ t, exec .blockResetComplete s = .next t ∧ t.pw.blkCmd = none ∧ 3 ∉ t.pw.blk ∧ t.keys = s.keys
        ∧ t.rows = s.rows ∧ t.rd F.PW_RESET_STATUS_busy = 0 ∧ ((∀ e, e < 17 → s.fenced (.engine e) = false) → t.ctxs = [] ∧ t.allocs = []
          ∧ t.trees = [] ∧ t.ge = {})) ∧
      (s.glb.dev = .boot → s.pw.straps.bootSrc = true →
        (∀ (v : Word) (a : Nat), s.rd F.PW_BOOT_ADDR_addr = a → ∃ t, exec (.bootDataWrite r v) s = .next t
          ∧ t.pw.bootImg.get 0 (a / 4 * 4) = v.toNat ∧ t.rd F.PW_BOOT_ADDR_addr = (a + 4) % 2 ^ F.PW_BOOT_ADDR_addr.w) ∧
        (∃ t, exec (.bootGo r 1) s = .next t ∧ t.pw = { s.pw with bootGo := true } ∧ t.rd F.PW_BOOT_STATUS_stage = 2) ∧
        (exec (.bootGo r 0) s = .next s)) ∧
      (s.glb.dev = .boot →
        (∀ l : BootLoad, s.rd F.PW_BOOT_STATUS_stage < 3 → s.pw.straps.bootSrc = false → l.headerOk = true → l.imhusVerified = true →
          l.recordOk = true → ∃ t, exec (.bootLoadComplete l) s = .next t ∧ t.rd F.PW_BOOT_STATUS_stage = 4
            ∧ t.rd F.PW_BOOT_STATUS_imhus = b2n l.imhusPresent ∧ t.rd F.PW_BOOT_STATUS_fallback = 0 ∧ t.pw.keys = l.keysOk.toNat) ∧
        (∀ (l : BootLoad) (fb : Bool) (im : Nat) (e : Option Nat), s.rd F.PW_BOOT_STATUS_stage < 3 →
          s.pw.straps.bootSrc = false ∨ s.pw.bootGo = true → loadOutcome l (s.on F.PW_BOOT_STATUS_auth_req) = (fb, im, e) →
          ∃ t, exec (.bootLoadComplete l) s = .next t ∧ t.rd F.PW_BOOT_STATUS_fallback = b2n fb ∧ t.rd F.PW_BOOT_STATUS_imhus = im
            ∧ t.pw.keys = l.keysOk.toNat ∧ (e = none → l.recordOk = true → t.rd F.PW_BOOT_STATUS_stage = 4)
            ∧ (e = none → l.recordOk = false → t.rd F.PW_BOOT_STATUS_stage = 5 ∧ t.rd F.PW_BOOT_STATUS_error = 3)
            ∧ (∀ n, e = some n → t.rd F.PW_BOOT_STATUS_stage = 3 ∧ t.rd F.PW_BOOT_STATUS_error = n)) ∧
        (∀ ok v, s.rd F.PW_BOOT_STATUS_stage = 4 → ∃ t, exec (.memoryTrainingComplete ok v) s = .next t
          ∧ t.rd F.PW_BOOT_STATUS_stage = 5 ∧ t.rd F.PW_BOOT_STATUS_deep_ok = b2n (ok && deepLegal v.toNat) ∧ t.rd F.BM_DEEP_CFG_capacity = bits v.toNat 23 16) ∧
        (s.rd F.PW_BOOT_STATUS_stage = 5 → ∃ t, exec (.bootSelfTestComplete 0 0 true) s = .next t ∧ t.glb.dev = .ready
          ∧ t.rd F.PW_BOOT_STATUS_stage = 6 ∧ t.rd F.GLB_FEAT_OFFER_offer = 0x34FF
            + (if s.rd F.PW_BOOT_STATUS_imhus = 1 then 0x300 else 0) + (if s.on F.PW_BOOT_STATUS_deep_ok then 0x800 else 0)) ∧
        (∀ (ef : BitVec 17) (cf : BitVec 128) (rows : Bool) (ne nc : Nat), s.rd F.PW_BOOT_STATUS_stage = 5 →
          ((List.range 17).filter (bit ef.toNat)).length = ne → ((List.range 128).filter (bit cf.toNat)).length = nc →
          ∃ t, exec (.bootSelfTestComplete ef cf rows) s = .next t ∧ t.rd F.PW_BOOT_STATUS_eng_fail = ne
            ∧ (ne ≤ 1 → nc ≤ 8 → rows = true → t.glb.dev = .ready ∧ t.rd F.PW_BOOT_STATUS_stage = 6)
            ∧ (1 < ne ∨ 8 < nc ∨ rows = false → t.glb.dev = .boot ∧ t.rd F.PW_BOOT_STATUS_error = 5))))

/-! ### Serial lanes, interrupts, counters -/

/-- From R428 to R447: bring-up, its time limit, losses, patterns, recalibration and retraining of the lanes; a rope lane in training sends the
training pattern, and has group lock once it has seen a comma or 64 valid headers.
Where a clause meets a point that the spec leaves to inference it states the model's choice: log entries 66, 113, 116, 127 and 130. -/
def Obligations.LanesComeUpAreLostAndRecalibrate : Prop :=
  ∀ (s : State) (r : Requester) (l : LaneNo), s.Powered → IsHost r → s.owns r = true → s.AllUp → s.on F.SL_CMD_STATUS_busy = false →
    (∀ v : Word, patOk l (bits v.toNat 11 8) = true →
      ((s.lane l).st = .off → (isRope l = true → s.glb.dev ≠ .bivouac) → ∃ t, exec (.laneEnable r l v) s = .next t
        ∧ (t.lane l).st = (if isPon l then .calibrating else .training) ∧ t.rd F.SL_LANE_CTRL_en l = 1
        ∧ t.rd F.SL_LANE_CTRL_pat l = bits v.toNat 11 8 ∧ (t.lane l).from_ = s.ts.run
        ∧ t = { s with rf := t.rf, lanes := t.lanes, out := t.out, pr := { s.pr with ropes := t.pr.ropes, scr := t.pr.scr } }
        ∧ (isRope l = true → (s.lane l).grp = false →
            (t.lane l).send = .training ∧ Out.groups l (trainGroups (s.pr.scr.get 0 l)).2 ∈ t.out)) ∧
      ((s.lane l).st = .off → isRope l = true → s.glb.dev = .bivouac → ∃ t, exec (.laneEnable r l v) s = .next t
        ∧ (t.lane l).st = .idle ∧ t.rd F.SL_LANE_CTRL_en l = 1 ∧ t.pr = s.pr) ∧
      ((s.lane l).st ≠ .off → ∃ t, exec (.laneEnable r l v) s = .next t ∧ (t.lane l).st = (s.lane l).st ∧ t.rd F.SL_LANE_CTRL_en l = 1) ∧
      (∃ t, exec (.laneDisable r l v) s = .next t
        ∧ t.lane l = { edgeAt := if (s.lane l).st = .up then s.ts.run else (s.lane l).edgeAt } ∧ t.rd F.SL_LANE_CTRL_en l = 0 ∧ t.fenced (.lane l) = false
        ∧ ((s.lane l).st = .up → s.Room 10 l → t.Raised 10 l 0x9002 3)) ∧
      (s.glb.dev = .ready ∨ s.glb.dev = .test → s.laneFree l = true → bit v.toNat 6 = true →
        ((isPon l = true ∧ s.rd F.SL_LANE_CTRL_loop l ≠ 1) ∨ (isPon l = false ∧ bits v.toNat 5 4 ≠ 1)) → ∃ t, exec (.errorInject r l v) s = .next t
        ∧ Out.errorBit l ∈ t.out)) ∧
    (∀ v : Word, patOk l (bits v.toNat 11 8) = false → bits v.toNat 11 8 ≠ s.rd F.SL_LANE_CTRL_pat l →
      exec (.laneEnable r l v) s = .next (s.wr F.SL_CMD_STATUS_result 4)) ∧
    ((s.lane l).st = .calibrating ∨ (s.lane l).st = .training → (isRope l = true → (s.lane l).grp = true) →
      (isRope l = true → ∃ t, exec (.laneUp ⟨l, true⟩) s = .next t ∧ t = { s with rf := t.rf, pm := t.pm }
        ∧ t.rd F.PR_ROPE_ERR_errored ((l.val - 160) / 8) = min 65535 (s.rd F.PR_ROPE_ERR_errored ((l.val - 160) / 8) + 1)) ∧
      ∀ sk, (isRope l = true → sk = false) → ∃ t, exec (.laneUp ⟨l, sk⟩) s = .next t ∧ (t.lane l).st = .up
      ∧ (s.Room 10 l → t.Raised 10 l 0x9001 (s.lane l).st.code)) ∧
    (s.ts.run < (s.lane l).from_ + bringUp l → exec (.laneBringupTimeout l) s = .next s) ∧
    (isPon l = true → (s.lane l).from_ + bringUp l ≤ s.ts.run → (s.lane l).st = .calibrating → (s.lane l).failedOnce = false → s.Room 10 l →
      ∃ t, exec (.laneBringupTimeout l) s = .next t ∧ (t.lane l).st = .off ∧ (t.lane l).failedOnce = true
        ∧ t.rd F.SL_LANE_CAL_cal_fail l = 1 ∧ t.Raised 10 l 0x9021 0) ∧
    (isPon l = true → (s.lane l).from_ + bringUp l ≤ s.ts.run → (s.lane l).st = .calibrating → (s.lane l).failedOnce = true → s.fenced (.lane l) = false →
      ∃ t, exec (.laneBringupTimeout l) s = .next t ∧ (t.lane l).st = .fenced ∧ t.fenced (.lane l) = true) ∧
    (isPon l = false → (s.lane l).from_ + bringUp l ≤ s.ts.run → (s.lane l).st = .training ∨ (s.lane l).st = .calibrating → s.Room 10 l →
      ∃ t, exec (.laneBringupTimeout l) s = .next t ∧ (t.lane l).st = .absent ∧ t.Raised 10 l 0x9003 0) ∧
    (∀ c : LossCause, (s.lane l).st = .up → s.fenced (.lane l) = false → s.Room 10 l →
      ((s.tally (.lane l)).hit.total < s.threshold → ∃ t, exec (.laneLoss l c) s = .next t
        ∧ (t.lane l).st = (if isPon l then .calibrating else .training) ∧ (t.lane l).aligned = false ∧ (c = .cdr → (t.lane l).cdr = false)
        ∧ (c ≠ .alignment → (t.lane l).grp = false) ∧ t.Raised 10 l 0x9002 (match c with
            | .cdr => 0
            | .group => 1
            | .alignment => 2)) ∧
      (s.threshold ≤ (s.tally (.lane l)).hit.total → ∃ t, exec (.laneLoss l c) s = .next t ∧ (t.lane l).st = .fenced
        ∧ t.fenced (.lane l) = true)) ∧
    ((s.lane l).st = .absent → s.ts.run < (s.lane l).retryAt → exec (.laneRetrain l) s = .next s) ∧
    ((s.lane l).st = .absent → s.on F.SL_LANE_CTRL_en l = true → (s.lane l).retryAt ≤ s.ts.run → ∃ t, exec (.laneRetrain l) s = .next t
      ∧ t = { s with lanes := t.lanes, out := t.out, pr := { s.pr with ropes := t.pr.ropes, scr := t.pr.scr } } ∧ (t.lane l).from_ = s.ts.run
      ∧ (t.lane l).st = .training ∧ (t.lane l).retryAt = (s.lane l).retryAt + second
      ∧ (isRope l = true → (s.lane l).grp = false →
          (t.lane l).send = .training ∧ Out.groups l (trainGroups (s.pr.scr.get 0 l)).2 ∈ t.out)) ∧
    (∀ n, n = (l.val - 160) / 8 → isRope l = true → s.on F.SL_LANE_CTRL_en l = true → (s.lane l).st = .up → (s.rope n).st = 3 →
      (l.val - 160) % 8 ∈ (s.rope n).lanes → (s.rope n).from_ + second ≤ s.ts.run → ∃ t, exec (.laneRetrain l) s = .next t
        ∧ (t.lane l).st = .training ∧ (t.rope n).st = 0 ∧ (t.rope n).lanes = []) ∧
    (∀ gs : List (BitVec 20), 160 ≤ l.val → (s.lane l).st = .training → (s.lane l).grp = false →
      (lockAt gs = none → exec (.groupLock ⟨l, gs⟩) s = .next (s.setLane l { s.lane l with slip := ((s.lane l).slip + 1) % 20 })) ∧
      ((∃ g ∈ gs, g.toNat = comma) ∨ (64 ≤ gs.length ∧ ∀ g ∈ gs, headerOk g.toNat = true) → ∃ t, exec (.groupLock ⟨l, gs⟩) s = .next t
        ∧ t = { s with lanes := t.lanes, out := t.out } ∧ (t.lane l).st = .training ∧ (t.lane l).cdr = true ∧ (t.lane l).grp = true
        ∧ (t.lane l).send = .frames)) ∧
    (s.on F.SL_LANE_CTRL_chk_en l = true → (s.lane l).chk = false → ∃ t, exec (.checkerLock l) s = .next t
      ∧ t.lane l = { s.lane l with chk := true, flipAt := s.ts.run }) ∧
    (s.on F.SL_LANE_CTRL_chk_en l = false ∨ (s.lane l).chk = true → exec (.checkerLock l) s = .next s) ∧
    (∃ t, exec (.checkerLockLoss l) s = .next t ∧ t.lane l = { s.lane l with chk := false }) ∧
    (∀ n : BitVec 8, (n.toNat < 176 → ∃ t, exec (.laneQuery r n) s = .next t ∧ t = { s with rf := t.rf }
        ∧ t.rd F.SL_CMD_STATUS_result = 0 ∧ t.rd F.SL_CMD_STATUS_lane = n.toNat) ∧
      (175 < n.toNat → ∃ t, exec (.laneRecalibrate r n) s = .next t ∧ t = { s with rf := t.rf } ∧ t.rd F.SL_CMD_STATUS_result = 2) ∧
      (isPrx n.toNat = true → s.glb.dev ≠ .boot → s.glb.dev ≠ .safe → ∃ t, exec (.laneRecalibrate r n) s = .next t ∧ (t.lane n.toNat).cal = true
        ∧ (t.lane n.toNat).steps = 0 ∧ (t.lane n.toNat).st = (s.lane n.toNat).st ∧ t.rd F.SL_CMD_STATUS_result = 0) ∧
      (isPrx n.toNat = false → n.toNat < 176 → s.glb.dev ≠ .ready → s.glb.dev ≠ .test → ∃ t, exec (.laneRecalibrate r n) s = .next t
        ∧ t = { s with rf := t.rf } ∧ t.rd F.SL_CMD_STATUS_result = 3) ∧
      (isPrx n.toNat = false → n.toNat < 176 → s.glb.dev = .ready ∨ s.glb.dev = .test → ∃ t, exec (.laneRecalibrate r n) s = .next t
        ∧ t.rd F.SL_CMD_STATUS_result = 0
        ∧ (t.lane n.toNat).st = (if (s.lane n.toNat).st = .off ∨ (s.lane n.toNat).st = .fenced then (s.lane n.toNat).st
            else .calibrating)) ∧
      (isPon n.toNat = true → ∃ t, exec (.retrainNow r n) s = .next t ∧ t = { s with rf := t.rf } ∧ t.rd F.SL_CMD_STATUS_result = 4) ∧
      (isPon n.toNat = false → n.toNat < 176 → s.glb.dev ≠ .boot → s.glb.dev ≠ .safe → (s.lane n.toNat).st ≠ .off →
        (s.lane n.toNat).st ≠ .fenced → (isRope n.toNat = true → s.glb.dev ≠ .bivouac) → ∃ t, exec (.retrainNow r n) s = .next t ∧ (t.lane n.toNat).st = .training
          ∧ t.rd F.SL_CMD_STATUS_result = 0
          ∧ ((s.lane n.toNat).st = .up → s.Room 10 n.toNat → t.Raised 10 n.toNat 0x9002 5))) ∧
    (∀ p : Port,
      (s.ts.run < (s.lane (64 + p)).calDue → exec (.calibrationStart p) s = .next s) ∧
      (s.on F.UB_TREE_CFG_rx_en p = true → (s.lane (64 + p)).calDue ≤ s.ts.run → (s.lane (64 + p)).cal = false →
        ∃ t, exec (.calibrationStart p) s = .next t
        ∧ (t.lane (64 + p)).calDue = s.ts.run + max 1 (s.rd F.SL_CTRL_cal_period) * millisecond ∧ (t.lane (64 + p)).cal = true ∧ (t.lane (64 + p)).steps = 0) ∧
      (s.on F.UB_TREE_CFG_rx_en p = true → (s.lane (64 + p)).calDue ≤ s.ts.run → (s.lane (64 + p)).cal = true → s.Room 10 (64 + p) →
        ∃ t, exec (.calibrationStart p) s = .next t ∧ t.rd F.SL_LANE_CAL_cal_late (64 + p) = 1
          ∧ t.Raised 10 (64 + p) 0x9020 (s.lane (64 + p)).steps) ∧
      (∀ q len : Nat, (s.lane (64 + p)).cal = true →
        (s.receiving p = false ∨ s.mayCalibrate p q len = true → ∃ t, exec (.calibrationStep p ⟨q, len⟩) s = .next t
          ∧ (t.lane (64 + p)).steps = (s.lane (64 + p)).steps + 1
          ∧ (t.lane (64 + p)).cal = decide ((s.lane (64 + p)).steps + 1 < 64) ∧ t = { s with lanes := t.lanes }) ∧
        (s.receiving p = true → s.mayCalibrate p q len = false → exec (.calibrationStep p ⟨q, len⟩) s = .next s)) ∧
      (∀ b, (s.rx p).armed = [b] → s.receiving p = true → ∀ q len, exec (.calibrationStep p ⟨q, len⟩) s = .next s))

/-- From R471 to R486: doorbells, entries, claims and completions in their nesting, auto-completing vectors, watches, wakes, configuration.
Where a clause meets a point that the spec leaves to inference it states the model's choice: log entry 42. -/
def Obligations.InterruptsArePendedClaimedAndCompleted : Prop :=
  ∀ (s : State), s.Powered → s.AllUp →
    (∀ (r : Requester) (src : BitVec 13), r = .block ∨ (IsHost r ∧ 32 ≤ src.toNat) → s.ic.entry.get none (s.icTarget src.toNat) = none →
      (s.watchOf src.toNat = none ∨ s.glb.dev ≠ .bivouac → ∃ t, exec (.doorbell r src) s = .next t ∧ src.toNat ∈ t.ic.pend
        ∧ (∀ m, m ∈ s.ic.pend → m ∈ t.ic.pend) ∧ t.ic.stack = s.ic.stack ∧ t = { s with ic := t.ic, hd := t.hd, out := t.out }) ∧
      (∀ w, s.watchOf src.toNat = some w → s.glb.dev = .bivouac → s.on F.IC_WATCH_wake_run w = true →
        s.Room 12 (s.icTarget src.toNat) → ∃ t, exec (.doorbell r src) s = .next t
          ∧ t.Raised 12 (s.icTarget src.toNat) 0xB003 src.toNat)) ∧
    (∀ src : BitVec 13, src.toNat < 32 → exec (.doorbell .pf src) s = .next (s.wr F.IC_STATUS_refused 1)
      ∧ exec (.doorbell .guide src) s = .next (s.wr F.IC_STATUS_refused 1)) ∧
    (∀ (t : Fin 4) (n : Nat), s.icAsleep t = false → s.icBest t = some n → ∃ u, exec (.guideCoreEntry t) s = .next u
      ∧ u.icStack t = (n, s.icPrio n) :: s.icStack t ∧ n ∉ u.ic.pend ∧ u.icThresh t = s.icPrio n ∧ Out.coreEntry t n ∈ u.out) ∧
    (∀ t : Fin 68, s.icExplicit t = false → exec (.claimRead .pf t) s = .next { s with rdata := 0 }) ∧
    (∀ (t : Fin 4) (n p : Nat) (rest : List (Nat × Nat)) (src : BitVec 13), s.icStack t = (n, p) :: rest → src.toNat = n →
      ∃ u, exec (.completeWrite .guide (Fin.ofNat 68 t.val) src) s = .next u
        ∧ (u.icStack t = rest ∨ ∃ m, u.icStack t = (m, s.icPrio m) :: rest ∧ Out.coreEntry t m ∈ u.out)) ∧
    (∀ t : Fin 68, s.icExplicit t = true →
      (s.icBest t = none → exec (.claimRead .pf t) s = .next { s with rdata := 0 }) ∧
      (∀ n, s.icBest t = some n → ∃ u, exec (.claimRead .pf t) s = .next u ∧ u.rdata = 2 ^ 31 + s.icPrio n * 2 ^ 16 + n
        ∧ u.icStack t = (n, s.icPrio n) :: s.icStack t ∧ n ∉ u.ic.pend ∧ (∀ m, m ≠ n → m ∈ s.ic.pend → m ∈ u.ic.pend)) ∧
      (∀ (n p : Nat) (rest : List (Nat × Nat)) (src : BitVec 13), s.icStack t = (n, p) :: rest →
        (src.toNat = n → ∃ u, exec (.completeWrite .pf t src) s = .next u ∧ u.icStack t = rest ∧ u.ic.pend = s.ic.pend) ∧
        (src.toNat ≠ n → s.Room 12 t → ∃ u, exec (.completeWrite .pf t src) s = .next u ∧ u.ic = s.ic
          ∧ u.rd F.IC_TGT_STATUS_order_err t = 1 ∧ u.Raised 12 t 0xB001 src.toNat))) ∧
    (∀ t : Fin 68, s.icAuto t = true → s.icAsleep t = false → s.icReady t ≠ [] → ∃ u, exec (.msixAutoComplete t) s = .next u
      ∧ (∀ n, n ∈ u.ic.pend ↔ n ∈ s.ic.pend ∧ n ∉ s.icReady t) ∧ u.ic.stack = s.ic.stack
      ∧ ((s.msixAt (t.val - 4)).masked = false → Out.msix (t.val - 4) ((s.icFn t).getD 0) (s.msixAt (t.val - 4)).addr (s.msixAt (t.val - 4)).data ∈ u.out)
      ∧ ((s.msixAt (t.val - 4)).masked = true → u.out = s.out)) ∧
    (∀ (r : Requester) (src : BitVec 13) (v : Word), r = .guide ∨ (r = .pf ∧ isGuide (s.icTarget src.toNat) = false ∧
      isGuide (bits v.toNat 14 8) = false) → s.ic.entry.get none (bits v.toNat 14 8) = none →
      (bits v.toNat 14 8 ≤ 67 → ∃ t, exec (.srcCfgWrite r src v) s = .next t ∧ t.icTarget src.toNat = bits v.toNat 14 8
        ∧ t.icPrio src.toNat = bits v.toNat 3 0 ∧ t.rd F.IC_SRC_CFG_en src.toNat = bits v.toNat 31 31
        ∧ (bit v.toNat 30 = true → src.toNat ∉ t.ic.pend) ∧ (bit v.toNat 30 = false → t.ic.pend = s.ic.pend)) ∧
      (67 < bits v.toNat 14 8 → exec (.srcCfgWrite r src v) s = .next (s.wr F.IC_STATUS_cfg_err 1))) ∧
    (s.live = true → s.glb.level ≠ 0 → ∀ (t : Fin 4) (v : Word),
      exec (.threshWrite .pf (Fin.ofNat 68 t.val) v) s = .next (s.wr F.IC_STATUS_not_owner 1)) ∧
    (∀ (r : Requester) (t : Fin 68) (v : Word), r = .guide ∨ (r = .pf ∧ 4 ≤ t.val) → ∃ u, exec (.threshWrite r t v) s = .next u
      ∧ u.rd F.IC_TGT_THRESH_thresh t = v.toNat % 16 ∧ u.ic = s.ic) ∧
    (∀ (w : Fin 64) (v : Word) (u : Nat), bit v.toNat 31 = true → s.watchOf (bits v.toNat 12 0) = some u → u ≠ w.val →
      exec (.watchWrite .guide w v) s = .next (s.wr F.IC_STATUS_cfg_err 1)) ∧
    (∀ (w : Fin 64) (v : Word), bit v.toNat 31 = false ∨ (∀ u, s.watchOf (bits v.toNat 12 0) = some u → u = w.val) →
      ∃ t, exec (.watchWrite .guide w v) s = .next t
      ∧ t = { s with rf := t.rf } ∧ t.rd F.IC_WATCH_source w = bits v.toNat 12 0 ∧ t.rd F.IC_WATCH_valid w = bits v.toNat 31 31
      ∧ t.rd F.IC_WATCH_wake_run w = bits v.toNat 30 30) ∧
    (∀ src : BitVec 13, s.icAsleep (s.icTarget src.toNat) = true → s.icDeliverable src.toNat = true →
      (s.watchOf src.toNat).isSome = true → ∃ t, exec (.watchWake src) s = .next t
        ∧ (s.Room 12 (s.icTarget src.toNat) → t.Raised 12 (s.icTarget src.toNat) 0xB002 src.toNat)
        ∧ (isGuide (s.icTarget src.toNat) = true → t.icAsleep (s.icTarget src.toNat) = false)
        ∧ (isGuide (s.icTarget src.toNat) = false →
            Out.pme ((s.icFn (s.icTarget src.toNat)).getD 0) ∈ t.out ∧ t.ic = s.ic)) ∧
    (∀ t : Fin 68, s.icAsleep t = true → ∃ u, exec (.targetWake t) s = .next u ∧ u.icAsleep t = false)

/-- From R489, R490, R495: bead configuration, with the value cleared under the next epoch where the event changes, and the closing of a
window once its length has passed on the run count. -/
def Obligations.BeadsAreConfiguredAndWindowsClose : Prop :=
  ∀ (s : State) (r : Requester), s.Powered → IsHost r → s.owns r = true → s.AllUp →
    (∀ (b : Fin 15) (k : Fin 16) (v : Word),
      ((edgeClasses b ++ levelClasses b).contains (bits v.toNat 15 10) = false →
        exec (.beadCfgWrite r b k v) s = .next (s.wr F.PM_STATUS_cfg_err 1)) ∧
      ((edgeClasses b ++ levelClasses b).contains (bits v.toNat 15 10) = true →
        ∃ t, exec (.beadCfgWrite r b k v) s = .next t ∧ t = { s with rf := t.rf, pm := t.pm }
          ∧ t.rd F.PM_BEAD_CFG_event (b.val * 16 + k.val) = bits v.toNat 15 0
          ∧ t.rd F.PM_BEAD_CFG_tenant (b.val * 16 + k.val) = bits v.toNat 27 20
          ∧ (bit v.toNat 19 = true ∨ s.rd F.PM_BEAD_CFG_event (b.val * 16 + k.val) ≠ bits v.toNat 15 0 →
              t.pm.beads.get {} (b.val * 16 + k.val) = (s.pm.beads.get {} (b.val * 16 + k.val)).restart)
          ∧ ∀ j, j ≠ b.val * 16 + k.val → t.pm.beads.get {} j = s.pm.beads.get {} j)) ∧
    (s.windowNs < s.pm.length * 1000 → exec .windowClose s = .next s) ∧
    (s.glb.dev ≠ .boot → s.pm.length * 1000 ≤ s.windowNs → 0 < s.windowNs → s.Room 13 0 →
      ∃ t, exec .windowClose s = .next t ∧ t.pm.window = (s.pm.window + 1) % 2 ^ 32 ∧ t.pm.boundary = s.ts.run
        ∧ t.pm.stamp = s.stamp ∧ t.pm.length = max 1 (s.rd F.PM_CTRL_window_us)
        ∧ t.Raised 13 0 0xC001 ((s.pm.window + 1) % 2 ^ 32)
        ∧ (∀ i, s.blkDown (i / 16) = false → 0 < (s.pm.beads.get {} i).cnt → (t.pm.beads.get {} i).win = (s.pm.beads.get {} i).cnt
          ∧ (t.pm.beads.get {} i).winEpoch = (s.pm.beads.get {} i).epoch)
        ∧ (∀ m, m < 196 → (t.pm.meters.get {} m).cur = 0
          ∧ (t.pm.meters.get {} m).bytes = sat (2 ^ 32 - 1) (s.pm.meters.get {} m).cur))

/-! ### Host interface -/

/-- From R450 to R460: rings enabled, refused, disabled, their indexes written, by the physical function and the virtual function that owns them
alone; interrupts and loss records.
Where a clause meets a point that the spec leaves to inference it states the model's choice: log entries 22, 24 and 25. -/
def Obligations.RingsAreEnabledMovedAndDisabled : Prop :=
  ∀ (s : State) (ring : BitVec 12) (v : Word) (n : Nat), s.Powered → s.AllUp → ring.toNat = n →
    (∀ r, s.ringMay r n = false →
      exec (.ringEnable r ring v) s = .next (s.wr F.HD_STATUS_not_owner 1)
      ∧ exec (.ringDisable r ring v) s = .next (s.wr F.HD_STATUS_not_owner 1)
      ∧ exec (.ringTailWrite r ring v) s = .next (s.wr F.HD_STATUS_not_owner 1)
      ∧ exec (.ringHeadWrite r ring v) s = .next (s.wr F.HD_STATUS_not_owner 1)) ∧
    (∀ kind o, s.ringOn n = false → bit v.toNat 0 = true → bits v.toNat 2 1 = kind → bits v.toNat 23 17 = o →
      (kind ≠ 3 → 4 ≤ bits v.toNat 11 8 → o = 0 ∨ (kind ≠ 2 ∧ o ≤ 64 ∧ s.feat 10 = true ∧ s.on F.HD_VF_CFG_en (o - 1) = true) →
        ∃ t, exec (.ringEnable .pf ring v) s = .next t ∧ t = { s with rf := t.rf, hd := t.hd, out := t.out } ∧ t.ringOn n = true
          ∧ t.ringKind n = kind ∧ t.ringChan n = bits v.toNat 16 12 ∧ t.ringSize n = 2 ^ bits v.toNat 11 8 ∧ t.ringOwner n = o) ∧
      (o = 0 → kind = 3 ∨ bits v.toNat 11 8 < 4 → s.Room 11 0 → ∃ t, exec (.ringEnable .pf ring v) s = .next t
        ∧ t.ringOn n = false ∧ t.rd F.HD_RING_STATUS_error n = 1 ∧ t.Raised 11 0 0xA003 n)) ∧
    (∀ i : Fin 64, s.feat 10 = true → s.ringOwner n = i.val + 1 → s.ringOn n = false → bit v.toNat 0 = true → s.ringKind n < 2 →
      4 ≤ bits v.toNat 11 8 → s.on F.HD_VF_CFG_en i = true → ∃ t, exec (.ringEnable (.vf i) ring v) s = .next t
        ∧ t = { s with rf := t.rf, hd := t.hd, out := t.out } ∧ t.ringOn n = true ∧ t.ringKind n = s.ringKind n
        ∧ t.ringChan n = s.ringChan n ∧ t.ringSize n = 2 ^ bits v.toNat 11 8 ∧ t.ringOwner n = s.ringOwner n) ∧
    (∀ r, s.ringMay r n = true →
      (s.ringOn n = true → bit v.toNat 0 = false → ∃ t, exec (.ringDisable r ring v) s = .next t ∧ t.ringOn n = false
        ∧ (t.ringAt n).recs = [] ∧ t.ringHead n = s.ringHead n ∧ t.ringTail n = s.ringTail n) ∧
      (s.ringKind n < 2 →
        ((v.toNat % 2 ^ 16 + 2 ^ 16 - s.ringHead n) % 2 ^ 16 ≤ s.ringSize n - 1 → ∃ t, exec (.ringTailWrite r ring v) s = .next t
          ∧ t = { s with rf := t.rf, hd := t.hd, out := t.out } ∧ t.ringTail n = v.toNat % 2 ^ 16) ∧
        (s.ringSize n - 1 < (v.toNat % 2 ^ 16 + 2 ^ 16 - s.ringHead n) % 2 ^ 16 → ∃ t, exec (.ringTailWrite r ring v) s = .next t
          ∧ t.ringTail n = s.ringTail n ∧ t.rd F.HD_RING_STATUS_error n = 1) ∧
        exec (.ringHeadWrite r ring v) s = .next s) ∧
      (2 ≤ s.ringKind n → exec (.ringTailWrite r ring v) s = .next s) ∧
      (s.ringKind n = 2 → ∃ t, exec (.ringHeadWrite r ring v) s = .next t
        ∧ t = { s with rf := t.rf, hd := t.hd, out := t.out } ∧ t.ringHead n = v.toNat % 2 ^ 16)) ∧
    (s.ringKind n = 2 → s.ringOn n = true → (s.ringAt n).lost ≠ 0 → s.eventFull n = false → ∃ t, exec (.lossRecord ring) s = .next t
      ∧ (t.ringAt n).lost = 0 ∧ (s.chanRuns (s.ringChan n) = false → (t.ringAt n).events = (s.ringAt n).events
        ++ [eventWords (s.ringAt n).lostSeq 11 0 0xA010 (s.ringAt n).lost 0])) ∧
    (s.ts.run < (s.ringAt n).sinceAt + max 1 (s.rd F.HD_RING_BUF_irq_us n) * microsecond → exec (.ringIrqTimer ring) s = .next s) ∧
    ((s.ringAt n).since ≠ 0 → (s.ringAt n).sinceAt + max 1 (s.rd F.HD_RING_BUF_irq_us n) * microsecond ≤ s.ts.run →
      s.on F.HD_RING_IRQ_irq_en n = true →
      s.watchOf (s.rd F.HD_RING_IRQ_irq_src n) = none ∨ s.glb.dev ≠ .bivouac →
      s.ic.entry.get none (s.icTarget (s.rd F.HD_RING_IRQ_irq_src n)) = none →
      ∃ t, exec (.ringIrqTimer ring) s = .next t ∧ (t.ringAt n).since = 0 ∧ s.rd F.HD_RING_IRQ_irq_src n ∈ t.ic.pend)

/-- From R461 to R469: channels paused, resumed, stopped, queried and repaired; a descriptor as it comes from the host, the beats of a
transfer with the channel's ordering attributes, and its writeback without them.
Where a clause meets a point that the spec leaves to inference it states the model's choice: log entries 23 and 24. -/
def Obligations.ChannelsMoveTransfersAndWriteThemBack : Prop :=
  ∀ (s : State) (c : BitVec 5) (v : Word), s.Powered → s.AllUp →
    (s.on F.HD_CH_CTRL_en c.toNat = true → bit v.toNat 0 = true → bit v.toNat 1 = true → (s.chanAt c.toNat).st ≤ 1 ∨ (s.chanAt c.toNat).st = 4 →
      s.fenced (.chan c.toNat) = false → ∃ t, exec (.channelPause .pf c v) s = .next t ∧ t.on F.HD_CH_CTRL_pause c.toNat = true
        ∧ (t.chanAt c.toNat).st = (if (s.chanAt c.toNat).reads = 0 then 3 else 2)
        ∧ (t.chanAt c.toNat).xfer = (s.chanAt c.toNat).xfer ∧ t.rd F.HD_CH_CTRL_prio c.toNat = bits v.toNat 6 4) ∧
    (s.on F.HD_CH_CTRL_en c.toNat = true → bit v.toNat 0 = true → bit v.toNat 1 = false → s.fenced (.chan c.toNat) = false →
      (s.chanAt c.toNat).domain = false → (s.chanAt c.toNat).st = 2 ∨ (s.chanAt c.toNat).st = 3 →
      ∃ t, exec (.channelResume .pf c v) s = .next t ∧ t.on F.HD_CH_CTRL_pause c.toNat = false ∧ (t.chanAt c.toNat).st ≤ 1) ∧
    (s.on F.HD_CH_CTRL_en c.toNat = true → bit v.toNat 0 = false →
      ∃ t, exec (.channelDisable .pf c v) s = .next t ∧ t.on F.HD_CH_CTRL_en c.toNat = false
        ∧ ((s.chanAt c.toNat).st ≤ 4 → (s.chanAt c.toNat).xfer = none ∨ (s.chanAt c.toNat).reads = 0 → (t.chanAt c.toNat).st = 0)) ∧
    (s.on F.HD_CH_CMD_STATUS_busy = false →
      (∃ t, exec (.channelQuery .pf c) s = .next t ∧ t = { s with rf := t.rf } ∧ t.rd F.HD_CH_CMD_STATUS_result = 0
        ∧ t.rd F.HD_CH_CMD_STATUS_chan = c.toNat) ∧
      (s.fenced (.chan c.toNat) = false → ∃ t, exec (.channelRepair .pf c) s = .next t ∧ t = { s with rf := t.rf }
        ∧ t.rd F.HD_CH_CMD_STATUS_result = 2) ∧
      (s.fenced (.chan c.toNat) = true → s.waiting 11 c.toNat < 15 → ∃ t, exec (.channelRepair .pf c) s = .next t
        ∧ t.fenced (.chan c.toNat) = false ∧ (t.chanAt c.toNat).st = 0 ∧ t.on F.HD_CH_CTRL_en c.toNat = false
        ∧ t.rd F.HD_CH_CMD_STATUS_result = 0 ∧ t.Raised 11 c.toNat 0xA002 0) ∧
      (∀ x, (s.chanAt c.toNat).xfer = some x → x.stage ≠ .back → s.ringKind x.ring = 2 → (s.chanAt c.toNat).reads = 0 → (s.chanAt c.toNat).st ≤ 4 →
        ∃ t, exec (.channelStop .pf c) s = .next t ∧ t.on F.HD_CH_CTRL_en c.toNat = false ∧ (t.chanAt c.toNat).st = 0
          ∧ t.rd F.HD_CH_CMD_STATUS_result = 0 ∧ (t.chanAt c.toNat).xfer = none ∧ t.ringTail x.ring = s.ringTail x.ring
          ∧ (t.ringAt x.ring).events.length = (s.ringAt x.ring).events.length + 1) ∧
      (∀ x, (s.chanAt c.toNat).xfer = some x → x.stage ≠ .back → s.ringKind x.ring ≠ 2 → (s.chanAt c.toNat).reads = 0 → (s.chanAt c.toNat).st ≤ 4 →
        ∃ t, exec (.channelStop .pf c) s = .next t ∧ t.on F.HD_CH_CTRL_en c.toNat = false ∧ (t.chanAt c.toNat).st = 0
          ∧ t.rd F.HD_CH_CMD_STATUS_result = 0 ∧ ∃ y, (t.chanAt c.toNat).xfer = some y ∧ y.stage = .back ∧ y.status = 4)) ∧
    (∀ x, (s.chanAt c.toNat).xfer = some x →
      (∀ d : List Byte, (s.chanAt c.toNat).reads ≠ 0 → x.stage = .desc → s.ringKind x.ring = 0 → d.length = 32 →
        ((s.ringAt x.ring).spoilt = 0 → 0 < leNat ((d.drop 8).take 2) → leNat ((d.drop 8).take 2) ≤ 16383 → ∃ t y, exec (.readCompletion c d true) s = .next t
          ∧ (t.chanAt c.toNat).xfer = some y ∧ y.stage = .read ∧ y.addr = leNat (d.take 8) ∧ y.len = leNat ((d.drop 8).take 2)
          ∧ y.eop = bit (leNat ((d.drop 10).take 1)) 0 ∧ y.stampReq = bit (leNat ((d.drop 10).take 1)) 1) ∧
        ((s.ringAt x.ring).spoilt = 0 → leNat ((d.drop 8).take 2) = 0 ∨ 16383 < leNat ((d.drop 8).take 2) → ∃ t y,
          exec (.readCompletion c d true) s = .next t ∧ (t.chanAt c.toNat).xfer = some y ∧ y.stage = .back ∧ y.status = 2
          ∧ (t.ringAt x.ring).part = []) ∧
        ((s.ringAt x.ring).spoilt ≠ 0 → ∃ t y, exec (.readCompletion c d true) s = .next t ∧ (t.chanAt c.toNat).xfer = some y
          ∧ y.stage = .back ∧ y.status = (s.ringAt x.ring).spoilt)) ∧
      (∀ d g rest, (s.chanAt c.toNat).reads ≠ 0 → x.stage = .desc → s.ringKind x.ring = 1 → d.length = 32 →
        (s.ringAt x.ring).recs = g :: rest → ∃ t y, exec (.readCompletion c d true) s = .next t ∧ (t.chanAt c.toNat).xfer = some y
          ∧ y.stage = .write ∧ y.addr = leNat (d.take 8) ∧ (t.ringAt x.ring).recs = rest ∧ y.stamp = g.stamp
          ∧ y.data = g.bytes.take (max 1 (s.rd F.HD_RING_BUF_buf_units x.ring) * 64)) ∧
      (∀ d ok, (s.chanAt c.toNat).reads ≠ 0 → x.stage = .desc → ok = false ∨ d.length ≠ 32 → ∃ t y, exec (.readCompletion c d ok) s = .next t
        ∧ (t.chanAt c.toNat).xfer = some y ∧ y.stage = .back ∧ y.status = 3) ∧
      (∀ d, (s.chanAt c.toNat).reads ≠ 0 → x.stage = .read → x.status ≠ 3 → ∃ t y, exec (.readCompletion c d true) s = .next t
        ∧ (t.chanAt c.toNat).xfer = some y ∧ y.stage = .read ∧ y.buf = x.buf ++ d.take (x.asked - (x.moved + x.buf.length))) ∧
      (∀ d, (s.chanAt c.toNat).reads ≠ 0 → x.stage = .read → ∃ t y, exec (.readCompletion c d false) s = .next t
        ∧ (t.chanAt c.toNat).xfer = some y ∧ y.status = 3) ∧
      (∀ d ok, (s.chanAt c.toNat).reads ≠ 0 → x.stage = .flush → ok = true ∨ s.ringKind x.ring ≠ 2 → ∃ t y,
        exec (.readCompletion c d ok) s = .next t ∧ (t.chanAt c.toNat).xfer = some y ∧ y.stage = .back ∧ y.status = (if ok then 0 else 3)) ∧
      (∀ d, (s.chanAt c.toNat).reads ≠ 0 → x.stage = .flush → s.ringKind x.ring = 2 → ∃ t, exec (.readCompletion c d false) s = .next t
        ∧ t.ringTail x.ring = s.ringTail x.ring ∧ (t.ringAt x.ring).lost = (s.ringAt x.ring).lost + 1) ∧
      (s.chanRuns c.toNat = true → x.beatReady (s.chanAt c.toNat).reads = true →
        s.hd.movers.contains c.toNat = true ∨ s.hd.movers.length < 8 →
        (x.stage = .read → (s.ringAt x.ring).spoilt = 0 →
          (s.ringAt x.ring).part.length + min 64 x.buf.length ≤ 16383 →
          (x.moved + min 64 x.buf.length < x.len → ∃ t y, exec (.beatMove c) s = .next t ∧ (t.chanAt c.toNat).xfer = some y
            ∧ y.moved = x.moved + min 64 x.buf.length
            ∧ (t.ringAt x.ring).part = (s.ringAt x.ring).part ++ x.buf.take (min 64 x.buf.length)) ∧
          (x.len ≤ x.moved + min 64 x.buf.length → x.eop = true → ∃ t, exec (.beatMove c) s = .next t
            ∧ t.hd.inject = s.hd.inject ++ [⟨x.ring, (s.ringAt x.ring).part ++ x.buf.take (min 64 x.buf.length), c.toNat, x.stampReq⟩]
            ∧ (t.ringAt x.ring).part = [] ∧ (t.ringAt x.ring).owed = (s.ringAt x.ring).owed ++ [{ x with
              stage := .held, buf := x.buf.drop (min 64 x.buf.length), moved := x.moved + min 64 x.buf.length }])) ∧
        (x.stage = .write → s.tagFree = true → x.moved = 0 → x.issued = 0 → x.data.length ≤ 64 → ∃ t y, exec (.beatMove c) s = .next t
          ∧ Out.hostWrite (s.ringOwner x.ring) x.addr x.data (if x.loss then {} else
              ⟨s.on F.HD_CH_CTRL_ro_en c.toNat, s.on F.HD_CH_CTRL_ns_en c.toNat⟩) ∈ t.out ∧ (t.chanAt c.toNat).xfer = some y
          ∧ (s.on F.HD_CH_CTRL_ro_en c.toNat = false → y.stage = .back ∧ y.status = 0)
          ∧ (s.on F.HD_CH_CTRL_ro_en c.toNat = true → y.stage = .flush))) ∧
      ((s.chanAt c.toNat).reads = 0 → x.stage = .back → s.owing c.toNat = [] → (s.ringAt x.ring).owed = [] → s.mayWrite c.toNat x = true →
        (s.ringKind x.ring = 2 → ∃ t, exec (.descriptorWriteback c) s = .next t
          ∧ t.ringTail x.ring = (s.ringTail x.ring + 1) % 2 ^ 16) ∧
        (s.ringKind x.ring ≠ 2 → x.gone = false → ∃ t, exec (.descriptorWriteback c) s = .next t
          ∧ (∀ p ∈ s.backParts x, Out.hostWrite (s.ringOwner x.ring) (s.ringBase x.ring + x.desc * 32 + p.1) p.2 {} ∈ t.out)
          ∧ t.ringHead x.ring = (s.ringHead x.ring + 1) % 2 ^ 16))) ∧
    (∀ r rest x q, s.owing c.toNat = r :: rest → s.owedReady r = some (q, x) → s.mayWrite c.toNat x = true → x.gone = false →
      ∃ t, exec (.descriptorWriteback c) s = .next t
        ∧ (∀ p ∈ s.backParts x, Out.hostWrite (s.ringOwner x.ring) (s.ringBase x.ring + x.desc * 32 + p.1) p.2 {} ∈ t.out)
        ∧ (t.ringAt r).owed = (s.ringAt r).owed.tail ∧ t.ringHead x.ring = (s.ringHead x.ring + 1) % 2 ^ 16) ∧
    (∀ x, (s.chanAt c.toNat).xfer = some x → s.owing c.toNat = [] → x.status ≠ 4 →
      s.on F.HD_CH_CTRL_pause c.toNat = true ∨ (s.chanAt c.toNat).domain = true → exec (.descriptorWriteback c) s = .next s)

/-- From R448 to R454, R486: the link, the function-level resets, the functions' tenants and vectors, the unmapped accesses.
Where a clause meets a point that the spec leaves to inference it states the model's choice: log entries 25 and 26. -/
def Obligations.FunctionsAndTheLink : Prop :=
  ∀ (s : State), s.Powered → s.AllUp →
    (∀ f : Fin 64, (∀ c, (s.chanAt c).xfer = none) → s.hd.flrs = [] → s.Room 11 (f.val + 1) → ∃ t n, exec (.vfFlr f) s = .next t
      ∧ (∀ g ∈ s.ringsOn, s.ringOwner g = f.val + 1 → t.ringOn g = false ∧ t.ringHead g = 0 ∧ t.ringTail g = 0 ∧ t.ringAt g = {})
      ∧ (∀ g ∈ s.ringsOn, s.ringOwner g ≠ f.val + 1 → t.ringOn g = true ∧ t.ringAt g = s.ringAt g)
      ∧ (∀ m ∈ t.ic.pend, s.icFn (s.icTarget m) ≠ some (f.val + 1)) ∧ t.Raised 11 (f.val + 1) 0xA004 n) ∧
    (∀ f : Fin 64, ∃ t, exec (.vfFlr f) s = .next t
      ∧ ∀ g ∈ s.ringsOn, s.ringOwner g = f.val + 1 → t.ringOn g = false ∧ t.ringHead g = 0 ∧ t.ringTail g = 0) ∧
    (∃ t, exec .pfFlr s = .next t ∧ ∀ g ∈ s.ringsOn, t.ringOn g = false) ∧
    ((∀ c, (s.chanAt c).xfer = none) → s.hd.flrs = [] → s.Room 11 0 → ∃ t n, exec .pfFlr s = .next t ∧ (∀ g ∈ s.ringsOn, t.ringOn g = false)
      ∧ (∀ i : Fin 64, t.rd F.HD_VEC_MAP_valid i = 0 ∧ t.rd F.HD_VF_CFG_en i = 0 ∧ t.rd F.IC_TGT_THRESH_thresh (i.val + 4) = 0)
      ∧ t.Raised 11 0 0xA004 n) ∧
    (∃ t, exec .pcieLinkDown s = .next t ∧ t.hd = {} ∧ (∀ ring : BitVec 12, t.ringOn ring.toNat = false)
      ∧ (∀ c : BitVec 5, t.on F.HD_CH_CTRL_en c.toNat = false) ∧ (∀ m ∈ t.ic.pend, m ∈ s.ic.pend)) ∧
    (∀ (sp : BitVec 3) (w : BitVec 4),
      (1 ≤ sp.toNat → sp.toNat ≤ 5 → w.toNat = 1 ∨ w.toNat = 2 ∨ w.toNat = 4 ∨ w.toNat = 8 → ∃ t, exec (.pcieLinkUp sp w) s = .next t
        ∧ t.hd.link = true ∧ t.rd F.HD_STATUS_speed = sp.toNat ∧ t.rd F.HD_STATUS_width = w.toNat)) ∧
    (∀ (i : Fin 64) (v : Word),
      (s.feat 10 = false → exec (.vfCfgWrite .pf i v) s = .next s) ∧
      (s.feat 10 = true → (∀ g ∈ s.ringsOn, s.ringOwner g ≠ i.val + 1) → ∃ t, exec (.vfCfgWrite .pf i v) s = .next t ∧ t = { s with rf := t.rf }
        ∧ t.rd F.HD_VF_CFG_tenant i = bits v.toNat 7 0 ∧ t.rd F.HD_VF_CFG_en i = bits v.toNat 8 8) ∧
      (s.feat 10 = true → (∃ g ∈ s.ringsOn, s.ringOwner g = i.val + 1) → bits v.toNat 7 0 ≠ s.rd F.HD_VF_CFG_tenant i →
        exec (.vfCfgWrite .pf i v) s = .next (s.wr F.HD_STATUS_cfg_err 1)) ∧
      (bits v.toNat 6 0 = 0 ∨ bit v.toNat 7 = false → bits v.toNat 6 0 ≤ 64 → ∃ t, exec (.vecMapWrite .pf i v) s = .next t
        ∧ t = { s with rf := t.rf, hd := t.hd, out := t.out } ∧ t.rd F.HD_VEC_MAP_valid i = bits v.toNat 7 7
        ∧ t.rd F.HD_VEC_MAP_fn i = bits v.toNat 6 0) ∧
      ((∃ j : Fin 64, j ≠ i ∧ s.on F.HD_VEC_MAP_valid j = true ∧ s.rd F.HD_VEC_MAP_fn j = bits v.toNat 6 0) →
        bits v.toNat 6 0 ≠ 0 → bit v.toNat 7 = true → exec (.vecMapWrite .pf i v) s = .next (s.wr F.HD_STATUS_cfg_err 1))) ∧
    (∀ (f : Fin 64) (off : BitVec 16), s.feat 10 = true → vfMapped off.toNat = false → s.Room 11 (f.val + 1) →
      (∃ t, exec (.vfUnmappedAccess f off false) s = .next t ∧ t.rdata = 0 ∧ t.Raised 11 (f.val + 1) 0xA005 off.toNat) ∧
      (∃ t, exec (.vfUnmappedAccess f off true) s = .next t ∧ t.rdata = s.rdata ∧ t.Raised 11 (f.val + 1) 0xA005 off.toNat))

/-! ### Pair and cascade -/

/-- From R372 to R375, R388 to R390, R373, R407, R409: the belay lines, health records, takeover, holdover.
Where a clause meets a point that the spec leaves to inference it states the model's choice: log entries 50 and 69. -/
def Obligations.BelayHealthAndTakeover : Prop :=
  ∀ (s : State), s.Powered → s.AllUp → s.watchOf 5 = none ∨ s.glb.dev ≠ .bivouac → s.waiting 9 0 < 12 →
    (s.belay.seen = false → ∃ t, exec .belaySeenEdge s = .next t ∧ t.belay.seen = true ∧ t.belay.laser = false
      ∧ (s.belay.claim = true → s.glb.modeIn = true → s.glb.dev = .run → s.glb.role = .active →
          (s.pw.straps.pairId.toNat % 2 = 1 → t.belay.claim = false ∧ t.glb.role = .standby) ∧
          (s.pw.straps.pairId.toNat % 2 = 0 → t.belay.claim = true ∧ t.glb.role = .active))) ∧
    (s.belay.seen = true → exec .belaySeenEdge s = .next { s with belay := { s.belay with edgeAt := s.ts.run } }) ∧
    (s.ts.run < s.belay.edgeAt + 400 * 2 ^ 40 → exec .belaySeenTimeout s = .next s) ∧
    (s.belay.seen = true → s.belay.edgeAt + 400 * 2 ^ 40 ≤ s.ts.run → s.glb.dev = .run → s.glb.role = .solo → ∃ t, exec .belaySeenTimeout s = .next t
      ∧ t.belay.seen = false ∧ t.belay.freeAt = s.ts.run ∧ t.belay.claim = true ∧ t.belay.laser = false) ∧
    (s.ts.run < max s.belay.claimAt s.belay.freeAt + 2 * microsecond → exec .laserSettle s = .next s) ∧
    (s.belay.claim = true → s.belay.seen = false → s.belay.laser = false →
      max s.belay.claimAt s.belay.freeAt + 2 * microsecond ≤ s.ts.run →
      (s.isStandby = false → exec .laserSettle s = .next { s with belay := { s.belay with laser := true, laserAt := s.ts.run } }) ∧
      (s.isStandby = true → ∃ t, exec .laserSettle s = .next t ∧ (s.imhRuns = false → t.belay.laser = true ∧ t.glb.role = .active
        ∧ t.Raised 9 0 0x8001 (1 + s.pr.cause * 2 ^ 8)))) ∧
    (s.belay.claim = false ∨ s.belay.seen = true → exec .laserSettle s = .next s) ∧
    (∀ rec : Word, s.feat 7 = true → s.glb.modeIn = true →
      (∃ t, exec (.healthRecord rec) s = .next t ∧ t.pr.peer = some rec.toNat ∧ t.pr.peerAt = s.ts.run ∧ t.pr.silent = false
        ∧ (s.glb.role = .active → s.pr.pairLink.isSome = true → bit rec.toNat 6 = true → t.pr.sync = 3)) ∧
      (s.glb.role = .standby → s.glb.dev = .run → s.belay.seen = false → s.belay.claim = false → s.pr.everSync = true →
        s.pr.sync = 3 → bit rec.toNat 5 = false → bits rec.toNat 2 0 = 1 ∨ bits rec.toNat 2 0 = 5 →
        ∃ t, exec (.healthRecord rec) s = .next t ∧ t.belay.claim = true ∧ t.pr.cause = 1)) ∧
    (s.feat 7 = false → s.cascWorks = false → exec .healthRecordSend s = .next s) ∧
    (∀ p : Fin 2, s.cascWorks = true → s.ropeUp p = true → ∃ t, exec .healthRecordSend s = .next t ∧ s.SentOnly t
      ∧ Out.rope p 0x40 [0, s.cascId, s.health, 0, b2n s.qualifies] ∈ t.out) ∧
    (s.feat 7 = true → s.ropeUp (s.rd F.PR_PAIR_CFG_pair_port) = true → ∃ t, exec .healthRecordSend s = .next t ∧ s.SentOnly t
      ∧ Out.rope (s.rd F.PR_PAIR_CFG_pair_port) 0x02 [s.health] ∈ t.out) ∧
    (s.feat 7 = true → s.glb.modeIn = true → s.pr.silent = false → s.healthTo ≤ (s.ts.run - s.pr.peerAt) / 2 ^ 40 →
      ∃ t, exec .healthTimeout s = .next t ∧ t.pr.silent = true
        ∧ (s.glb.role = .active → s.pr.protLost = false → t.pr.protLost = true ∧ t.Raised 9 0 0x8003 0)
        ∧ (s.glb.role = .active → s.pr.sync = 3 → t.pr.sync = 1)) ∧
    (s.lasted s.lasting.floor millisecond = false → exec .belowFloorHeld s = .next s) ∧
    (s.on F.GLB_PACE_below_floor = true → s.lasted s.lasting.floor millisecond = true → ∃ t, exec .belowFloorHeld s = .next t ∧ t.pr.floorHeld = true) ∧
    (s.glb.modeIn = true → s.glb.role = .follower → s.pr.holdover = false → s.followPort = none →
      (s.lasted s.lasting.path millisecond = false → exec .holdoverEnter s = .next s) ∧
      (s.lasted s.lasting.path millisecond = true → ∃ t, exec .holdoverEnter s = .next t ∧ t.pr = { s.pr with holdover := true } ∧ t.Raised 9 0 0x8022 0))

/-- From R371, R390, R393 to R395, R424: the pair commands and their refusals, the yield at its instant, the revert, and Imhus's own uses of
them: the time base of an active is not slaved, so its time_ok stays 1 and never makes it yield.
Where a clause meets a point that the spec leaves to inference it states the model's choice: log entries 45 and 60. -/
def Obligations.PairCommandsYieldAndRevert : Prop :=
  ∀ (s : State) (r : Requester), s.Powered → s.AllUp → s.feat 7 = true → s.watchOf 5 = none →
    (IsHost r → s.owns r = true →
      exec (.pairQuery r) s = .next (s.wr F.PR_PAIR_CMD_STATUS_result 0) ∧
      (s.isActive = false → exec (.pairYield r) s = .next (s.wr F.PR_PAIR_CMD_STATUS_result 2)) ∧
      (s.isActive = true → s.glb.dev = .run → s.pr.yieldAt = none →
        (bit s.peerHealth 6 = false → exec (.pairYield r) s = .next (s.wr F.PR_PAIR_CMD_STATUS_result 3)) ∧
        (bit s.peerHealth 6 = true → ∃ t, exec (.pairYield r) s = .next t
          ∧ t.pr = { s.pr with yieldAt := t.pr.yieldAt, scr := t.pr.scr, ropes := t.pr.ropes }
          ∧ t.pr.yieldAt = some ((if 20 * 19440 ≤ s.cyclesLeft * 125 then s.ts.frame + 1 else s.ts.frame + 2), 2)
          ∧ t.rd F.PR_PAIR_CMD_STATUS_result = 0 ∧ t.belay = s.belay)) ∧
      (s.isStandby = false → exec (.pairTake r) s = .next (s.wr F.PR_PAIR_CMD_STATUS_result 2)
        ∧ exec (.pairResync r) s = .next (s.wr F.PR_PAIR_CMD_STATUS_result 2)) ∧
      (s.isStandby = true → s.glb.dev = .run →
        (s.belay.seen = true → exec (.pairTake r) s = .next (s.wr F.PR_PAIR_CMD_STATUS_result 4)) ∧
        (s.belay.seen = false → s.belay.claim = false → ∃ t, exec (.pairTake r) s = .next t ∧ t.belay = { s.belay with claim := true, claimAt := s.ts.run }
          ∧ t.pr = { s.pr with cause := 4 } ∧ t.rd F.PR_PAIR_CMD_STATUS_result = 0) ∧
        (∀ p, s.pr.pairLink = some p → ∃ t, exec (.pairResync r) s = .next t ∧ t.pr.sync = 1 ∧ t.pr.snap = [] ∧ t.pr.waiting = []
          ∧ t.rd F.PR_PAIR_CMD_STATUS_result = 0 ∧ (s.ropeUp p = true → Out.rope p 0x30 [1] ∈ t.out)))) ∧
    (∀ m c, s.pr.yieldAt = some (m, c) →
      (reached s.ts.frame m = true → s.isActive = true → ∃ t, exec .yieldInstant s = .next t ∧ t.glb.role = .standby
        ∧ t.belay.claim = false ∧ t.belay.laser = false ∧ t.pr.yieldAt = none) ∧
      (reached s.ts.frame m = false → exec .yieldInstant s = .next s)) ∧
    (∀ n, s.pr.revertFrom = some n → max 1 (s.rd F.PR_PAIR_CFG_revert_hold) * 10 ^ 9 ≤ (s.ts.run - n) / 2 ^ 40 → s.isActive = true →
      s.on F.PR_PAIR_CFG_revertive = true → s.pr.yieldAt = none → bit s.peerHealth 6 = true →
      (s.pw.straps.pairId.toNat % 2 = 1 → ∃ t m, exec .revertHoldExpire s = .next t ∧ t.pr.yieldAt = some (m, 3) ∧ t.belay = s.belay) ∧
      (s.pw.straps.pairId.toNat % 2 = 0 → exec .revertHoldExpire s = .next s)) ∧
    (s.imhDecides = true → s.isStandby = true → s.glb.dev = .run → s.imh.takeUnsynced = true → s.pr.absent = true →
      s.pr.everSync = false → s.peerHealth = 0 → s.belay.seen = false → s.belay.claim = false →
      (s.lasted s.lasting.absent second = false → exec .takeUnsynced s = .next s) ∧
      (s.lasted s.lasting.absent second = true → ∃ t, exec .takeUnsynced s = .next t ∧ t.belay.claim = true ∧ t.pr.cause = 4)) ∧
    (s.isActive = true → s.timeOk = true) ∧ exec .timeOkYield s = .next s

/-- From R396 to R408: rope frames decoded from the groups of every lane and their errors, restriping, hello, time messages, latencies, the messages of the cascade.
Where a clause meets a point that the spec leaves to inference it states the model's choice: log entries 49, 51, 70, 71, 72, 125, 126 and 135. -/
def Obligations.RopeFramesMessagesAndTime : Prop :=
  ∀ (s : State) (rp : Fin 2), s.Powered → s.AllUp → s.Room 9 rp →
    (∀ (lanes : List (List (BitVec 20))) (ws : List (List Nat)) (n : Nat), (s.rope rp).lanes ≠ [] →
      (s.rope rp).lanes.Nodup → ws = s.ropeWords rp lanes →
      n = (ws.headD []).headD 0 % 512 →
      ((∀ e ∈ s.stripe rp lanes, ((s.lane e.1).receive e.2).lost = false) →
        (ws.length = (s.rope rp).lanes.length → (∀ c, (s.rope rp).count = some c → n = (c + 1) % 512) →
          ws.zipIdx.all (fun e => ropeLaneOk e.2 n e.1) = true →
          ((s.rope rp).st = 2 → ∃ t, exec (.ropeFrame rp lanes) s = .next t ∧ (t.rope rp).good = (s.rope rp).good + 1
            ∧ (t.rope rp).bad = 0 ∧ (t.rope rp).count = some n ∧ (t.rope rp).st = 2) ∧
          ((s.rope rp).st = 1 → (s.rope rp).good = 3 → ∃ t, exec (.ropeFrame rp lanes) s = .next t ∧ (t.rope rp).st = 2
            ∧ t.Raised 9 rp 0x8010 (s.rope rp).lanes.length)) ∧
        (ws.length ≠ (s.rope rp).lanes.length ∨ ws.zipIdx.all (fun e => ropeLaneOk e.2 n e.1) = false → (s.rope rp).st = 2 →
          ((s.rope rp).bad < 2 → ∃ t, exec (.ropeFrame rp lanes) s = .next t ∧ (t.rope rp).bad = (s.rope rp).bad + 1
            ∧ (t.rope rp).st = 2 ∧ (t.rope rp).good = 0 ∧ t.rd F.PR_ROPE_ERR_errored rp = min 65535 (s.rd F.PR_ROPE_ERR_errored rp + 1)) ∧
          ((s.rope rp).bad = 2 → ∃ t, exec (.ropeFrame rp lanes) s = .next t ∧ (t.rope rp).st = 1 ∧ (t.rope rp).count = none
            ∧ t.Raised 9 rp 0x8011 0))) ∧
      ((s.rope rp).st = 1 ∨ (s.rope rp).st = 2 → ∀ e ∈ s.stripe rp lanes, s.rd F.SL_LANE_CTRL_loop e.1 = 0 →
        ((s.lane e.1).receive e.2).lost = true → ∃ t, exec (.ropeFrame rp lanes) s = .next t ∧ (t.lane e.1).st ≠ .up)) ∧
    ((s.rope rp).restripe = true → ∃ t, exec (.restripeComplete rp) s = .next t ∧ (t.rope rp).restripe = false
      ∧ t.Raised 9 rp 0x8012 (s.rope rp).lanes.length) ∧
    (s.ts.run < (s.rope rp).from_ + 200 * millisecond → exec (.ropePartnerAbsent rp) s = .next s) ∧
    ((s.rope rp).st ≤ 1 → (s.rope rp).from_ + 200 * millisecond ≤ s.ts.run → ∃ t, exec (.ropePartnerAbsent rp) s = .next t ∧ (t.rope rp).st = 3 ∧ t.Raised 9 rp 0x8008 0) ∧
    (s.ropeUp rp = true →
      (∀ h : HelloMsg, ∃ t, exec (.hello rp h) s = .next t ∧ (t.rope rp).hello = some h
        ∧ (s.cascOn = true → h.cascEn = true → (t.pr.members.get {} h.cascId.toNat).hops = 1
          ∧ (t.pr.members.get {} h.cascId.toNat).port = rp)
        ∧ (s.feat 7 = true → s.isActive = true → s.rd F.PR_PAIR_CFG_pair_port = rp → s.pr.pairLink = none →
            (s.pairConflict h = none → t.pr.pairLink = some rp.val ∧ t.pr.sync = 1 ∧ t.pr.cnSent = s.pr.cnSent
              ∧ ∀ u, (t.preset u).peer = .empty) ∧
            (s.pairConflict h ≠ none → t.pr.pairLink = none ∧ t.pr.sync = 0))) ∧
      (∃ t, exec (.helloSend rp) s = .next t ∧ s.SentOnly t ∧ Out.rope rp 0x01 [s.pw.straps.pairId.toNat, s.cascId,
        s.rd F.PR_CASC_CFG_casc_en, s.glb.level, s.glb.role.code,
        if s.on F.GLB_FEAT_LOCK_lock then s.rd F.GLB_FEAT_ACCEPT_accept else 0, b2n s.pw.straps.anchorSel] ∈ t.out) ∧
      (∃ t, exec (.timeMessageSend rp) s = .next t ∧ (t.rope rp).sentAt = s.stamp
        ∧ Out.rope rp 0x03 [s.stamp, (s.rope rp).arrival] ∈ t.out) ∧
      (∀ (sent echo arrived : Nat) (d off : Int),
        d = (stampDiff arrived (s.rope rp).sentAt - stampDiff sent echo) / 2
          + signed 16 (s.rd F.PR_ROPE_ASYM_rope_asym rp) * 2 ^ 24 / 10 → off = stampDiff arrived sent - d →
        ∃ t, exec (.timeMessage rp sent echo arrived) s = .next t ∧ (t.rope rp).arrival = arrived ∧ (t.rope rp).offset = off
          ∧ (s.followPort ≠ some rp.val → t.ts = s.ts)
          ∧ (s.followPort = some rp.val → s.pr.holdover = false → 1000 * 2 ^ 24 < off.natAbs → t.ts.step = some (-(max (-(2 ^ 55 - 2 ^ 24)) (min off (2 ^ 55 - 2 ^ 24)))))) ∧
      (s.cascWorks = true →
        (∀ (k : BitVec 2) (rec : Word) (hops : BitVec 2) (q : Bool), k.toNat ≠ s.cascId → hops.toNat ≤ 2 →
          (s.pr.members.get {} k.toNat).hops = 0 → ∃ t, exec (.cascadeMessage rp (.health k rec hops q)) s = .next t
            ∧ t.pr.members.get {} k.toNat = { record := rec.toNat, hops := hops.toNat + 1, qualifies := q, port := rp, at_ := s.ts.run }
            ∧ (s.ropeUp (1 - rp.val) = true →
                Out.rope (1 - rp.val) 0x40 [0, k.toNat, rec.toNat, hops.toNat + 1, b2n q] ∈ t.out)) ∧
        (∀ (k : BitVec 2) (sn : BitVec 64), k.toNat ≠ s.cascId → s.pr.registry.contains (k.toNat, sn.toNat) = false →
          ∃ t, exec (.cascadeMessage rp (.registry k sn true)) s = .next t
            ∧ t.pr.registry = (k.toNat, sn.toNat) :: s.pr.registry))) ∧
    (∀ (p : Port) (a b : BitVec 16), s.feat 7 = true → s.pr.pairLink = none → ∃ t, exec (.portLatencies [(p, a, b)]) s = .next t
      ∧ t.peerLat p = (a.toNat, b.toNat) ∧ ∀ q, q ≠ p.val → t.peerLat q = s.peerLat q)

/-- From R378 to R384: live cairns take effect in the order of their numbers, once; a gap asks for a replay; a commit waits for its retiring
generation; snapshots, replays, late maps and the time limits.
Where a clause meets a point that the spec leaves to inference it states the model's choice: log entries 46, 47, 48, 82, 97, 129 and 131. -/
def Obligations.CairnsFollowTheirNumbers : Prop :=
  ∀ (s : State) (cn ev : BitVec 32) (p : Port), s.Powered → s.AllUp →
    (s.isStandby = true → s.pr.pairLink.isSome = true → (∀ n, s.pr.cnApplied = some n → cnAfter cn.toNat n = false) →
      s.pr.cnApplied ≠ none → (∀ f m, exec (.mapCairn cn ev p f m) s = .next s) ∧ (∀ f x l, exec (.ploamCairn cn ev p f x l) s = .next s)
        ∧ (∀ l, exec (.keepCairn cn ev p l) s = .next s) ∧ (∀ c, exec (.commandCairn cn ev c) s = .next s)) ∧
    (s.isStandby = true → s.pr.pairLink.isSome = true → s.pr.sync = 3 → s.pr.waiting = [] → s.cnNext = cn.toNat →
      (∀ n, s.pr.stamps.get 0 n ≤ s.cnLong cn.toNat) →
      (∀ (f : BitVec 32) (m : MapRec), s.pr.lateFor.get 0 p ≠ f.toNat + 1 → ∃ t, exec (.mapCairn cn ev p f m) s = .next t
        ∧ (t.port p).maps.get none f.toNat = some m ∧ t.pr.cnApplied = some cn.toNat ∧ t.pr.waiting = []) ∧
      (∀ (f : BitVec 32) (x : BitVec 51) (l : List Ploam), ∃ t, exec (.ploamCairn cn ev p f x l) s = .next t
        ∧ (t.port p).mirPloam.get [] f.toNat = l ∧ t.pr.cnApplied = some cn.toNat) ∧
      (∀ (a : BitVec 16) (ws : List GWord), ∃ t, exec (.stateCairn cn ev (.allocContext a ws)) s = .next t
        ∧ t.alloc a.toNat = allocOf (s.alloc a.toNat) (ws.map (·.toNat)) ∧ t.pr.cnApplied = some cn.toNat) ∧
      (∀ ws : List GWord, ws.length = 512 → ∃ t, exec (.keepCairn cn ev p ws) s = .next t
        ∧ (∀ i < 512, t.ge.keep.get 0 (p.val * 512 + i) = (ws.getD i 0).toNat) ∧ t.pr.cnApplied = some cn.toNat) ∧
      (∀ ch : StateChange, (∀ u x, ch ≠ .preset u x) → ∃ t, exec (.stateCairn cn ev ch) s = .next t ∧ t.pr.cnApplied = some cn.toNat
        ∧ t.pr.waiting = [] ∧ (∀ u st q o sn eqd corr, ch = .context u st q o sn eqd corr → (t.ctx u).st = actOf st.toNat
          ∧ (actOf st.toNat ≠ .free → (t.ctx u).onu = o.toNat ∧ (t.ctx u).eqd = eqd))
        ∧ (∀ u slot, ch = .keySwitched u slot → (t.keyCtx u).active = slot ∧ (t.keyCtx u).pend = none)) ∧
      (∀ (v : Word) (res : BitVec 4), ∃ t, exec (.commandCairn cn ev
          ⟨[(BitVec.ofNat 22 (F.UB_THRESH_lobi_n.off / 4), v)], none, res⟩) s = .next t ∧ t.pr.cnApplied = some cn.toNat
        ∧ t.rd F.UB_THRESH_lobi_n = v.toNat % 16 ∧ t.rd F.UB_THRESH_reasm_frames = v.toNat / 2 ^ 12 % 16
        ∧ t.pr.waiting = [] ∧ t.ctxs = s.ctxs ∧ t.gens = s.gens) ∧
      (∀ c : OwnerCmd, s.mustWait (.command c) = true → ∃ t, exec (.commandCairn cn ev c) s = .next t
        ∧ t.pr.waiting = [(cn.toNat, .command c)] ∧ t.pr.cnApplied = s.pr.cnApplied ∧ t.gens = s.gens ∧ t.rf = s.rf)) ∧
    (s.isStandby = true → s.pr.sync = 3 → s.pr.waiting = [] → s.pr.asked = none → s.cnNext ≠ cn.toNat →
      (∀ n, s.pr.cnApplied = some n → cnAfter cn.toNat n = true) → ∀ (q : Nat) (f : BitVec 32) (m : MapRec), s.pr.pairLink = some q →
      s.ropeUp q = true → ∃ t, exec (.mapCairn cn ev p f m) s = .next t ∧ t.pr.waiting = [(cn.toNat, .map p f.toNat m)]
        ∧ t.pr.asked = some s.cnNext ∧ t.pr.askedAt = s.ts.run ∧ Out.rope q 0x30 [0, s.cnNext] ∈ t.out ∧ t.tp = s.tp) ∧
    (s.isActive = true → s.pr.pairLink.isSome = true → (∀ n, s.pr.cnApplied = some n → cnAfter cn.toNat n = true) →
      ∀ (u : Term) (x : BitVec 2), s.pr.stamps.get 0 (changeObj (.preset u x)) ≤ s.cnLong cn.toNat →
        ∃ t, exec (.stateCairn cn ev (.preset u x)) s = .next t ∧ (t.preset u).peer = pstOf x.toNat) ∧
    (s.isStandby = true → s.pr.pairLink.isSome = true → s.pr.sync = 1 → s.feat 11 = true → ∀ rec, (∀ l ∈ s.pr.snap, l.late = false) → ∃ t l, exec (.snapshotRecord cn ⟨ev, rec⟩) s = .next t
        ∧ t = { s with pr := { s.pr with snap := s.pr.snap ++ [l] }, bm := t.bm } ∧ l.cn = cn.toNat ∧ l.record = rec ∧ l.evseq = ev.toNat
        ∧ l.late = (s.deepDown || !s.deepTurn .record (s.lineHome (cairnLine + s.pr.snap.length)).1)) ∧
    (s.isStandby = true → s.pr.sync = 1 → s.pr.waiting = [] →
      (s.feat 11 = true → s.deepDown = false ∧ (∀ l ∈ s.pr.snap, l.late = false) ∧ s.snapRead.2 = false) → ∃ t, exec (.snapshotEnd cn) s = .next t ∧ t.pr.snap = []
      ∧ t.pr.cnApplied = some cn.toNat ∧ t.pr.asked = none ∧ (t.pr.sync = 2 ∨ t.pr.sync = 3)) ∧
    (s.isActive = true → s.pr.pairLink.isSome = true → (keptCairns 0 s.pr.stream).any (fun e => e.1 == cn.toNat) = true →
      ∃ t, exec (.replayRequest cn false) s = .next t ∧ s.SentOnly t
        ∧ ∀ e ∈ keptCairns 0 s.pr.stream, cnAfter cn.toNat e.1 = false → Out.cairn e.1 e.2.1 e.2.2 ∈ t.out) ∧
    (s.isStandby = true → (s.port p).framing = true → s.on F.GE_TREE_CFG_gp_en (s.pitchTree p) = true →
      ((s.port p).maps.get none ((s.ts.frame + 1) % 2 ^ 32)).isSome = false →
      s.pr.lateFor.get 0 p ≠ (s.ts.frame + 1) % 2 ^ 32 + 1 → s.pr.lateRun.get 0 p < 7 → s.Room 9 0 →
      (10 * 19440 < s.cyclesLeft * 125 → exec (.cairnLate p) s = .next s) ∧ (s.cyclesLeft * 125 ≤ 10 * 19440 →
      ∃ t, exec (.cairnLate p) s = .next t ∧ t.pr.lateFor.get 0 p = (s.ts.frame + 1) % 2 ^ 32 + 1
        ∧ t.pr.lateRun.get 0 p = s.pr.lateRun.get 0 p + 1 ∧ t.Raised 9 0 0x8007 p ∧ t.pr.sync = s.pr.sync)) ∧
    (∀ e rest, s.isStandby = true → s.pr.pairLink.isSome = true → s.pr.sync = 3 → s.pr.waiting = e :: rest → e.1 = s.cnNext →
      s.mustWait e.2 = true → ∀ t0, s.lasting.commit = some (e.1, t0) →
      (s.ts.run ≤ t0 + 10 * millisecond → exec .commitWaitTimeout s = .next s) ∧
      (t0 + 10 * millisecond < s.ts.run → ∃ t, exec .commitWaitTimeout s = .next t ∧ t.pr.sync = 1 ∧ t.pr.waiting = [])) ∧
    (s.ts.run ≤ s.pr.askedAt + millisecond → exec .cairnRequestTimeout s = .next s) ∧
    (s.isStandby = true → s.pr.asked.isSome = true → s.pr.sync = 3 → s.pr.askedAt + millisecond < s.ts.run → ∃ t, exec .cairnRequestTimeout s = .next t
      ∧ t.pr.sync = 4 ∧ (s.Room 9 0 → t.Raised 9 0 0x8005 4)
      ∧ (∀ q, s.pr.pairLink = some q → s.ropeUp q = true → t.pr.asked = some s.cnNext ∧ t.pr.askedAt = s.ts.run ∧ Out.rope q 0x30 [0, s.cnNext] ∈ t.out))

/-! ### Imhus -/

/-- From R413 to R418, R424, R426: what the mailbox's commands answer and keep.
Where a clause meets a point that the spec leaves to inference it states the model's choice: log entries 55, 56 and 57. -/
def Obligations.MailboxCommandsActAndAnswer : Prop :=
  ∀ (s : State) (lv : Nat), s.Powered → s.AllUp → lv ≤ 2 →
    (s.Asked 0x01 lv → ∃ t l, exec .version s = .next t ∧ t.imh.cmd = some (0 :: l) ∧ t = { s with imh := t.imh, fresh := s.fresh + 1 }) ∧
    (s.Asked 0x02 lv → ∃ t l, exec .status s = .next t ∧ t.imh.cmd = some (0 :: l) ∧ t = { s with imh := t.imh, fresh := s.fresh + 1 }) ∧
    (s.Asked 0x03 lv → ∃ t l, exec .digest s = .next t ∧ t.imh.cmd = some (0 :: l) ∧ t = { s with imh := t.imh }) ∧
    (s.Asked 0x10 lv → 4 ≤ s.mbxLen → s.template (s.mbxLe 0 2) = {} →
      (s.imh.templates.length < s.templateCap → s.mbxLe 2 2 % 2 ^ 15 = 0 → ∃ t, exec .templatePut s = .next t
        ∧ t.imh.cmd = some [0] ∧ t.template (s.mbxLe 0 2) = { body := s.mbxPayload.drop 4, whole := bit (s.mbxLe 2 2) 15 }) ∧
      (s.templateCap ≤ s.imh.templates.length → exec .templatePut s = .next { s with imh := { s.imh with cmd := some [7] } })) ∧
    (s.Asked 0x11 lv → 2 ≤ s.mbxLen →
      (s.template (s.mbxLe 0 2) = {} → exec .templateDel s = .next { s with imh := { s.imh with cmd := some [8] } }) ∧
      (s.template (s.mbxLe 0 2) ≠ {} → (∃ b ∈ s.imh.bindings, b.template = s.mbxLe 0 2) →
        exec .templateDel s = .next { s with imh := { s.imh with cmd := some [6] } }) ∧
      (s.template (s.mbxLe 0 2) ≠ {} → (∀ b ∈ s.imh.bindings, b.template ≠ s.mbxLe 0 2) → ∃ t, exec .templateDel s = .next t
        ∧ t.template (s.mbxLe 0 2) = {} ∧ t.imh.cmd = some [0])) ∧
    (s.Asked 0x12 lv → 15 ≤ s.mbxLen → s.mbxLe 8 1 < 64 → s.mbxLe 12 2 < 1023 ∨ s.mbxLe 12 2 = 0xFFFF →
      s.template (s.mbxLe 9 2) ≠ {} →
      (∀ b : Binding, b = {
          sn := s.mbxSerial 0, tree := s.mbxLe 8 1, template := s.mbxLe 9 2, tenant := s.mbxLe 11 1, onu := s.mbxLe 12 2
          directed := bit (s.mbxLe 14 1) 0 } → (∀ c ∈ s.imh.bindings, c.sn ≠ s.mbxSerial 0) → s.imh.bindings.length < s.bindingCap →
        (s.recordsAct = false ∨ b.directed = false → exec .bind s
          = .next { s with imh := { s.imh with cmd := some [0], bindings := s.imh.bindings ++ [b] } }) ∧
        (s.recordsAct = true → b.directed = true → ∃ t, exec .bind s = .next t ∧ t.imh.bindings = s.imh.bindings ++ [b]
          ∧ (t.imh.cmd = some [0] ∨ t.imh.cmd = some [7]))) ∧
      ((∃ b ∈ s.imh.bindings, b.sn = s.mbxSerial 0) → exec .bind s = .next { s with imh := { s.imh with cmd := some [6] } })) ∧
    (s.Asked 0x13 lv → 8 ≤ s.mbxLen → (∃ b ∈ s.imh.bindings, b.sn = s.mbxSerial 0) →
      (s.recordsAct = false → exec .unbind s = .next { s with imh := { s.imh with
          cmd := some [0], bindings := s.imh.bindings.filter (fun b => b.sn != s.mbxSerial 0) } }) ∧
      (s.recordsAct = true → ∃ t, exec .unbind s = .next t ∧ t.imh.cmd = some [0]
        ∧ t.imh.bindings = s.imh.bindings.filter (fun b => b.sn != s.mbxSerial 0))) ∧
    (s.Asked 0x14 lv → 1 ≤ lv → 2 ≤ s.mbxLen → s.template (s.mbxLe 0 2) ≠ {} → s.imh.pend.get none 0 = none → ∃ t, exec .apply s = .next t
      ∧ t.imh.cmd = some [2] ∧ t.imh.pend.get none 0 = some (s.mbxTag, 0x14) ∧ t.imh.apply.get 0 0 = s.mbxLe 0 2 + 1) ∧
    (s.Asked 0x20 lv → 1 ≤ lv → 8 ≤ s.mbxLen →
      (s.boundTo (s.mbxSerial 0) = none → exec .termQuery s = .next { s with imh := { s.imh with cmd := some [8] } }) ∧
      (∀ u, s.boundTo (s.mbxSerial 0) = some u → ∃ t l, exec .termQuery s = .next t ∧ t.imh.cmd = some (0 :: l)
        ∧ t = { s with imh := t.imh })) ∧
    (s.Asked 0x30 lv → 2 ≤ s.mbxLen → ∃ t l, exec .alarmList s = .next t ∧ t.imh.cmd = some (0 :: l) ∧ t = { s with imh := t.imh }) ∧
    (s.Asked 0x31 lv → 1 ≤ lv → exec .alarmCfg s = .next { s with imh := { s.imh with
      cmd := some [0], raiseSoak := Config.mbxArg 0x31 0 s.mbxPayload, clearSoak := Config.mbxArg 0x31 1 s.mbxPayload } }) ∧
    (s.Asked 0x40 lv → 1 ≤ lv → s.live = true → s.glb.level = 1 → s.feat 7 = true → 1 ≤ s.mbxLen →
      (s.mbxByte 0 = 0 → ∃ t, exec .pairOp s = .next t ∧ t.imh.cmd = some [0] ∧ t.rd F.PR_PAIR_CMD_STATUS_result = 0
        ∧ t.pr = s.pr ∧ t.belay = s.belay) ∧
      (1 ≤ s.mbxByte 0 → s.mbxByte 0 < 4 → ∃ t, exec .pairOp s = .next t ∧ t.imh.cmd = some [t.rd F.PR_PAIR_CMD_STATUS_result]) ∧
      (4 ≤ s.mbxByte 0 → exec .pairOp s = .next { s with imh := { s.imh with cmd := some [5] } })) ∧
    (s.Asked 0x41 lv → 1 ≤ lv → ∃ t, exec .pairPolicy s = .next t ∧ t.imh.cmd = some [0]
      ∧ t.imh.takeUnsynced = (Config.mbxArg 0x41 3 s.mbxPayload % 2 == 1) ∧ (s.feat 7 = false → t.rf = s.rf)
      ∧ (s.feat 7 = true → t.rd F.PR_PAIR_CFG_auto_yield = Config.mbxArg 0x41 0 s.mbxPayload % 2
        ∧ t.rd F.PR_PAIR_CFG_revertive = Config.mbxArg 0x41 1 s.mbxPayload % 2
        ∧ t.rd F.PR_PAIR_CFG_revert_hold = Config.mbxArg 0x41 2 s.mbxPayload % 256)) ∧
    (s.Asked 0x50 lv → lv ≠ 1 → exec .timeSteer s = .next { s with imh := { s.imh with cmd := some [5] } }) ∧
    (s.Asked 0x50 1 → 13 ≤ s.mbxLen →
      (s.slaved = true → exec .timeSteer s = .next { s with imh := { s.imh with cmd := some [6] } }) ∧
      (s.slaved = false → (s.evu.wait.filter (·.wrap)).length < 4 → ∃ t, exec .timeSteer s = .next t ∧ t.imh.cmd = some
        [if incrLegal (s.mbxLe 0 6) && (s.mbxLe 6 7 == 0 || (s.mbxLe 6 4 != 0x80000000 && s.ts.step.isNone)) then 0 else 4])) ∧
    (s.Asked 0x51 2 → exec .ptpCfg s = .next { s with imh := { s.imh with cmd := some [0], ptp := some s.mbxPayload } }) ∧
    (s.Asked 0x51 lv → lv ≠ 2 → exec .ptpCfg s = .next { s with imh := { s.imh with cmd := some [5] } }) ∧
    (s.Asked 0x70 lv → 1 ≤ lv → ∃ t, exec .onuImage s = .next t ∧
      (Config.mbxArg 0x70 0 s.mbxPayload = 0 → t = { s with imh := { s.imh with cmd := some [0], image := s.imh.image ++ s.mbxPayload } }) ∧
      (Config.mbxArg 0x70 0 s.mbxPayload ≠ 0 → s.template (Config.mbxArg 0x70 1 s.mbxPayload) = {} →
        t = { s with imh := { s.imh with cmd := some [8] } }) ∧
      (Config.mbxArg 0x70 0 s.mbxPayload ≠ 0 → s.template (Config.mbxArg 0x70 1 s.mbxPayload) ≠ {} → s.imh.pend.get none 0 = none →
        t.imh.cmd = some [2] ∧ t.imh.pend.get none 0 = some (s.mbxTag, 0x70) ∧ t.imh.image = []))

/-- From R412, R413, R420, R422, R423, R66: the reply and the final result, a halted guide core, key rotation, OMCI retries, alarms.
Where a clause meets a point that the spec leaves to inference it states the model's choice: log entries 58, 59, 137 and 138. -/
def Obligations.ImhusRepliesRotatesKeysAndRaisesAlarms : Prop :=
  ∀ (s : State), s.Powered → s.AllUp → s.watchOf 2 = none →
    (∀ res bs, s.on F.GLB_MBX_STATUS_busy = true → s.imh.cmd = some (res :: bs) → s.Room 0 0 → ∃ t, exec .mailboxReply s = .next t
      ∧ t.imh = { s.imh with cmd := none } ∧ t.on F.GLB_MBX_STATUS_busy = false ∧ t.rd F.GLB_MBX_STATUS_result = res % 256
      ∧ t.rd F.GLB_MBX_STATUS_tag = s.mbxTag ∧ t.Raised 0 0 0x0F01 (s.mbxTag + res * 2 ^ 8)) ∧
    (∀ (i : Fin 8) (res : BitVec 8) (tag code : Nat), s.imh.pend.get none i = some (tag, code) → s.Room 0 0 →
      ∃ t, exec (.mailboxFinalResult i res) s = .next t ∧ t.imh.pend.get none i = none
        ∧ t.Raised 0 0 0x0F02 (tag + res.toNat * 2 ^ 8)) ∧
    (∀ c : Fin 4,
      (s.live = true → s.glb.level ≠ 0 → ∃ t, exec (.guideCoreHalt c) s = .next t ∧ t.glb.dev = .safe ∧ t.belay.laser = false
        ∧ t.belay.claim = false ∧ t.rd F.PW_RESET_CAUSE_safe_cause = 2 ∧ t.imhRuns = false) ∧
      (s.live = false → ∃ t, exec (.guideCoreHalt c) s = .next t ∧ c.val ∈ t.imh.halted ∧ t.glb = s.glb)) ∧
    (∀ (u : Term) (key : BitVec 128), s.recordsAct = true → (s.ctx u).st = .operating → (s.bindingOf u).isSome = true →
      (s.ctx u).port < 64 → s.on F.TP_KEY_STATUS_busy (s.ctx u).port = false →
      ((s.keyCtx u).slot0.valid = false → (s.keyCtx u).slot1.valid = false → s.keyLive u false = false →
        (s.omci u).held = true → (s.omci u).todo = [] →
        ∃ t, exec (.keyRotationDue u key) s = .next t ∧ (t.keyCtx u).slot0 = ⟨true, key.toNat⟩ ∧ (t.keyCtx u).slot1 = (s.keyCtx u).slot1
          ∧ (t.keyCtx u).pend = (s.keyCtx u).pend ∧ (t.omci u).done = true ∧ u.val ∈ t.imh.flowsDue) ∧
      ((s.keyCtx u).slot0.valid = true ∨ (s.keyCtx u).slot1.valid = true →
        s.ts.run < (s.omci u).keyAt + keyPeriod (s.omci u).body * second → exec (.keyRotationDue u key) s = .next s) ∧
      (∀ b : Bool, (s.keyCtx u).slot0.valid = true ∨ (s.keyCtx u).slot1.valid = true → (s.keyCtx u).active = !b →
        (s.omci u).done = true → (s.omci u).keyAt + keyPeriod (s.omci u).body * second ≤ s.ts.run →
        s.keyLive u b = false → (s.keyCtx u).pend = none → ∃ t, exec (.keyRotationDue u key) s = .next t
          ∧ (t.keyCtx u).slot b = ⟨true, key.toNat⟩ ∧ (t.keyCtx u).slot (!b) = (s.keyCtx u).slot (!b) ∧ (t.keyCtx u).active = !b
          ∧ (t.keyCtx u).pend = some ((s.ctx u).port, b,
              s.switchAt (s.ctx u).port ((s.nextSfc (s.ctx u).port + 16) % 2 ^ 32)))) ∧
    (∀ u : Term, (s.omci u).todo = [] → exec (.omciRetry u) s = .next s) ∧
    (∀ (u : Term) (q : OmciReq) (rest : List OmciReq), s.recordsAct = true → (s.omci u).todo = q :: rest →
      (s.ts.run < (s.omci u).at_ + second → exec (.omciRetry u) s = .next s) ∧ ((s.omci u).at_ + second ≤ s.ts.run →
      (1 ≤ (s.omci u).tries → (s.omci u).tries < 3 → ∃ t, exec (.omciRetry u) s = .next t
        ∧ t.omci u = { s.omci u with tries := (s.omci u).tries + 1, at_ := s.ts.run } ∧ Out.omci u ((s.omci u).tries + 1) q ∈ t.out) ∧
      (3 ≤ (s.omci u).tries → ∃ t, exec (.omciRetry u) s = .next t ∧ (t.omci u).alarm = true
        ∧ (s.imh.roots.any (fun r => r.1 == .omci && r.2.1 == .term u) = false → (.omci, .term u, s.evu.seq) ∈ t.imh.roots)
        ∧ (s.ts.run < (s.omci u).at_ + 60 * second → t.omci u = { s.omci u with alarm := true } ∧ t.out = s.out)
        ∧ (∀ q0 l, (s.omci u).whole = q0 :: l → (s.omci u).at_ + 60 * second ≤ s.ts.run →
            (t.omci u).tries = 1 ∧ (t.omci u).todo = q0 :: l ∧ Out.omci u 1 q0 ∈ t.out)))) ∧
    (∀ (k : AlarmKind) (sc : AlarmScope), s.imhDecides = true →
      (∀ root, s.imh.roots.find? (fun x => x.1 == k && x.2.1 == sc) = some root →
        s.imh.alarms.any (fun a => a.kind == k && a.scope == sc) = false → s.rootHeld k sc = true → s.suppressed k sc = false →
        (s.rootFor k sc true (s.raiseTime k) = false → exec (.alarmRaiseSoak k sc) s = .next s) ∧
        (s.rootFor k sc true (s.raiseTime k) = true →
        (s.imh.alarms.length < 4096 → s.Room 0 0 → ∃ t a, exec (.alarmRaiseSoak k sc) s = .next t
          ∧ t.imh.alarms = s.imh.alarms ++ [a] ∧ a.kind = k ∧ a.scope = sc ∧ a.root = root.2.2 ∧ t.Raised 0 0 0x0F10 a.id)) ∧
        (4096 ≤ s.imh.alarms.length → s.imh.overflow.isSome = true → exec (.alarmRaiseSoak k sc) s = .next s)) ∧
      (∀ a, (s.imh.alarms ++ s.imh.overflow.toList).find? (fun a => a.kind == k && a.scope == sc) = some a → s.rootHeld k sc = false → s.Room 0 0 →
        (s.rootFor k sc false (s.imh.clearSoak * (second / 10)) = false → exec (.alarmClearSoak k sc) s = .next s) ∧
        (s.rootFor k sc false (s.imh.clearSoak * (second / 10)) = true →
        ∃ t, exec (.alarmClearSoak k sc) s = .next t ∧ t.Raised 0 0 0x0F11 a.id
          ∧ t.imh.alarms = s.imh.alarms.filter (fun b => !(b.kind == k && b.scope == sc)))) ∧
      ((∀ a ∈ s.imh.alarms ++ s.imh.overflow.toList, ¬(a.kind = k ∧ a.scope = sc)) → exec (.alarmClearSoak k sc) s = .next s))
end

