-- ==== Sys2Proof/Laws/State.lean ====
section
/-! SUPPORT. Beside State: what each plain update leaves alone, field by field, true by rfl; and what a counted occurrence and a raised
event leave alone. -/

namespace Sys2Proof.Machine

/-! ### State.wr -/

@[simp] theorem State.wr_pending (s : State) (f : Fld) (v i : Nat) : (s.wr f v i).pending = s.pending := rfl
@[simp] theorem State.wr_rdata (s : State) (f : Fld) (v i : Nat) : (s.wr f v i).rdata = s.rdata := rfl
@[simp] theorem State.wr_out (s : State) (f : Fld) (v i : Nat) : (s.wr f v i).out = s.out := rfl
@[simp] theorem State.wr_fresh (s : State) (f : Fld) (v i : Nat) : (s.wr f v i).fresh = s.fresh := rfl
@[simp] theorem State.wr_caps (s : State) (f : Fld) (v i : Nat) : (s.wr f v i).caps = s.caps := rfl
@[simp] theorem State.wr_glb (s : State) (f : Fld) (v i : Nat) : (s.wr f v i).glb = s.glb := rfl
@[simp] theorem State.wr_evu (s : State) (f : Fld) (v i : Nat) : (s.wr f v i).evu = s.evu := rfl
@[simp] theorem State.wr_tal (s : State) (f : Fld) (v i : Nat) : (s.wr f v i).tal = s.tal := rfl
@[simp] theorem State.wr_slots (s : State) (f : Fld) (v i : Nat) : (s.wr f v i).slots = s.slots := rfl
@[simp] theorem State.wr_gens (s : State) (f : Fld) (v i : Nat) : (s.wr f v i).gens = s.gens := rfl
@[simp] theorem State.wr_ts (s : State) (f : Fld) (v i : Nat) : (s.wr f v i).ts = s.ts := rfl
@[simp] theorem State.wr_ic (s : State) (f : Fld) (v i : Nat) : (s.wr f v i).ic = s.ic := rfl
@[simp] theorem State.wr_pm (s : State) (f : Fld) (v i : Nat) : (s.wr f v i).pm = s.pm := rfl
@[simp] theorem State.wr_pw (s : State) (f : Fld) (v i : Nat) : (s.wr f v i).pw = s.pw := rfl
@[simp] theorem State.wr_lanes (s : State) (f : Fld) (v i : Nat) : (s.wr f v i).lanes = s.lanes := rfl
@[simp] theorem State.wr_belay (s : State) (f : Fld) (v i : Nat) : (s.wr f v i).belay = s.belay := rfl
@[simp] theorem State.wr_pr (s : State) (f : Fld) (v i : Nat) : (s.wr f v i).pr = s.pr := rfl
@[simp] theorem State.wr_tp (s : State) (f : Fld) (v i : Nat) : (s.wr f v i).tp = s.tp := rfl
@[simp] theorem State.wr_keys (s : State) (f : Fld) (v i : Nat) : (s.wr f v i).keys = s.keys := rfl
@[simp] theorem State.wr_ub (s : State) (f : Fld) (v i : Nat) : (s.wr f v i).ub = s.ub := rfl
@[simp] theorem State.wr_presets (s : State) (f : Fld) (v i : Nat) : (s.wr f v i).presets = s.presets := rfl
@[simp] theorem State.wr_termRx (s : State) (f : Fld) (v i : Nat) : (s.wr f v i).termRx = s.termRx := rfl
@[simp] theorem State.wr_chains (s : State) (f : Fld) (v i : Nat) : (s.wr f v i).chains = s.chains := rfl
@[simp] theorem State.wr_fillRun (s : State) (f : Fld) (v i : Nat) : (s.wr f v i).fillRun = s.fillRun := rfl
@[simp] theorem State.wr_ctxs (s : State) (f : Fld) (v i : Nat) : (s.wr f v i).ctxs = s.ctxs := rfl
@[simp] theorem State.wr_onuHolds (s : State) (f : Fld) (v i : Nat) : (s.wr f v i).onuHolds = s.onuHolds := rfl
@[simp] theorem State.wr_act (s : State) (f : Fld) (v i : Nat) : (s.wr f v i).act = s.act := rfl
@[simp] theorem State.wr_allocs (s : State) (f : Fld) (v i : Nat) : (s.wr f v i).allocs = s.allocs := rfl
@[simp] theorem State.wr_allocHolds (s : State) (f : Fld) (v i : Nat) : (s.wr f v i).allocHolds = s.allocHolds := rfl
@[simp] theorem State.wr_ge (s : State) (f : Fld) (v i : Nat) : (s.wr f v i).ge = s.ge := rfl
@[simp] theorem State.wr_trees (s : State) (f : Fld) (v i : Nat) : (s.wr f v i).trees = s.trees := rfl
@[simp] theorem State.wr_rows (s : State) (f : Fld) (v i : Nat) : (s.wr f v i).rows = s.rows := rfl
@[simp] theorem State.wr_pc (s : State) (f : Fld) (v i : Nat) : (s.wr f v i).pc = s.pc := rfl
@[simp] theorem State.wr_cl (s : State) (f : Fld) (v i : Nat) : (s.wr f v i).cl = s.cl := rfl
@[simp] theorem State.wr_qs (s : State) (f : Fld) (v i : Nat) : (s.wr f v i).qs = s.qs := rfl
@[simp] theorem State.wr_bm (s : State) (f : Fld) (v i : Nat) : (s.wr f v i).bm = s.bm := rfl
@[simp] theorem State.wr_hd (s : State) (f : Fld) (v i : Nat) : (s.wr f v i).hd = s.hd := rfl
@[simp] theorem State.wr_imh (s : State) (f : Fld) (v i : Nat) : (s.wr f v i).imh = s.imh := rfl
@[simp] theorem State.wr_lasting (s : State) (f : Fld) (v i : Nat) : (s.wr f v i).lasting = s.lasting := rfl

/-! ### State.emit -/

@[simp] theorem State.emit_pending (s : State) (o : Out) : (s.emit o).pending = s.pending := rfl
@[simp] theorem State.emit_rdata (s : State) (o : Out) : (s.emit o).rdata = s.rdata := rfl
@[simp] theorem State.emit_fresh (s : State) (o : Out) : (s.emit o).fresh = s.fresh := rfl
@[simp] theorem State.emit_rf (s : State) (o : Out) : (s.emit o).rf = s.rf := rfl
@[simp] theorem State.emit_caps (s : State) (o : Out) : (s.emit o).caps = s.caps := rfl
@[simp] theorem State.emit_glb (s : State) (o : Out) : (s.emit o).glb = s.glb := rfl
@[simp] theorem State.emit_evu (s : State) (o : Out) : (s.emit o).evu = s.evu := rfl
@[simp] theorem State.emit_tal (s : State) (o : Out) : (s.emit o).tal = s.tal := rfl
@[simp] theorem State.emit_slots (s : State) (o : Out) : (s.emit o).slots = s.slots := rfl
@[simp] theorem State.emit_gens (s : State) (o : Out) : (s.emit o).gens = s.gens := rfl
@[simp] theorem State.emit_ts (s : State) (o : Out) : (s.emit o).ts = s.ts := rfl
@[simp] theorem State.emit_ic (s : State) (o : Out) : (s.emit o).ic = s.ic := rfl
@[simp] theorem State.emit_pm (s : State) (o : Out) : (s.emit o).pm = s.pm := rfl
@[simp] theorem State.emit_pw (s : State) (o : Out) : (s.emit o).pw = s.pw := rfl
@[simp] theorem State.emit_lanes (s : State) (o : Out) : (s.emit o).lanes = s.lanes := rfl
@[simp] theorem State.emit_belay (s : State) (o : Out) : (s.emit o).belay = s.belay := rfl
@[simp] theorem State.emit_pr (s : State) (o : Out) : (s.emit o).pr = s.pr := rfl
@[simp] theorem State.emit_tp (s : State) (o : Out) : (s.emit o).tp = s.tp := rfl
@[simp] theorem State.emit_keys (s : State) (o : Out) : (s.emit o).keys = s.keys := rfl
@[simp] theorem State.emit_ub (s : State) (o : Out) : (s.emit o).ub = s.ub := rfl
@[simp] theorem State.emit_presets (s : State) (o : Out) : (s.emit o).presets = s.presets := rfl
@[simp] theorem State.emit_termRx (s : State) (o : Out) : (s.emit o).termRx = s.termRx := rfl
@[simp] theorem State.emit_chains (s : State) (o : Out) : (s.emit o).chains = s.chains := rfl
@[simp] theorem State.emit_fillRun (s : State) (o : Out) : (s.emit o).fillRun = s.fillRun := rfl
@[simp] theorem State.emit_ctxs (s : State) (o : Out) : (s.emit o).ctxs = s.ctxs := rfl
@[simp] theorem State.emit_onuHolds (s : State) (o : Out) : (s.emit o).onuHolds = s.onuHolds := rfl
@[simp] theorem State.emit_act (s : State) (o : Out) : (s.emit o).act = s.act := rfl
@[simp] theorem State.emit_allocs (s : State) (o : Out) : (s.emit o).allocs = s.allocs := rfl
@[simp] theorem State.emit_allocHolds (s : State) (o : Out) : (s.emit o).allocHolds = s.allocHolds := rfl
@[simp] theorem State.emit_ge (s : State) (o : Out) : (s.emit o).ge = s.ge := rfl
@[simp] theorem State.emit_trees (s : State) (o : Out) : (s.emit o).trees = s.trees := rfl
@[simp] theorem State.emit_rows (s : State) (o : Out) : (s.emit o).rows = s.rows := rfl
@[simp] theorem State.emit_pc (s : State) (o : Out) : (s.emit o).pc = s.pc := rfl
@[simp] theorem State.emit_cl (s : State) (o : Out) : (s.emit o).cl = s.cl := rfl
@[simp] theorem State.emit_qs (s : State) (o : Out) : (s.emit o).qs = s.qs := rfl
@[simp] theorem State.emit_bm (s : State) (o : Out) : (s.emit o).bm = s.bm := rfl
@[simp] theorem State.emit_hd (s : State) (o : Out) : (s.emit o).hd = s.hd := rfl
@[simp] theorem State.emit_imh (s : State) (o : Out) : (s.emit o).imh = s.imh := rfl
@[simp] theorem State.emit_lasting (s : State) (o : Out) : (s.emit o).lasting = s.lasting := rfl

/-! ### State.setPort -/

@[simp] theorem State.setPort_pending (s : State) (p : Nat) (x : TpPort) : (s.setPort p x).pending = s.pending := rfl
@[simp] theorem State.setPort_rdata (s : State) (p : Nat) (x : TpPort) : (s.setPort p x).rdata = s.rdata := rfl
@[simp] theorem State.setPort_out (s : State) (p : Nat) (x : TpPort) : (s.setPort p x).out = s.out := rfl
@[simp] theorem State.setPort_fresh (s : State) (p : Nat) (x : TpPort) : (s.setPort p x).fresh = s.fresh := rfl
@[simp] theorem State.setPort_rf (s : State) (p : Nat) (x : TpPort) : (s.setPort p x).rf = s.rf := rfl
@[simp] theorem State.setPort_caps (s : State) (p : Nat) (x : TpPort) : (s.setPort p x).caps = s.caps := rfl
@[simp] theorem State.setPort_glb (s : State) (p : Nat) (x : TpPort) : (s.setPort p x).glb = s.glb := rfl
@[simp] theorem State.setPort_evu (s : State) (p : Nat) (x : TpPort) : (s.setPort p x).evu = s.evu := rfl
@[simp] theorem State.setPort_tal (s : State) (p : Nat) (x : TpPort) : (s.setPort p x).tal = s.tal := rfl
@[simp] theorem State.setPort_slots (s : State) (p : Nat) (x : TpPort) : (s.setPort p x).slots = s.slots := rfl
@[simp] theorem State.setPort_gens (s : State) (p : Nat) (x : TpPort) : (s.setPort p x).gens = s.gens := rfl
@[simp] theorem State.setPort_ts (s : State) (p : Nat) (x : TpPort) : (s.setPort p x).ts = s.ts := rfl
@[simp] theorem State.setPort_ic (s : State) (p : Nat) (x : TpPort) : (s.setPort p x).ic = s.ic := rfl
@[simp] theorem State.setPort_pm (s : State) (p : Nat) (x : TpPort) : (s.setPort p x).pm = s.pm := rfl
@[simp] theorem State.setPort_pw (s : State) (p : Nat) (x : TpPort) : (s.setPort p x).pw = s.pw := rfl
@[simp] theorem State.setPort_lanes (s : State) (p : Nat) (x : TpPort) : (s.setPort p x).lanes = s.lanes := rfl
@[simp] theorem State.setPort_belay (s : State) (p : Nat) (x : TpPort) : (s.setPort p x).belay = s.belay := rfl
@[simp] theorem State.setPort_pr (s : State) (p : Nat) (x : TpPort) : (s.setPort p x).pr = s.pr := rfl
@[simp] theorem State.setPort_keys (s : State) (p : Nat) (x : TpPort) : (s.setPort p x).keys = s.keys := rfl
@[simp] theorem State.setPort_ub (s : State) (p : Nat) (x : TpPort) : (s.setPort p x).ub = s.ub := rfl
@[simp] theorem State.setPort_presets (s : State) (p : Nat) (x : TpPort) : (s.setPort p x).presets = s.presets := rfl
@[simp] theorem State.setPort_termRx (s : State) (p : Nat) (x : TpPort) : (s.setPort p x).termRx = s.termRx := rfl
@[simp] theorem State.setPort_chains (s : State) (p : Nat) (x : TpPort) : (s.setPort p x).chains = s.chains := rfl
@[simp] theorem State.setPort_fillRun (s : State) (p : Nat) (x : TpPort) : (s.setPort p x).fillRun = s.fillRun := rfl
@[simp] theorem State.setPort_ctxs (s : State) (p : Nat) (x : TpPort) : (s.setPort p x).ctxs = s.ctxs := rfl
@[simp] theorem State.setPort_onuHolds (s : State) (p : Nat) (x : TpPort) : (s.setPort p x).onuHolds = s.onuHolds := rfl
@[simp] theorem State.setPort_act (s : State) (p : Nat) (x : TpPort) : (s.setPort p x).act = s.act := rfl
@[simp] theorem State.setPort_allocs (s : State) (p : Nat) (x : TpPort) : (s.setPort p x).allocs = s.allocs := rfl
@[simp] theorem State.setPort_allocHolds (s : State) (p : Nat) (x : TpPort) : (s.setPort p x).allocHolds = s.allocHolds := rfl
@[simp] theorem State.setPort_ge (s : State) (p : Nat) (x : TpPort) : (s.setPort p x).ge = s.ge := rfl
@[simp] theorem State.setPort_trees (s : State) (p : Nat) (x : TpPort) : (s.setPort p x).trees = s.trees := rfl
@[simp] theorem State.setPort_rows (s : State) (p : Nat) (x : TpPort) : (s.setPort p x).rows = s.rows := rfl
@[simp] theorem State.setPort_pc (s : State) (p : Nat) (x : TpPort) : (s.setPort p x).pc = s.pc := rfl
@[simp] theorem State.setPort_cl (s : State) (p : Nat) (x : TpPort) : (s.setPort p x).cl = s.cl := rfl
@[simp] theorem State.setPort_qs (s : State) (p : Nat) (x : TpPort) : (s.setPort p x).qs = s.qs := rfl
@[simp] theorem State.setPort_bm (s : State) (p : Nat) (x : TpPort) : (s.setPort p x).bm = s.bm := rfl
@[simp] theorem State.setPort_hd (s : State) (p : Nat) (x : TpPort) : (s.setPort p x).hd = s.hd := rfl
@[simp] theorem State.setPort_imh (s : State) (p : Nat) (x : TpPort) : (s.setPort p x).imh = s.imh := rfl
@[simp] theorem State.setPort_lasting (s : State) (p : Nat) (x : TpPort) : (s.setPort p x).lasting = s.lasting := rfl

/-! ### State.setRx -/

@[simp] theorem State.setRx_pending (s : State) (p : Nat) (x : UbPort) : (s.setRx p x).pending = s.pending := rfl
@[simp] theorem State.setRx_rdata (s : State) (p : Nat) (x : UbPort) : (s.setRx p x).rdata = s.rdata := rfl
@[simp] theorem State.setRx_out (s : State) (p : Nat) (x : UbPort) : (s.setRx p x).out = s.out := rfl
@[simp] theorem State.setRx_fresh (s : State) (p : Nat) (x : UbPort) : (s.setRx p x).fresh = s.fresh := rfl
@[simp] theorem State.setRx_rf (s : State) (p : Nat) (x : UbPort) : (s.setRx p x).rf = s.rf := rfl
@[simp] theorem State.setRx_caps (s : State) (p : Nat) (x : UbPort) : (s.setRx p x).caps = s.caps := rfl
@[simp] theorem State.setRx_glb (s : State) (p : Nat) (x : UbPort) : (s.setRx p x).glb = s.glb := rfl
@[simp] theorem State.setRx_evu (s : State) (p : Nat) (x : UbPort) : (s.setRx p x).evu = s.evu := rfl
@[simp] theorem State.setRx_tal (s : State) (p : Nat) (x : UbPort) : (s.setRx p x).tal = s.tal := rfl
@[simp] theorem State.setRx_slots (s : State) (p : Nat) (x : UbPort) : (s.setRx p x).slots = s.slots := rfl
@[simp] theorem State.setRx_gens (s : State) (p : Nat) (x : UbPort) : (s.setRx p x).gens = s.gens := rfl
@[simp] theorem State.setRx_ts (s : State) (p : Nat) (x : UbPort) : (s.setRx p x).ts = s.ts := rfl
@[simp] theorem State.setRx_ic (s : State) (p : Nat) (x : UbPort) : (s.setRx p x).ic = s.ic := rfl
@[simp] theorem State.setRx_pm (s : State) (p : Nat) (x : UbPort) : (s.setRx p x).pm = s.pm := rfl
@[simp] theorem State.setRx_pw (s : State) (p : Nat) (x : UbPort) : (s.setRx p x).pw = s.pw := rfl
@[simp] theorem State.setRx_lanes (s : State) (p : Nat) (x : UbPort) : (s.setRx p x).lanes = s.lanes := rfl
@[simp] theorem State.setRx_belay (s : State) (p : Nat) (x : UbPort) : (s.setRx p x).belay = s.belay := rfl
@[simp] theorem State.setRx_pr (s : State) (p : Nat) (x : UbPort) : (s.setRx p x).pr = s.pr := rfl
@[simp] theorem State.setRx_tp (s : State) (p : Nat) (x : UbPort) : (s.setRx p x).tp = s.tp := rfl
@[simp] theorem State.setRx_keys (s : State) (p : Nat) (x : UbPort) : (s.setRx p x).keys = s.keys := rfl
@[simp] theorem State.setRx_presets (s : State) (p : Nat) (x : UbPort) : (s.setRx p x).presets = s.presets := rfl
@[simp] theorem State.setRx_termRx (s : State) (p : Nat) (x : UbPort) : (s.setRx p x).termRx = s.termRx := rfl
@[simp] theorem State.setRx_chains (s : State) (p : Nat) (x : UbPort) : (s.setRx p x).chains = s.chains := rfl
@[simp] theorem State.setRx_fillRun (s : State) (p : Nat) (x : UbPort) : (s.setRx p x).fillRun = s.fillRun := rfl
@[simp] theorem State.setRx_ctxs (s : State) (p : Nat) (x : UbPort) : (s.setRx p x).ctxs = s.ctxs := rfl
@[simp] theorem State.setRx_onuHolds (s : State) (p : Nat) (x : UbPort) : (s.setRx p x).onuHolds = s.onuHolds := rfl
@[simp] theorem State.setRx_act (s : State) (p : Nat) (x : UbPort) : (s.setRx p x).act = s.act := rfl
@[simp] theorem State.setRx_allocs (s : State) (p : Nat) (x : UbPort) : (s.setRx p x).allocs = s.allocs := rfl
@[simp] theorem State.setRx_allocHolds (s : State) (p : Nat) (x : UbPort) : (s.setRx p x).allocHolds = s.allocHolds := rfl
@[simp] theorem State.setRx_ge (s : State) (p : Nat) (x : UbPort) : (s.setRx p x).ge = s.ge := rfl
@[simp] theorem State.setRx_trees (s : State) (p : Nat) (x : UbPort) : (s.setRx p x).trees = s.trees := rfl
@[simp] theorem State.setRx_rows (s : State) (p : Nat) (x : UbPort) : (s.setRx p x).rows = s.rows := rfl
@[simp] theorem State.setRx_pc (s : State) (p : Nat) (x : UbPort) : (s.setRx p x).pc = s.pc := rfl
@[simp] theorem State.setRx_cl (s : State) (p : Nat) (x : UbPort) : (s.setRx p x).cl = s.cl := rfl
@[simp] theorem State.setRx_qs (s : State) (p : Nat) (x : UbPort) : (s.setRx p x).qs = s.qs := rfl
@[simp] theorem State.setRx_bm (s : State) (p : Nat) (x : UbPort) : (s.setRx p x).bm = s.bm := rfl
@[simp] theorem State.setRx_hd (s : State) (p : Nat) (x : UbPort) : (s.setRx p x).hd = s.hd := rfl
@[simp] theorem State.setRx_imh (s : State) (p : Nat) (x : UbPort) : (s.setRx p x).imh = s.imh := rfl
@[simp] theorem State.setRx_lasting (s : State) (p : Nat) (x : UbPort) : (s.setRx p x).lasting = s.lasting := rfl

/-! ### State.setCtx -/

@[simp] theorem State.setCtx_pending (s : State) (t : Nat) (x : Ctx) : (s.setCtx t x).pending = s.pending := rfl
@[simp] theorem State.setCtx_rdata (s : State) (t : Nat) (x : Ctx) : (s.setCtx t x).rdata = s.rdata := rfl
@[simp] theorem State.setCtx_out (s : State) (t : Nat) (x : Ctx) : (s.setCtx t x).out = s.out := rfl
@[simp] theorem State.setCtx_fresh (s : State) (t : Nat) (x : Ctx) : (s.setCtx t x).fresh = s.fresh := rfl
@[simp] theorem State.setCtx_rf (s : State) (t : Nat) (x : Ctx) : (s.setCtx t x).rf = s.rf := rfl
@[simp] theorem State.setCtx_caps (s : State) (t : Nat) (x : Ctx) : (s.setCtx t x).caps = s.caps := rfl
@[simp] theorem State.setCtx_glb (s : State) (t : Nat) (x : Ctx) : (s.setCtx t x).glb = s.glb := rfl
@[simp] theorem State.setCtx_evu (s : State) (t : Nat) (x : Ctx) : (s.setCtx t x).evu = s.evu := rfl
@[simp] theorem State.setCtx_tal (s : State) (t : Nat) (x : Ctx) : (s.setCtx t x).tal = s.tal := rfl
@[simp] theorem State.setCtx_slots (s : State) (t : Nat) (x : Ctx) : (s.setCtx t x).slots = s.slots := rfl
@[simp] theorem State.setCtx_gens (s : State) (t : Nat) (x : Ctx) : (s.setCtx t x).gens = s.gens := rfl
@[simp] theorem State.setCtx_ts (s : State) (t : Nat) (x : Ctx) : (s.setCtx t x).ts = s.ts := rfl
@[simp] theorem State.setCtx_ic (s : State) (t : Nat) (x : Ctx) : (s.setCtx t x).ic = s.ic := rfl
@[simp] theorem State.setCtx_pm (s : State) (t : Nat) (x : Ctx) : (s.setCtx t x).pm = s.pm := rfl
@[simp] theorem State.setCtx_pw (s : State) (t : Nat) (x : Ctx) : (s.setCtx t x).pw = s.pw := rfl
@[simp] theorem State.setCtx_lanes (s : State) (t : Nat) (x : Ctx) : (s.setCtx t x).lanes = s.lanes := rfl
@[simp] theorem State.setCtx_belay (s : State) (t : Nat) (x : Ctx) : (s.setCtx t x).belay = s.belay := rfl
@[simp] theorem State.setCtx_pr (s : State) (t : Nat) (x : Ctx) : (s.setCtx t x).pr = s.pr := rfl
@[simp] theorem State.setCtx_tp (s : State) (t : Nat) (x : Ctx) : (s.setCtx t x).tp = s.tp := rfl
@[simp] theorem State.setCtx_keys (s : State) (t : Nat) (x : Ctx) : (s.setCtx t x).keys = s.keys := rfl
@[simp] theorem State.setCtx_ub (s : State) (t : Nat) (x : Ctx) : (s.setCtx t x).ub = s.ub := rfl
@[simp] theorem State.setCtx_presets (s : State) (t : Nat) (x : Ctx) : (s.setCtx t x).presets = s.presets := rfl
@[simp] theorem State.setCtx_termRx (s : State) (t : Nat) (x : Ctx) : (s.setCtx t x).termRx = s.termRx := rfl
@[simp] theorem State.setCtx_chains (s : State) (t : Nat) (x : Ctx) : (s.setCtx t x).chains = s.chains := rfl
@[simp] theorem State.setCtx_fillRun (s : State) (t : Nat) (x : Ctx) : (s.setCtx t x).fillRun = s.fillRun := rfl
@[simp] theorem State.setCtx_onuHolds (s : State) (t : Nat) (x : Ctx) : (s.setCtx t x).onuHolds = s.onuHolds := rfl
@[simp] theorem State.setCtx_act (s : State) (t : Nat) (x : Ctx) : (s.setCtx t x).act = s.act := rfl
@[simp] theorem State.setCtx_allocs (s : State) (t : Nat) (x : Ctx) : (s.setCtx t x).allocs = s.allocs := rfl
@[simp] theorem State.setCtx_allocHolds (s : State) (t : Nat) (x : Ctx) : (s.setCtx t x).allocHolds = s.allocHolds := rfl
@[simp] theorem State.setCtx_ge (s : State) (t : Nat) (x : Ctx) : (s.setCtx t x).ge = s.ge := rfl
@[simp] theorem State.setCtx_trees (s : State) (t : Nat) (x : Ctx) : (s.setCtx t x).trees = s.trees := rfl
@[simp] theorem State.setCtx_rows (s : State) (t : Nat) (x : Ctx) : (s.setCtx t x).rows = s.rows := rfl
@[simp] theorem State.setCtx_pc (s : State) (t : Nat) (x : Ctx) : (s.setCtx t x).pc = s.pc := rfl
@[simp] theorem State.setCtx_cl (s : State) (t : Nat) (x : Ctx) : (s.setCtx t x).cl = s.cl := rfl
@[simp] theorem State.setCtx_qs (s : State) (t : Nat) (x : Ctx) : (s.setCtx t x).qs = s.qs := rfl
@[simp] theorem State.setCtx_bm (s : State) (t : Nat) (x : Ctx) : (s.setCtx t x).bm = s.bm := rfl
@[simp] theorem State.setCtx_hd (s : State) (t : Nat) (x : Ctx) : (s.setCtx t x).hd = s.hd := rfl
@[simp] theorem State.setCtx_imh (s : State) (t : Nat) (x : Ctx) : (s.setCtx t x).imh = s.imh := rfl
@[simp] theorem State.setCtx_lasting (s : State) (t : Nat) (x : Ctx) : (s.setCtx t x).lasting = s.lasting := rfl

/-! ### State.setAlloc -/

@[simp] theorem State.setAlloc_pending (s : State) (a : Nat) (x : Alloc) : (s.setAlloc a x).pending = s.pending := rfl
@[simp] theorem State.setAlloc_rdata (s : State) (a : Nat) (x : Alloc) : (s.setAlloc a x).rdata = s.rdata := rfl
@[simp] theorem State.setAlloc_out (s : State) (a : Nat) (x : Alloc) : (s.setAlloc a x).out = s.out := rfl
@[simp] theorem State.setAlloc_fresh (s : State) (a : Nat) (x : Alloc) : (s.setAlloc a x).fresh = s.fresh := rfl
@[simp] theorem State.setAlloc_rf (s : State) (a : Nat) (x : Alloc) : (s.setAlloc a x).rf = s.rf := rfl
@[simp] theorem State.setAlloc_caps (s : State) (a : Nat) (x : Alloc) : (s.setAlloc a x).caps = s.caps := rfl
@[simp] theorem State.setAlloc_glb (s : State) (a : Nat) (x : Alloc) : (s.setAlloc a x).glb = s.glb := rfl
@[simp] theorem State.setAlloc_evu (s : State) (a : Nat) (x : Alloc) : (s.setAlloc a x).evu = s.evu := rfl
@[simp] theorem State.setAlloc_tal (s : State) (a : Nat) (x : Alloc) : (s.setAlloc a x).tal = s.tal := rfl
@[simp] theorem State.setAlloc_slots (s : State) (a : Nat) (x : Alloc) : (s.setAlloc a x).slots = s.slots := rfl
@[simp] theorem State.setAlloc_gens (s : State) (a : Nat) (x : Alloc) : (s.setAlloc a x).gens = s.gens := rfl
@[simp] theorem State.setAlloc_ts (s : State) (a : Nat) (x : Alloc) : (s.setAlloc a x).ts = s.ts := rfl
@[simp] theorem State.setAlloc_ic (s : State) (a : Nat) (x : Alloc) : (s.setAlloc a x).ic = s.ic := rfl
@[simp] theorem State.setAlloc_pm (s : State) (a : Nat) (x : Alloc) : (s.setAlloc a x).pm = s.pm := rfl
@[simp] theorem State.setAlloc_pw (s : State) (a : Nat) (x : Alloc) : (s.setAlloc a x).pw = s.pw := rfl
@[simp] theorem State.setAlloc_lanes (s : State) (a : Nat) (x : Alloc) : (s.setAlloc a x).lanes = s.lanes := rfl
@[simp] theorem State.setAlloc_belay (s : State) (a : Nat) (x : Alloc) : (s.setAlloc a x).belay = s.belay := rfl
@[simp] theorem State.setAlloc_pr (s : State) (a : Nat) (x : Alloc) : (s.setAlloc a x).pr = s.pr := rfl
@[simp] theorem State.setAlloc_tp (s : State) (a : Nat) (x : Alloc) : (s.setAlloc a x).tp = s.tp := rfl
@[simp] theorem State.setAlloc_keys (s : State) (a : Nat) (x : Alloc) : (s.setAlloc a x).keys = s.keys := rfl
@[simp] theorem State.setAlloc_ub (s : State) (a : Nat) (x : Alloc) : (s.setAlloc a x).ub = s.ub := rfl
@[simp] theorem State.setAlloc_presets (s : State) (a : Nat) (x : Alloc) : (s.setAlloc a x).presets = s.presets := rfl
@[simp] theorem State.setAlloc_termRx (s : State) (a : Nat) (x : Alloc) : (s.setAlloc a x).termRx = s.termRx := rfl
@[simp] theorem State.setAlloc_chains (s : State) (a : Nat) (x : Alloc) : (s.setAlloc a x).chains = s.chains := rfl
@[simp] theorem State.setAlloc_fillRun (s : State) (a : Nat) (x : Alloc) : (s.setAlloc a x).fillRun = s.fillRun := rfl
@[simp] theorem State.setAlloc_ctxs (s : State) (a : Nat) (x : Alloc) : (s.setAlloc a x).ctxs = s.ctxs := rfl
@[simp] theorem State.setAlloc_onuHolds (s : State) (a : Nat) (x : Alloc) : (s.setAlloc a x).onuHolds = s.onuHolds := rfl
@[simp] theorem State.setAlloc_act (s : State) (a : Nat) (x : Alloc) : (s.setAlloc a x).act = s.act := rfl
@[simp] theorem State.setAlloc_allocHolds (s : State) (a : Nat) (x : Alloc) : (s.setAlloc a x).allocHolds = s.allocHolds := rfl
@[simp] theorem State.setAlloc_ge (s : State) (a : Nat) (x : Alloc) : (s.setAlloc a x).ge = s.ge := rfl
@[simp] theorem State.setAlloc_trees (s : State) (a : Nat) (x : Alloc) : (s.setAlloc a x).trees = s.trees := rfl
@[simp] theorem State.setAlloc_rows (s : State) (a : Nat) (x : Alloc) : (s.setAlloc a x).rows = s.rows := rfl
@[simp] theorem State.setAlloc_pc (s : State) (a : Nat) (x : Alloc) : (s.setAlloc a x).pc = s.pc := rfl
@[simp] theorem State.setAlloc_cl (s : State) (a : Nat) (x : Alloc) : (s.setAlloc a x).cl = s.cl := rfl
@[simp] theorem State.setAlloc_qs (s : State) (a : Nat) (x : Alloc) : (s.setAlloc a x).qs = s.qs := rfl
@[simp] theorem State.setAlloc_bm (s : State) (a : Nat) (x : Alloc) : (s.setAlloc a x).bm = s.bm := rfl
@[simp] theorem State.setAlloc_hd (s : State) (a : Nat) (x : Alloc) : (s.setAlloc a x).hd = s.hd := rfl
@[simp] theorem State.setAlloc_imh (s : State) (a : Nat) (x : Alloc) : (s.setAlloc a x).imh = s.imh := rfl
@[simp] theorem State.setAlloc_lasting (s : State) (a : Nat) (x : Alloc) : (s.setAlloc a x).lasting = s.lasting := rfl

/-! ### State.setTree -/

@[simp] theorem State.setTree_pending (s : State) (p : Nat) (x : GeTree) : (s.setTree p x).pending = s.pending := rfl
@[simp] theorem State.setTree_rdata (s : State) (p : Nat) (x : GeTree) : (s.setTree p x).rdata = s.rdata := rfl
@[simp] theorem State.setTree_out (s : State) (p : Nat) (x : GeTree) : (s.setTree p x).out = s.out := rfl
@[simp] theorem State.setTree_fresh (s : State) (p : Nat) (x : GeTree) : (s.setTree p x).fresh = s.fresh := rfl
@[simp] theorem State.setTree_rf (s : State) (p : Nat) (x : GeTree) : (s.setTree p x).rf = s.rf := rfl
@[simp] theorem State.setTree_caps (s : State) (p : Nat) (x : GeTree) : (s.setTree p x).caps = s.caps := rfl
@[simp] theorem State.setTree_glb (s : State) (p : Nat) (x : GeTree) : (s.setTree p x).glb = s.glb := rfl
@[simp] theorem State.setTree_evu (s : State) (p : Nat) (x : GeTree) : (s.setTree p x).evu = s.evu := rfl
@[simp] theorem State.setTree_tal (s : State) (p : Nat) (x : GeTree) : (s.setTree p x).tal = s.tal := rfl
@[simp] theorem State.setTree_slots (s : State) (p : Nat) (x : GeTree) : (s.setTree p x).slots = s.slots := rfl
@[simp] theorem State.setTree_gens (s : State) (p : Nat) (x : GeTree) : (s.setTree p x).gens = s.gens := rfl
@[simp] theorem State.setTree_ts (s : State) (p : Nat) (x : GeTree) : (s.setTree p x).ts = s.ts := rfl
@[simp] theorem State.setTree_ic (s : State) (p : Nat) (x : GeTree) : (s.setTree p x).ic = s.ic := rfl
@[simp] theorem State.setTree_pm (s : State) (p : Nat) (x : GeTree) : (s.setTree p x).pm = s.pm := rfl
@[simp] theorem State.setTree_pw (s : State) (p : Nat) (x : GeTree) : (s.setTree p x).pw = s.pw := rfl
@[simp] theorem State.setTree_lanes (s : State) (p : Nat) (x : GeTree) : (s.setTree p x).lanes = s.lanes := rfl
@[simp] theorem State.setTree_belay (s : State) (p : Nat) (x : GeTree) : (s.setTree p x).belay = s.belay := rfl
@[simp] theorem State.setTree_pr (s : State) (p : Nat) (x : GeTree) : (s.setTree p x).pr = s.pr := rfl
@[simp] theorem State.setTree_tp (s : State) (p : Nat) (x : GeTree) : (s.setTree p x).tp = s.tp := rfl
@[simp] theorem State.setTree_keys (s : State) (p : Nat) (x : GeTree) : (s.setTree p x).keys = s.keys := rfl
@[simp] theorem State.setTree_ub (s : State) (p : Nat) (x : GeTree) : (s.setTree p x).ub = s.ub := rfl
@[simp] theorem State.setTree_presets (s : State) (p : Nat) (x : GeTree) : (s.setTree p x).presets = s.presets := rfl
@[simp] theorem State.setTree_termRx (s : State) (p : Nat) (x : GeTree) : (s.setTree p x).termRx = s.termRx := rfl
@[simp] theorem State.setTree_chains (s : State) (p : Nat) (x : GeTree) : (s.setTree p x).chains = s.chains := rfl
@[simp] theorem State.setTree_fillRun (s : State) (p : Nat) (x : GeTree) : (s.setTree p x).fillRun = s.fillRun := rfl
@[simp] theorem State.setTree_ctxs (s : State) (p : Nat) (x : GeTree) : (s.setTree p x).ctxs = s.ctxs := rfl
@[simp] theorem State.setTree_onuHolds (s : State) (p : Nat) (x : GeTree) : (s.setTree p x).onuHolds = s.onuHolds := rfl
@[simp] theorem State.setTree_act (s : State) (p : Nat) (x : GeTree) : (s.setTree p x).act = s.act := rfl
@[simp] theorem State.setTree_allocs (s : State) (p : Nat) (x : GeTree) : (s.setTree p x).allocs = s.allocs := rfl
@[simp] theorem State.setTree_allocHolds (s : State) (p : Nat) (x : GeTree) : (s.setTree p x).allocHolds = s.allocHolds := rfl
@[simp] theorem State.setTree_ge (s : State) (p : Nat) (x : GeTree) : (s.setTree p x).ge = s.ge := rfl
@[simp] theorem State.setTree_rows (s : State) (p : Nat) (x : GeTree) : (s.setTree p x).rows = s.rows := rfl
@[simp] theorem State.setTree_pc (s : State) (p : Nat) (x : GeTree) : (s.setTree p x).pc = s.pc := rfl
@[simp] theorem State.setTree_cl (s : State) (p : Nat) (x : GeTree) : (s.setTree p x).cl = s.cl := rfl
@[simp] theorem State.setTree_qs (s : State) (p : Nat) (x : GeTree) : (s.setTree p x).qs = s.qs := rfl
@[simp] theorem State.setTree_bm (s : State) (p : Nat) (x : GeTree) : (s.setTree p x).bm = s.bm := rfl
@[simp] theorem State.setTree_hd (s : State) (p : Nat) (x : GeTree) : (s.setTree p x).hd = s.hd := rfl
@[simp] theorem State.setTree_imh (s : State) (p : Nat) (x : GeTree) : (s.setTree p x).imh = s.imh := rfl
@[simp] theorem State.setTree_lasting (s : State) (p : Nat) (x : GeTree) : (s.setTree p x).lasting = s.lasting := rfl

/-! ### State.setActTree -/

@[simp] theorem State.setActTree_pending (s : State) (p : Nat) (x : ActTree) : (s.setActTree p x).pending = s.pending := rfl
@[simp] theorem State.setActTree_rdata (s : State) (p : Nat) (x : ActTree) : (s.setActTree p x).rdata = s.rdata := rfl
@[simp] theorem State.setActTree_out (s : State) (p : Nat) (x : ActTree) : (s.setActTree p x).out = s.out := rfl
@[simp] theorem State.setActTree_fresh (s : State) (p : Nat) (x : ActTree) : (s.setActTree p x).fresh = s.fresh := rfl
@[simp] theorem State.setActTree_rf (s : State) (p : Nat) (x : ActTree) : (s.setActTree p x).rf = s.rf := rfl
@[simp] theorem State.setActTree_caps (s : State) (p : Nat) (x : ActTree) : (s.setActTree p x).caps = s.caps := rfl
@[simp] theorem State.setActTree_glb (s : State) (p : Nat) (x : ActTree) : (s.setActTree p x).glb = s.glb := rfl
@[simp] theorem State.setActTree_evu (s : State) (p : Nat) (x : ActTree) : (s.setActTree p x).evu = s.evu := rfl
@[simp] theorem State.setActTree_tal (s : State) (p : Nat) (x : ActTree) : (s.setActTree p x).tal = s.tal := rfl
@[simp] theorem State.setActTree_slots (s : State) (p : Nat) (x : ActTree) : (s.setActTree p x).slots = s.slots := rfl
@[simp] theorem State.setActTree_gens (s : State) (p : Nat) (x : ActTree) : (s.setActTree p x).gens = s.gens := rfl
@[simp] theorem State.setActTree_ts (s : State) (p : Nat) (x : ActTree) : (s.setActTree p x).ts = s.ts := rfl
@[simp] theorem State.setActTree_ic (s : State) (p : Nat) (x : ActTree) : (s.setActTree p x).ic = s.ic := rfl
@[simp] theorem State.setActTree_pm (s : State) (p : Nat) (x : ActTree) : (s.setActTree p x).pm = s.pm := rfl
@[simp] theorem State.setActTree_pw (s : State) (p : Nat) (x : ActTree) : (s.setActTree p x).pw = s.pw := rfl
@[simp] theorem State.setActTree_lanes (s : State) (p : Nat) (x : ActTree) : (s.setActTree p x).lanes = s.lanes := rfl
@[simp] theorem State.setActTree_belay (s : State) (p : Nat) (x : ActTree) : (s.setActTree p x).belay = s.belay := rfl
@[simp] theorem State.setActTree_pr (s : State) (p : Nat) (x : ActTree) : (s.setActTree p x).pr = s.pr := rfl
@[simp] theorem State.setActTree_tp (s : State) (p : Nat) (x : ActTree) : (s.setActTree p x).tp = s.tp := rfl
@[simp] theorem State.setActTree_keys (s : State) (p : Nat) (x : ActTree) : (s.setActTree p x).keys = s.keys := rfl
@[simp] theorem State.setActTree_ub (s : State) (p : Nat) (x : ActTree) : (s.setActTree p x).ub = s.ub := rfl
@[simp] theorem State.setActTree_presets (s : State) (p : Nat) (x : ActTree) : (s.setActTree p x).presets = s.presets := rfl
@[simp] theorem State.setActTree_termRx (s : State) (p : Nat) (x : ActTree) : (s.setActTree p x).termRx = s.termRx := rfl
@[simp] theorem State.setActTree_chains (s : State) (p : Nat) (x : ActTree) : (s.setActTree p x).chains = s.chains := rfl
@[simp] theorem State.setActTree_fillRun (s : State) (p : Nat) (x : ActTree) : (s.setActTree p x).fillRun = s.fillRun := rfl
@[simp] theorem State.setActTree_ctxs (s : State) (p : Nat) (x : ActTree) : (s.setActTree p x).ctxs = s.ctxs := rfl
@[simp] theorem State.setActTree_onuHolds (s : State) (p : Nat) (x : ActTree) : (s.setActTree p x).onuHolds = s.onuHolds := rfl
@[simp] theorem State.setActTree_allocs (s : State) (p : Nat) (x : ActTree) : (s.setActTree p x).allocs = s.allocs := rfl
@[simp] theorem State.setActTree_allocHolds (s : State) (p : Nat) (x : ActTree) : (s.setActTree p x).allocHolds = s.allocHolds := rfl
@[simp] theorem State.setActTree_ge (s : State) (p : Nat) (x : ActTree) : (s.setActTree p x).ge = s.ge := rfl
@[simp] theorem State.setActTree_trees (s : State) (p : Nat) (x : ActTree) : (s.setActTree p x).trees = s.trees := rfl
@[simp] theorem State.setActTree_rows (s : State) (p : Nat) (x : ActTree) : (s.setActTree p x).rows = s.rows := rfl
@[simp] theorem State.setActTree_pc (s : State) (p : Nat) (x : ActTree) : (s.setActTree p x).pc = s.pc := rfl
@[simp] theorem State.setActTree_cl (s : State) (p : Nat) (x : ActTree) : (s.setActTree p x).cl = s.cl := rfl
@[simp] theorem State.setActTree_qs (s : State) (p : Nat) (x : ActTree) : (s.setActTree p x).qs = s.qs := rfl
@[simp] theorem State.setActTree_bm (s : State) (p : Nat) (x : ActTree) : (s.setActTree p x).bm = s.bm := rfl
@[simp] theorem State.setActTree_hd (s : State) (p : Nat) (x : ActTree) : (s.setActTree p x).hd = s.hd := rfl
@[simp] theorem State.setActTree_imh (s : State) (p : Nat) (x : ActTree) : (s.setActTree p x).imh = s.imh := rfl
@[simp] theorem State.setActTree_lasting (s : State) (p : Nat) (x : ActTree) : (s.setActTree p x).lasting = s.lasting := rfl

/-! ### State.setPreset -/

@[simp] theorem State.setPreset_pending (s : State) (t : Nat) (x : Preset) : (s.setPreset t x).pending = s.pending := rfl
@[simp] theorem State.setPreset_rdata (s : State) (t : Nat) (x : Preset) : (s.setPreset t x).rdata = s.rdata := rfl
@[simp] theorem State.setPreset_out (s : State) (t : Nat) (x : Preset) : (s.setPreset t x).out = s.out := rfl
@[simp] theorem State.setPreset_fresh (s : State) (t : Nat) (x : Preset) : (s.setPreset t x).fresh = s.fresh := rfl
@[simp] theorem State.setPreset_rf (s : State) (t : Nat) (x : Preset) : (s.setPreset t x).rf = s.rf := rfl
@[simp] theorem State.setPreset_caps (s : State) (t : Nat) (x : Preset) : (s.setPreset t x).caps = s.caps := rfl
@[simp] theorem State.setPreset_glb (s : State) (t : Nat) (x : Preset) : (s.setPreset t x).glb = s.glb := rfl
@[simp] theorem State.setPreset_evu (s : State) (t : Nat) (x : Preset) : (s.setPreset t x).evu = s.evu := rfl
@[simp] theorem State.setPreset_tal (s : State) (t : Nat) (x : Preset) : (s.setPreset t x).tal = s.tal := rfl
@[simp] theorem State.setPreset_slots (s : State) (t : Nat) (x : Preset) : (s.setPreset t x).slots = s.slots := rfl
@[simp] theorem State.setPreset_gens (s : State) (t : Nat) (x : Preset) : (s.setPreset t x).gens = s.gens := rfl
@[simp] theorem State.setPreset_ts (s : State) (t : Nat) (x : Preset) : (s.setPreset t x).ts = s.ts := rfl
@[simp] theorem State.setPreset_ic (s : State) (t : Nat) (x : Preset) : (s.setPreset t x).ic = s.ic := rfl
@[simp] theorem State.setPreset_pm (s : State) (t : Nat) (x : Preset) : (s.setPreset t x).pm = s.pm := rfl
@[simp] theorem State.setPreset_pw (s : State) (t : Nat) (x : Preset) : (s.setPreset t x).pw = s.pw := rfl
@[simp] theorem State.setPreset_lanes (s : State) (t : Nat) (x : Preset) : (s.setPreset t x).lanes = s.lanes := rfl
@[simp] theorem State.setPreset_belay (s : State) (t : Nat) (x : Preset) : (s.setPreset t x).belay = s.belay := rfl
@[simp] theorem State.setPreset_pr (s : State) (t : Nat) (x : Preset) : (s.setPreset t x).pr = s.pr := rfl
@[simp] theorem State.setPreset_tp (s : State) (t : Nat) (x : Preset) : (s.setPreset t x).tp = s.tp := rfl
@[simp] theorem State.setPreset_keys (s : State) (t : Nat) (x : Preset) : (s.setPreset t x).keys = s.keys := rfl
@[simp] theorem State.setPreset_ub (s : State) (t : Nat) (x : Preset) : (s.setPreset t x).ub = s.ub := rfl
@[simp] theorem State.setPreset_termRx (s : State) (t : Nat) (x : Preset) : (s.setPreset t x).termRx = s.termRx := rfl
@[simp] theorem State.setPreset_chains (s : State) (t : Nat) (x : Preset) : (s.setPreset t x).chains = s.chains := rfl
@[simp] theorem State.setPreset_fillRun (s : State) (t : Nat) (x : Preset) : (s.setPreset t x).fillRun = s.fillRun := rfl
@[simp] theorem State.setPreset_ctxs (s : State) (t : Nat) (x : Preset) : (s.setPreset t x).ctxs = s.ctxs := rfl
@[simp] theorem State.setPreset_onuHolds (s : State) (t : Nat) (x : Preset) : (s.setPreset t x).onuHolds = s.onuHolds := rfl
@[simp] theorem State.setPreset_act (s : State) (t : Nat) (x : Preset) : (s.setPreset t x).act = s.act := rfl
@[simp] theorem State.setPreset_allocs (s : State) (t : Nat) (x : Preset) : (s.setPreset t x).allocs = s.allocs := rfl
@[simp] theorem State.setPreset_allocHolds (s : State) (t : Nat) (x : Preset) : (s.setPreset t x).allocHolds = s.allocHolds := rfl
@[simp] theorem State.setPreset_ge (s : State) (t : Nat) (x : Preset) : (s.setPreset t x).ge = s.ge := rfl
@[simp] theorem State.setPreset_trees (s : State) (t : Nat) (x : Preset) : (s.setPreset t x).trees = s.trees := rfl
@[simp] theorem State.setPreset_rows (s : State) (t : Nat) (x : Preset) : (s.setPreset t x).rows = s.rows := rfl
@[simp] theorem State.setPreset_pc (s : State) (t : Nat) (x : Preset) : (s.setPreset t x).pc = s.pc := rfl
@[simp] theorem State.setPreset_cl (s : State) (t : Nat) (x : Preset) : (s.setPreset t x).cl = s.cl := rfl
@[simp] theorem State.setPreset_qs (s : State) (t : Nat) (x : Preset) : (s.setPreset t x).qs = s.qs := rfl
@[simp] theorem State.setPreset_bm (s : State) (t : Nat) (x : Preset) : (s.setPreset t x).bm = s.bm := rfl
@[simp] theorem State.setPreset_hd (s : State) (t : Nat) (x : Preset) : (s.setPreset t x).hd = s.hd := rfl
@[simp] theorem State.setPreset_imh (s : State) (t : Nat) (x : Preset) : (s.setPreset t x).imh = s.imh := rfl
@[simp] theorem State.setPreset_lasting (s : State) (t : Nat) (x : Preset) : (s.setPreset t x).lasting = s.lasting := rfl

/-! ### State.setTrx -/

@[simp] theorem State.setTrx_pending (s : State) (t : Nat) (x : TermRx) : (s.setTrx t x).pending = s.pending := rfl
@[simp] theorem State.setTrx_rdata (s : State) (t : Nat) (x : TermRx) : (s.setTrx t x).rdata = s.rdata := rfl
@[simp] theorem State.setTrx_out (s : State) (t : Nat) (x : TermRx) : (s.setTrx t x).out = s.out := rfl
@[simp] theorem State.setTrx_fresh (s : State) (t : Nat) (x : TermRx) : (s.setTrx t x).fresh = s.fresh := rfl
@[simp] theorem State.setTrx_rf (s : State) (t : Nat) (x : TermRx) : (s.setTrx t x).rf = s.rf := rfl
@[simp] theorem State.setTrx_caps (s : State) (t : Nat) (x : TermRx) : (s.setTrx t x).caps = s.caps := rfl
@[simp] theorem State.setTrx_glb (s : State) (t : Nat) (x : TermRx) : (s.setTrx t x).glb = s.glb := rfl
@[simp] theorem State.setTrx_evu (s : State) (t : Nat) (x : TermRx) : (s.setTrx t x).evu = s.evu := rfl
@[simp] theorem State.setTrx_tal (s : State) (t : Nat) (x : TermRx) : (s.setTrx t x).tal = s.tal := rfl
@[simp] theorem State.setTrx_slots (s : State) (t : Nat) (x : TermRx) : (s.setTrx t x).slots = s.slots := rfl
@[simp] theorem State.setTrx_gens (s : State) (t : Nat) (x : TermRx) : (s.setTrx t x).gens = s.gens := rfl
@[simp] theorem State.setTrx_ts (s : State) (t : Nat) (x : TermRx) : (s.setTrx t x).ts = s.ts := rfl
@[simp] theorem State.setTrx_ic (s : State) (t : Nat) (x : TermRx) : (s.setTrx t x).ic = s.ic := rfl
@[simp] theorem State.setTrx_pm (s : State) (t : Nat) (x : TermRx) : (s.setTrx t x).pm = s.pm := rfl
@[simp] theorem State.setTrx_pw (s : State) (t : Nat) (x : TermRx) : (s.setTrx t x).pw = s.pw := rfl
@[simp] theorem State.setTrx_lanes (s : State) (t : Nat) (x : TermRx) : (s.setTrx t x).lanes = s.lanes := rfl
@[simp] theorem State.setTrx_belay (s : State) (t : Nat) (x : TermRx) : (s.setTrx t x).belay = s.belay := rfl
@[simp] theorem State.setTrx_pr (s : State) (t : Nat) (x : TermRx) : (s.setTrx t x).pr = s.pr := rfl
@[simp] theorem State.setTrx_tp (s : State) (t : Nat) (x : TermRx) : (s.setTrx t x).tp = s.tp := rfl
@[simp] theorem State.setTrx_keys (s : State) (t : Nat) (x : TermRx) : (s.setTrx t x).keys = s.keys := rfl
@[simp] theorem State.setTrx_ub (s : State) (t : Nat) (x : TermRx) : (s.setTrx t x).ub = s.ub := rfl
@[simp] theorem State.setTrx_presets (s : State) (t : Nat) (x : TermRx) : (s.setTrx t x).presets = s.presets := rfl
@[simp] theorem State.setTrx_chains (s : State) (t : Nat) (x : TermRx) : (s.setTrx t x).chains = s.chains := rfl
@[simp] theorem State.setTrx_fillRun (s : State) (t : Nat) (x : TermRx) : (s.setTrx t x).fillRun = s.fillRun := rfl
@[simp] theorem State.setTrx_ctxs (s : State) (t : Nat) (x : TermRx) : (s.setTrx t x).ctxs = s.ctxs := rfl
@[simp] theorem State.setTrx_onuHolds (s : State) (t : Nat) (x : TermRx) : (s.setTrx t x).onuHolds = s.onuHolds := rfl
@[simp] theorem State.setTrx_act (s : State) (t : Nat) (x : TermRx) : (s.setTrx t x).act = s.act := rfl
@[simp] theorem State.setTrx_allocs (s : State) (t : Nat) (x : TermRx) : (s.setTrx t x).allocs = s.allocs := rfl
@[simp] theorem State.setTrx_allocHolds (s : State) (t : Nat) (x : TermRx) : (s.setTrx t x).allocHolds = s.allocHolds := rfl
@[simp] theorem State.setTrx_ge (s : State) (t : Nat) (x : TermRx) : (s.setTrx t x).ge = s.ge := rfl
@[simp] theorem State.setTrx_trees (s : State) (t : Nat) (x : TermRx) : (s.setTrx t x).trees = s.trees := rfl
@[simp] theorem State.setTrx_rows (s : State) (t : Nat) (x : TermRx) : (s.setTrx t x).rows = s.rows := rfl
@[simp] theorem State.setTrx_pc (s : State) (t : Nat) (x : TermRx) : (s.setTrx t x).pc = s.pc := rfl
@[simp] theorem State.setTrx_cl (s : State) (t : Nat) (x : TermRx) : (s.setTrx t x).cl = s.cl := rfl
@[simp] theorem State.setTrx_qs (s : State) (t : Nat) (x : TermRx) : (s.setTrx t x).qs = s.qs := rfl
@[simp] theorem State.setTrx_bm (s : State) (t : Nat) (x : TermRx) : (s.setTrx t x).bm = s.bm := rfl
@[simp] theorem State.setTrx_hd (s : State) (t : Nat) (x : TermRx) : (s.setTrx t x).hd = s.hd := rfl
@[simp] theorem State.setTrx_imh (s : State) (t : Nat) (x : TermRx) : (s.setTrx t x).imh = s.imh := rfl
@[simp] theorem State.setTrx_lasting (s : State) (t : Nat) (x : TermRx) : (s.setTrx t x).lasting = s.lasting := rfl

/-! ### State.setKeyCtx -/

@[simp] theorem State.setKeyCtx_pending (s : State) (t : Nat) (x : KeyCtx) : (s.setKeyCtx t x).pending = s.pending := rfl
@[simp] theorem State.setKeyCtx_rdata (s : State) (t : Nat) (x : KeyCtx) : (s.setKeyCtx t x).rdata = s.rdata := rfl
@[simp] theorem State.setKeyCtx_out (s : State) (t : Nat) (x : KeyCtx) : (s.setKeyCtx t x).out = s.out := rfl
@[simp] theorem State.setKeyCtx_fresh (s : State) (t : Nat) (x : KeyCtx) : (s.setKeyCtx t x).fresh = s.fresh := rfl
@[simp] theorem State.setKeyCtx_rf (s : State) (t : Nat) (x : KeyCtx) : (s.setKeyCtx t x).rf = s.rf := rfl
@[simp] theorem State.setKeyCtx_caps (s : State) (t : Nat) (x : KeyCtx) : (s.setKeyCtx t x).caps = s.caps := rfl
@[simp] theorem State.setKeyCtx_glb (s : State) (t : Nat) (x : KeyCtx) : (s.setKeyCtx t x).glb = s.glb := rfl
@[simp] theorem State.setKeyCtx_evu (s : State) (t : Nat) (x : KeyCtx) : (s.setKeyCtx t x).evu = s.evu := rfl
@[simp] theorem State.setKeyCtx_tal (s : State) (t : Nat) (x : KeyCtx) : (s.setKeyCtx t x).tal = s.tal := rfl
@[simp] theorem State.setKeyCtx_slots (s : State) (t : Nat) (x : KeyCtx) : (s.setKeyCtx t x).slots = s.slots := rfl
@[simp] theorem State.setKeyCtx_gens (s : State) (t : Nat) (x : KeyCtx) : (s.setKeyCtx t x).gens = s.gens := rfl
@[simp] theorem State.setKeyCtx_ts (s : State) (t : Nat) (x : KeyCtx) : (s.setKeyCtx t x).ts = s.ts := rfl
@[simp] theorem State.setKeyCtx_ic (s : State) (t : Nat) (x : KeyCtx) : (s.setKeyCtx t x).ic = s.ic := rfl
@[simp] theorem State.setKeyCtx_pm (s : State) (t : Nat) (x : KeyCtx) : (s.setKeyCtx t x).pm = s.pm := rfl
@[simp] theorem State.setKeyCtx_pw (s : State) (t : Nat) (x : KeyCtx) : (s.setKeyCtx t x).pw = s.pw := rfl
@[simp] theorem State.setKeyCtx_lanes (s : State) (t : Nat) (x : KeyCtx) : (s.setKeyCtx t x).lanes = s.lanes := rfl
@[simp] theorem State.setKeyCtx_belay (s : State) (t : Nat) (x : KeyCtx) : (s.setKeyCtx t x).belay = s.belay := rfl
@[simp] theorem State.setKeyCtx_pr (s : State) (t : Nat) (x : KeyCtx) : (s.setKeyCtx t x).pr = s.pr := rfl
@[simp] theorem State.setKeyCtx_tp (s : State) (t : Nat) (x : KeyCtx) : (s.setKeyCtx t x).tp = s.tp := rfl
@[simp] theorem State.setKeyCtx_ub (s : State) (t : Nat) (x : KeyCtx) : (s.setKeyCtx t x).ub = s.ub := rfl
@[simp] theorem State.setKeyCtx_presets (s : State) (t : Nat) (x : KeyCtx) : (s.setKeyCtx t x).presets = s.presets := rfl
@[simp] theorem State.setKeyCtx_termRx (s : State) (t : Nat) (x : KeyCtx) : (s.setKeyCtx t x).termRx = s.termRx := rfl
@[simp] theorem State.setKeyCtx_chains (s : State) (t : Nat) (x : KeyCtx) : (s.setKeyCtx t x).chains = s.chains := rfl
@[simp] theorem State.setKeyCtx_fillRun (s : State) (t : Nat) (x : KeyCtx) : (s.setKeyCtx t x).fillRun = s.fillRun := rfl
@[simp] theorem State.setKeyCtx_ctxs (s : State) (t : Nat) (x : KeyCtx) : (s.setKeyCtx t x).ctxs = s.ctxs := rfl
@[simp] theorem State.setKeyCtx_onuHolds (s : State) (t : Nat) (x : KeyCtx) : (s.setKeyCtx t x).onuHolds = s.onuHolds := rfl
@[simp] theorem State.setKeyCtx_act (s : State) (t : Nat) (x : KeyCtx) : (s.setKeyCtx t x).act = s.act := rfl
@[simp] theorem State.setKeyCtx_allocs (s : State) (t : Nat) (x : KeyCtx) : (s.setKeyCtx t x).allocs = s.allocs := rfl
@[simp] theorem State.setKeyCtx_allocHolds (s : State) (t : Nat) (x : KeyCtx) : (s.setKeyCtx t x).allocHolds = s.allocHolds := rfl
@[simp] theorem State.setKeyCtx_ge (s : State) (t : Nat) (x : KeyCtx) : (s.setKeyCtx t x).ge = s.ge := rfl
@[simp] theorem State.setKeyCtx_trees (s : State) (t : Nat) (x : KeyCtx) : (s.setKeyCtx t x).trees = s.trees := rfl
@[simp] theorem State.setKeyCtx_rows (s : State) (t : Nat) (x : KeyCtx) : (s.setKeyCtx t x).rows = s.rows := rfl
@[simp] theorem State.setKeyCtx_pc (s : State) (t : Nat) (x : KeyCtx) : (s.setKeyCtx t x).pc = s.pc := rfl
@[simp] theorem State.setKeyCtx_cl (s : State) (t : Nat) (x : KeyCtx) : (s.setKeyCtx t x).cl = s.cl := rfl
@[simp] theorem State.setKeyCtx_qs (s : State) (t : Nat) (x : KeyCtx) : (s.setKeyCtx t x).qs = s.qs := rfl
@[simp] theorem State.setKeyCtx_bm (s : State) (t : Nat) (x : KeyCtx) : (s.setKeyCtx t x).bm = s.bm := rfl
@[simp] theorem State.setKeyCtx_hd (s : State) (t : Nat) (x : KeyCtx) : (s.setKeyCtx t x).hd = s.hd := rfl
@[simp] theorem State.setKeyCtx_imh (s : State) (t : Nat) (x : KeyCtx) : (s.setKeyCtx t x).imh = s.imh := rfl
@[simp] theorem State.setKeyCtx_lasting (s : State) (t : Nat) (x : KeyCtx) : (s.setKeyCtx t x).lasting = s.lasting := rfl

/-! ### State.setLane -/

@[simp] theorem State.setLane_pending (s : State) (l : Nat) (x : Lane) : (s.setLane l x).pending = s.pending := rfl
@[simp] theorem State.setLane_rdata (s : State) (l : Nat) (x : Lane) : (s.setLane l x).rdata = s.rdata := rfl
@[simp] theorem State.setLane_out (s : State) (l : Nat) (x : Lane) : (s.setLane l x).out = s.out := rfl
@[simp] theorem State.setLane_fresh (s : State) (l : Nat) (x : Lane) : (s.setLane l x).fresh = s.fresh := rfl
@[simp] theorem State.setLane_rf (s : State) (l : Nat) (x : Lane) : (s.setLane l x).rf = s.rf := rfl
@[simp] theorem State.setLane_caps (s : State) (l : Nat) (x : Lane) : (s.setLane l x).caps = s.caps := rfl
@[simp] theorem State.setLane_glb (s : State) (l : Nat) (x : Lane) : (s.setLane l x).glb = s.glb := rfl
@[simp] theorem State.setLane_evu (s : State) (l : Nat) (x : Lane) : (s.setLane l x).evu = s.evu := rfl
@[simp] theorem State.setLane_tal (s : State) (l : Nat) (x : Lane) : (s.setLane l x).tal = s.tal := rfl
@[simp] theorem State.setLane_slots (s : State) (l : Nat) (x : Lane) : (s.setLane l x).slots = s.slots := rfl
@[simp] theorem State.setLane_gens (s : State) (l : Nat) (x : Lane) : (s.setLane l x).gens = s.gens := rfl
@[simp] theorem State.setLane_ts (s : State) (l : Nat) (x : Lane) : (s.setLane l x).ts = s.ts := rfl
@[simp] theorem State.setLane_ic (s : State) (l : Nat) (x : Lane) : (s.setLane l x).ic = s.ic := rfl
@[simp] theorem State.setLane_pm (s : State) (l : Nat) (x : Lane) : (s.setLane l x).pm = s.pm := rfl
@[simp] theorem State.setLane_pw (s : State) (l : Nat) (x : Lane) : (s.setLane l x).pw = s.pw := rfl
@[simp] theorem State.setLane_belay (s : State) (l : Nat) (x : Lane) : (s.setLane l x).belay = s.belay := rfl
@[simp] theorem State.setLane_pr (s : State) (l : Nat) (x : Lane) : (s.setLane l x).pr = s.pr := rfl
@[simp] theorem State.setLane_tp (s : State) (l : Nat) (x : Lane) : (s.setLane l x).tp = s.tp := rfl
@[simp] theorem State.setLane_keys (s : State) (l : Nat) (x : Lane) : (s.setLane l x).keys = s.keys := rfl
@[simp] theorem State.setLane_ub (s : State) (l : Nat) (x : Lane) : (s.setLane l x).ub = s.ub := rfl
@[simp] theorem State.setLane_presets (s : State) (l : Nat) (x : Lane) : (s.setLane l x).presets = s.presets := rfl
@[simp] theorem State.setLane_termRx (s : State) (l : Nat) (x : Lane) : (s.setLane l x).termRx = s.termRx := rfl
@[simp] theorem State.setLane_chains (s : State) (l : Nat) (x : Lane) : (s.setLane l x).chains = s.chains := rfl
@[simp] theorem State.setLane_fillRun (s : State) (l : Nat) (x : Lane) : (s.setLane l x).fillRun = s.fillRun := rfl
@[simp] theorem State.setLane_ctxs (s : State) (l : Nat) (x : Lane) : (s.setLane l x).ctxs = s.ctxs := rfl
@[simp] theorem State.setLane_onuHolds (s : State) (l : Nat) (x : Lane) : (s.setLane l x).onuHolds = s.onuHolds := rfl
@[simp] theorem State.setLane_act (s : State) (l : Nat) (x : Lane) : (s.setLane l x).act = s.act := rfl
@[simp] theorem State.setLane_allocs (s : State) (l : Nat) (x : Lane) : (s.setLane l x).allocs = s.allocs := rfl
@[simp] theorem State.setLane_allocHolds (s : State) (l : Nat) (x : Lane) : (s.setLane l x).allocHolds = s.allocHolds := rfl
@[simp] theorem State.setLane_ge (s : State) (l : Nat) (x : Lane) : (s.setLane l x).ge = s.ge := rfl
@[simp] theorem State.setLane_trees (s : State) (l : Nat) (x : Lane) : (s.setLane l x).trees = s.trees := rfl
@[simp] theorem State.setLane_rows (s : State) (l : Nat) (x : Lane) : (s.setLane l x).rows = s.rows := rfl
@[simp] theorem State.setLane_pc (s : State) (l : Nat) (x : Lane) : (s.setLane l x).pc = s.pc := rfl
@[simp] theorem State.setLane_cl (s : State) (l : Nat) (x : Lane) : (s.setLane l x).cl = s.cl := rfl
@[simp] theorem State.setLane_qs (s : State) (l : Nat) (x : Lane) : (s.setLane l x).qs = s.qs := rfl
@[simp] theorem State.setLane_bm (s : State) (l : Nat) (x : Lane) : (s.setLane l x).bm = s.bm := rfl
@[simp] theorem State.setLane_hd (s : State) (l : Nat) (x : Lane) : (s.setLane l x).hd = s.hd := rfl
@[simp] theorem State.setLane_imh (s : State) (l : Nat) (x : Lane) : (s.setLane l x).imh = s.imh := rfl
@[simp] theorem State.setLane_lasting (s : State) (l : Nat) (x : Lane) : (s.setLane l x).lasting = s.lasting := rfl

/-! ### State.setGen -/

@[simp] theorem State.setGen_pending (s : State) (o : GenObj) (g : Gen) : (s.setGen o g).pending = s.pending := rfl
@[simp] theorem State.setGen_rdata (s : State) (o : GenObj) (g : Gen) : (s.setGen o g).rdata = s.rdata := rfl
@[simp] theorem State.setGen_out (s : State) (o : GenObj) (g : Gen) : (s.setGen o g).out = s.out := rfl
@[simp] theorem State.setGen_fresh (s : State) (o : GenObj) (g : Gen) : (s.setGen o g).fresh = s.fresh := rfl
@[simp] theorem State.setGen_rf (s : State) (o : GenObj) (g : Gen) : (s.setGen o g).rf = s.rf := rfl
@[simp] theorem State.setGen_caps (s : State) (o : GenObj) (g : Gen) : (s.setGen o g).caps = s.caps := rfl
@[simp] theorem State.setGen_glb (s : State) (o : GenObj) (g : Gen) : (s.setGen o g).glb = s.glb := rfl
@[simp] theorem State.setGen_evu (s : State) (o : GenObj) (g : Gen) : (s.setGen o g).evu = s.evu := rfl
@[simp] theorem State.setGen_tal (s : State) (o : GenObj) (g : Gen) : (s.setGen o g).tal = s.tal := rfl
@[simp] theorem State.setGen_slots (s : State) (o : GenObj) (g : Gen) : (s.setGen o g).slots = s.slots := rfl
@[simp] theorem State.setGen_ts (s : State) (o : GenObj) (g : Gen) : (s.setGen o g).ts = s.ts := rfl
@[simp] theorem State.setGen_ic (s : State) (o : GenObj) (g : Gen) : (s.setGen o g).ic = s.ic := rfl
@[simp] theorem State.setGen_pm (s : State) (o : GenObj) (g : Gen) : (s.setGen o g).pm = s.pm := rfl
@[simp] theorem State.setGen_pw (s : State) (o : GenObj) (g : Gen) : (s.setGen o g).pw = s.pw := rfl
@[simp] theorem State.setGen_lanes (s : State) (o : GenObj) (g : Gen) : (s.setGen o g).lanes = s.lanes := rfl
@[simp] theorem State.setGen_belay (s : State) (o : GenObj) (g : Gen) : (s.setGen o g).belay = s.belay := rfl
@[simp] theorem State.setGen_pr (s : State) (o : GenObj) (g : Gen) : (s.setGen o g).pr = s.pr := rfl
@[simp] theorem State.setGen_tp (s : State) (o : GenObj) (g : Gen) : (s.setGen o g).tp = s.tp := rfl
@[simp] theorem State.setGen_keys (s : State) (o : GenObj) (g : Gen) : (s.setGen o g).keys = s.keys := rfl
@[simp] theorem State.setGen_ub (s : State) (o : GenObj) (g : Gen) : (s.setGen o g).ub = s.ub := rfl
@[simp] theorem State.setGen_presets (s : State) (o : GenObj) (g : Gen) : (s.setGen o g).presets = s.presets := rfl
@[simp] theorem State.setGen_termRx (s : State) (o : GenObj) (g : Gen) : (s.setGen o g).termRx = s.termRx := rfl
@[simp] theorem State.setGen_chains (s : State) (o : GenObj) (g : Gen) : (s.setGen o g).chains = s.chains := rfl
@[simp] theorem State.setGen_fillRun (s : State) (o : GenObj) (g : Gen) : (s.setGen o g).fillRun = s.fillRun := rfl
@[simp] theorem State.setGen_ctxs (s : State) (o : GenObj) (g : Gen) : (s.setGen o g).ctxs = s.ctxs := rfl
@[simp] theorem State.setGen_onuHolds (s : State) (o : GenObj) (g : Gen) : (s.setGen o g).onuHolds = s.onuHolds := rfl
@[simp] theorem State.setGen_act (s : State) (o : GenObj) (g : Gen) : (s.setGen o g).act = s.act := rfl
@[simp] theorem State.setGen_allocs (s : State) (o : GenObj) (g : Gen) : (s.setGen o g).allocs = s.allocs := rfl
@[simp] theorem State.setGen_allocHolds (s : State) (o : GenObj) (g : Gen) : (s.setGen o g).allocHolds = s.allocHolds := rfl
@[simp] theorem State.setGen_ge (s : State) (o : GenObj) (g : Gen) : (s.setGen o g).ge = s.ge := rfl
@[simp] theorem State.setGen_trees (s : State) (o : GenObj) (g : Gen) : (s.setGen o g).trees = s.trees := rfl
@[simp] theorem State.setGen_rows (s : State) (o : GenObj) (g : Gen) : (s.setGen o g).rows = s.rows := rfl
@[simp] theorem State.setGen_pc (s : State) (o : GenObj) (g : Gen) : (s.setGen o g).pc = s.pc := rfl
@[simp] theorem State.setGen_cl (s : State) (o : GenObj) (g : Gen) : (s.setGen o g).cl = s.cl := rfl
@[simp] theorem State.setGen_qs (s : State) (o : GenObj) (g : Gen) : (s.setGen o g).qs = s.qs := rfl
@[simp] theorem State.setGen_bm (s : State) (o : GenObj) (g : Gen) : (s.setGen o g).bm = s.bm := rfl
@[simp] theorem State.setGen_hd (s : State) (o : GenObj) (g : Gen) : (s.setGen o g).hd = s.hd := rfl
@[simp] theorem State.setGen_imh (s : State) (o : GenObj) (g : Gen) : (s.setGen o g).imh = s.imh := rfl
@[simp] theorem State.setGen_lasting (s : State) (o : GenObj) (g : Gen) : (s.setGen o g).lasting = s.lasting := rfl

/-! ### State.setRope -/

@[simp] theorem State.setRope_pending (s : State) (p : Nat) (x : Rope) : (s.setRope p x).pending = s.pending := rfl
@[simp] theorem State.setRope_rdata (s : State) (p : Nat) (x : Rope) : (s.setRope p x).rdata = s.rdata := rfl
@[simp] theorem State.setRope_out (s : State) (p : Nat) (x : Rope) : (s.setRope p x).out = s.out := rfl
@[simp] theorem State.setRope_fresh (s : State) (p : Nat) (x : Rope) : (s.setRope p x).fresh = s.fresh := rfl
@[simp] theorem State.setRope_rf (s : State) (p : Nat) (x : Rope) : (s.setRope p x).rf = s.rf := rfl
@[simp] theorem State.setRope_caps (s : State) (p : Nat) (x : Rope) : (s.setRope p x).caps = s.caps := rfl
@[simp] theorem State.setRope_glb (s : State) (p : Nat) (x : Rope) : (s.setRope p x).glb = s.glb := rfl
@[simp] theorem State.setRope_evu (s : State) (p : Nat) (x : Rope) : (s.setRope p x).evu = s.evu := rfl
@[simp] theorem State.setRope_tal (s : State) (p : Nat) (x : Rope) : (s.setRope p x).tal = s.tal := rfl
@[simp] theorem State.setRope_slots (s : State) (p : Nat) (x : Rope) : (s.setRope p x).slots = s.slots := rfl
@[simp] theorem State.setRope_gens (s : State) (p : Nat) (x : Rope) : (s.setRope p x).gens = s.gens := rfl
@[simp] theorem State.setRope_ts (s : State) (p : Nat) (x : Rope) : (s.setRope p x).ts = s.ts := rfl
@[simp] theorem State.setRope_ic (s : State) (p : Nat) (x : Rope) : (s.setRope p x).ic = s.ic := rfl
@[simp] theorem State.setRope_pm (s : State) (p : Nat) (x : Rope) : (s.setRope p x).pm = s.pm := rfl
@[simp] theorem State.setRope_pw (s : State) (p : Nat) (x : Rope) : (s.setRope p x).pw = s.pw := rfl
@[simp] theorem State.setRope_lanes (s : State) (p : Nat) (x : Rope) : (s.setRope p x).lanes = s.lanes := rfl
@[simp] theorem State.setRope_belay (s : State) (p : Nat) (x : Rope) : (s.setRope p x).belay = s.belay := rfl
@[simp] theorem State.setRope_tp (s : State) (p : Nat) (x : Rope) : (s.setRope p x).tp = s.tp := rfl
@[simp] theorem State.setRope_keys (s : State) (p : Nat) (x : Rope) : (s.setRope p x).keys = s.keys := rfl
@[simp] theorem State.setRope_ub (s : State) (p : Nat) (x : Rope) : (s.setRope p x).ub = s.ub := rfl
@[simp] theorem State.setRope_presets (s : State) (p : Nat) (x : Rope) : (s.setRope p x).presets = s.presets := rfl
@[simp] theorem State.setRope_termRx (s : State) (p : Nat) (x : Rope) : (s.setRope p x).termRx = s.termRx := rfl
@[simp] theorem State.setRope_chains (s : State) (p : Nat) (x : Rope) : (s.setRope p x).chains = s.chains := rfl
@[simp] theorem State.setRope_fillRun (s : State) (p : Nat) (x : Rope) : (s.setRope p x).fillRun = s.fillRun := rfl
@[simp] theorem State.setRope_ctxs (s : State) (p : Nat) (x : Rope) : (s.setRope p x).ctxs = s.ctxs := rfl
@[simp] theorem State.setRope_onuHolds (s : State) (p : Nat) (x : Rope) : (s.setRope p x).onuHolds = s.onuHolds := rfl
@[simp] theorem State.setRope_act (s : State) (p : Nat) (x : Rope) : (s.setRope p x).act = s.act := rfl
@[simp] theorem State.setRope_allocs (s : State) (p : Nat) (x : Rope) : (s.setRope p x).allocs = s.allocs := rfl
@[simp] theorem State.setRope_allocHolds (s : State) (p : Nat) (x : Rope) : (s.setRope p x).allocHolds = s.allocHolds := rfl
@[simp] theorem State.setRope_ge (s : State) (p : Nat) (x : Rope) : (s.setRope p x).ge = s.ge := rfl
@[simp] theorem State.setRope_trees (s : State) (p : Nat) (x : Rope) : (s.setRope p x).trees = s.trees := rfl
@[simp] theorem State.setRope_rows (s : State) (p : Nat) (x : Rope) : (s.setRope p x).rows = s.rows := rfl
@[simp] theorem State.setRope_pc (s : State) (p : Nat) (x : Rope) : (s.setRope p x).pc = s.pc := rfl
@[simp] theorem State.setRope_cl (s : State) (p : Nat) (x : Rope) : (s.setRope p x).cl = s.cl := rfl
@[simp] theorem State.setRope_qs (s : State) (p : Nat) (x : Rope) : (s.setRope p x).qs = s.qs := rfl
@[simp] theorem State.setRope_bm (s : State) (p : Nat) (x : Rope) : (s.setRope p x).bm = s.bm := rfl
@[simp] theorem State.setRope_hd (s : State) (p : Nat) (x : Rope) : (s.setRope p x).hd = s.hd := rfl
@[simp] theorem State.setRope_imh (s : State) (p : Nat) (x : Rope) : (s.setRope p x).imh = s.imh := rfl
@[simp] theorem State.setRope_lasting (s : State) (p : Nat) (x : Rope) : (s.setRope p x).lasting = s.lasting := rfl

/-! ### State.meter -/

@[simp] theorem State.meter_pending (s : State) (m n : Nat) : (s.meter m n).pending = s.pending := rfl
@[simp] theorem State.meter_rdata (s : State) (m n : Nat) : (s.meter m n).rdata = s.rdata := rfl
@[simp] theorem State.meter_out (s : State) (m n : Nat) : (s.meter m n).out = s.out := rfl
@[simp] theorem State.meter_fresh (s : State) (m n : Nat) : (s.meter m n).fresh = s.fresh := rfl
@[simp] theorem State.meter_rf (s : State) (m n : Nat) : (s.meter m n).rf = s.rf := rfl
@[simp] theorem State.meter_caps (s : State) (m n : Nat) : (s.meter m n).caps = s.caps := rfl
@[simp] theorem State.meter_glb (s : State) (m n : Nat) : (s.meter m n).glb = s.glb := rfl
@[simp] theorem State.meter_evu (s : State) (m n : Nat) : (s.meter m n).evu = s.evu := rfl
@[simp] theorem State.meter_tal (s : State) (m n : Nat) : (s.meter m n).tal = s.tal := rfl
@[simp] theorem State.meter_slots (s : State) (m n : Nat) : (s.meter m n).slots = s.slots := rfl
@[simp] theorem State.meter_gens (s : State) (m n : Nat) : (s.meter m n).gens = s.gens := rfl
@[simp] theorem State.meter_ts (s : State) (m n : Nat) : (s.meter m n).ts = s.ts := rfl
@[simp] theorem State.meter_ic (s : State) (m n : Nat) : (s.meter m n).ic = s.ic := rfl
@[simp] theorem State.meter_pw (s : State) (m n : Nat) : (s.meter m n).pw = s.pw := rfl
@[simp] theorem State.meter_lanes (s : State) (m n : Nat) : (s.meter m n).lanes = s.lanes := rfl
@[simp] theorem State.meter_belay (s : State) (m n : Nat) : (s.meter m n).belay = s.belay := rfl
@[simp] theorem State.meter_pr (s : State) (m n : Nat) : (s.meter m n).pr = s.pr := rfl
@[simp] theorem State.meter_tp (s : State) (m n : Nat) : (s.meter m n).tp = s.tp := rfl
@[simp] theorem State.meter_keys (s : State) (m n : Nat) : (s.meter m n).keys = s.keys := rfl
@[simp] theorem State.meter_ub (s : State) (m n : Nat) : (s.meter m n).ub = s.ub := rfl
@[simp] theorem State.meter_presets (s : State) (m n : Nat) : (s.meter m n).presets = s.presets := rfl
@[simp] theorem State.meter_termRx (s : State) (m n : Nat) : (s.meter m n).termRx = s.termRx := rfl
@[simp] theorem State.meter_chains (s : State) (m n : Nat) : (s.meter m n).chains = s.chains := rfl
@[simp] theorem State.meter_fillRun (s : State) (m n : Nat) : (s.meter m n).fillRun = s.fillRun := rfl
@[simp] theorem State.meter_ctxs (s : State) (m n : Nat) : (s.meter m n).ctxs = s.ctxs := rfl
@[simp] theorem State.meter_onuHolds (s : State) (m n : Nat) : (s.meter m n).onuHolds = s.onuHolds := rfl
@[simp] theorem State.meter_act (s : State) (m n : Nat) : (s.meter m n).act = s.act := rfl
@[simp] theorem State.meter_allocs (s : State) (m n : Nat) : (s.meter m n).allocs = s.allocs := rfl
@[simp] theorem State.meter_allocHolds (s : State) (m n : Nat) : (s.meter m n).allocHolds = s.allocHolds := rfl
@[simp] theorem State.meter_ge (s : State) (m n : Nat) : (s.meter m n).ge = s.ge := rfl
@[simp] theorem State.meter_trees (s : State) (m n : Nat) : (s.meter m n).trees = s.trees := rfl
@[simp] theorem State.meter_rows (s : State) (m n : Nat) : (s.meter m n).rows = s.rows := rfl
@[simp] theorem State.meter_pc (s : State) (m n : Nat) : (s.meter m n).pc = s.pc := rfl
@[simp] theorem State.meter_cl (s : State) (m n : Nat) : (s.meter m n).cl = s.cl := rfl
@[simp] theorem State.meter_qs (s : State) (m n : Nat) : (s.meter m n).qs = s.qs := rfl
@[simp] theorem State.meter_bm (s : State) (m n : Nat) : (s.meter m n).bm = s.bm := rfl
@[simp] theorem State.meter_hd (s : State) (m n : Nat) : (s.meter m n).hd = s.hd := rfl
@[simp] theorem State.meter_imh (s : State) (m n : Nat) : (s.meter m n).imh = s.imh := rfl
@[simp] theorem State.meter_lasting (s : State) (m n : Nat) : (s.meter m n).lasting = s.lasting := rfl

/-! ### State.tickFresh -/

@[simp] theorem State.tickFresh_pending (s : State)  : (s.tickFresh).pending = s.pending := rfl
@[simp] theorem State.tickFresh_rdata (s : State)  : (s.tickFresh).rdata = s.rdata := rfl
@[simp] theorem State.tickFresh_out (s : State)  : (s.tickFresh).out = s.out := rfl
@[simp] theorem State.tickFresh_rf (s : State)  : (s.tickFresh).rf = s.rf := rfl
@[simp] theorem State.tickFresh_caps (s : State)  : (s.tickFresh).caps = s.caps := rfl
@[simp] theorem State.tickFresh_glb (s : State)  : (s.tickFresh).glb = s.glb := rfl
@[simp] theorem State.tickFresh_evu (s : State)  : (s.tickFresh).evu = s.evu := rfl
@[simp] theorem State.tickFresh_tal (s : State)  : (s.tickFresh).tal = s.tal := rfl
@[simp] theorem State.tickFresh_slots (s : State)  : (s.tickFresh).slots = s.slots := rfl
@[simp] theorem State.tickFresh_gens (s : State)  : (s.tickFresh).gens = s.gens := rfl
@[simp] theorem State.tickFresh_ts (s : State)  : (s.tickFresh).ts = s.ts := rfl
@[simp] theorem State.tickFresh_ic (s : State)  : (s.tickFresh).ic = s.ic := rfl
@[simp] theorem State.tickFresh_pm (s : State)  : (s.tickFresh).pm = s.pm := rfl
@[simp] theorem State.tickFresh_pw (s : State)  : (s.tickFresh).pw = s.pw := rfl
@[simp] theorem State.tickFresh_lanes (s : State)  : (s.tickFresh).lanes = s.lanes := rfl
@[simp] theorem State.tickFresh_belay (s : State)  : (s.tickFresh).belay = s.belay := rfl
@[simp] theorem State.tickFresh_pr (s : State)  : (s.tickFresh).pr = s.pr := rfl
@[simp] theorem State.tickFresh_tp (s : State)  : (s.tickFresh).tp = s.tp := rfl
@[simp] theorem State.tickFresh_keys (s : State)  : (s.tickFresh).keys = s.keys := rfl
@[simp] theorem State.tickFresh_ub (s : State)  : (s.tickFresh).ub = s.ub := rfl
@[simp] theorem State.tickFresh_presets (s : State)  : (s.tickFresh).presets = s.presets := rfl
@[simp] theorem State.tickFresh_termRx (s : State)  : (s.tickFresh).termRx = s.termRx := rfl
@[simp] theorem State.tickFresh_chains (s : State)  : (s.tickFresh).chains = s.chains := rfl
@[simp] theorem State.tickFresh_fillRun (s : State)  : (s.tickFresh).fillRun = s.fillRun := rfl
@[simp] theorem State.tickFresh_ctxs (s : State)  : (s.tickFresh).ctxs = s.ctxs := rfl
@[simp] theorem State.tickFresh_onuHolds (s : State)  : (s.tickFresh).onuHolds = s.onuHolds := rfl
@[simp] theorem State.tickFresh_act (s : State)  : (s.tickFresh).act = s.act := rfl
@[simp] theorem State.tickFresh_allocs (s : State)  : (s.tickFresh).allocs = s.allocs := rfl
@[simp] theorem State.tickFresh_allocHolds (s : State)  : (s.tickFresh).allocHolds = s.allocHolds := rfl
@[simp] theorem State.tickFresh_ge (s : State)  : (s.tickFresh).ge = s.ge := rfl
@[simp] theorem State.tickFresh_trees (s : State)  : (s.tickFresh).trees = s.trees := rfl
@[simp] theorem State.tickFresh_rows (s : State)  : (s.tickFresh).rows = s.rows := rfl
@[simp] theorem State.tickFresh_pc (s : State)  : (s.tickFresh).pc = s.pc := rfl
@[simp] theorem State.tickFresh_cl (s : State)  : (s.tickFresh).cl = s.cl := rfl
@[simp] theorem State.tickFresh_qs (s : State)  : (s.tickFresh).qs = s.qs := rfl
@[simp] theorem State.tickFresh_bm (s : State)  : (s.tickFresh).bm = s.bm := rfl
@[simp] theorem State.tickFresh_hd (s : State)  : (s.tickFresh).hd = s.hd := rfl
@[simp] theorem State.tickFresh_imh (s : State)  : (s.tickFresh).imh = s.imh := rfl
@[simp] theorem State.tickFresh_lasting (s : State)  : (s.tickFresh).lasting = s.lasting := rfl

/-! ### State.bump, State.stage -/

@[simp] theorem State.bump_pending (s : State) (g : Fld) (n i : Nat) : (s.bump g n i).pending = s.pending := rfl
@[simp] theorem State.bump_rdata (s : State) (g : Fld) (n i : Nat) : (s.bump g n i).rdata = s.rdata := rfl
@[simp] theorem State.bump_out (s : State) (g : Fld) (n i : Nat) : (s.bump g n i).out = s.out := rfl
@[simp] theorem State.bump_fresh (s : State) (g : Fld) (n i : Nat) : (s.bump g n i).fresh = s.fresh := rfl
@[simp] theorem State.bump_caps (s : State) (g : Fld) (n i : Nat) : (s.bump g n i).caps = s.caps := rfl
@[simp] theorem State.bump_glb (s : State) (g : Fld) (n i : Nat) : (s.bump g n i).glb = s.glb := rfl
@[simp] theorem State.bump_evu (s : State) (g : Fld) (n i : Nat) : (s.bump g n i).evu = s.evu := rfl
@[simp] theorem State.bump_tal (s : State) (g : Fld) (n i : Nat) : (s.bump g n i).tal = s.tal := rfl
@[simp] theorem State.bump_slots (s : State) (g : Fld) (n i : Nat) : (s.bump g n i).slots = s.slots := rfl
@[simp] theorem State.bump_gens (s : State) (g : Fld) (n i : Nat) : (s.bump g n i).gens = s.gens := rfl
@[simp] theorem State.bump_ts (s : State) (g : Fld) (n i : Nat) : (s.bump g n i).ts = s.ts := rfl
@[simp] theorem State.bump_ic (s : State) (g : Fld) (n i : Nat) : (s.bump g n i).ic = s.ic := rfl
@[simp] theorem State.bump_pm (s : State) (g : Fld) (n i : Nat) : (s.bump g n i).pm = s.pm := rfl
@[simp] theorem State.bump_pw (s : State) (g : Fld) (n i : Nat) : (s.bump g n i).pw = s.pw := rfl
@[simp] theorem State.bump_lanes (s : State) (g : Fld) (n i : Nat) : (s.bump g n i).lanes = s.lanes := rfl
@[simp] theorem State.bump_belay (s : State) (g : Fld) (n i : Nat) : (s.bump g n i).belay = s.belay := rfl
@[simp] theorem State.bump_pr (s : State) (g : Fld) (n i : Nat) : (s.bump g n i).pr = s.pr := rfl
@[simp] theorem State.bump_tp (s : State) (g : Fld) (n i : Nat) : (s.bump g n i).tp = s.tp := rfl
@[simp] theorem State.bump_keys (s : State) (g : Fld) (n i : Nat) : (s.bump g n i).keys = s.keys := rfl
@[simp] theorem State.bump_ub (s : State) (g : Fld) (n i : Nat) : (s.bump g n i).ub = s.ub := rfl
@[simp] theorem State.bump_presets (s : State) (g : Fld) (n i : Nat) : (s.bump g n i).presets = s.presets := rfl
@[simp] theorem State.bump_termRx (s : State) (g : Fld) (n i : Nat) : (s.bump g n i).termRx = s.termRx := rfl
@[simp] theorem State.bump_chains (s : State) (g : Fld) (n i : Nat) : (s.bump g n i).chains = s.chains := rfl
@[simp] theorem State.bump_fillRun (s : State) (g : Fld) (n i : Nat) : (s.bump g n i).fillRun = s.fillRun := rfl
@[simp] theorem State.bump_ctxs (s : State) (g : Fld) (n i : Nat) : (s.bump g n i).ctxs = s.ctxs := rfl
@[simp] theorem State.bump_onuHolds (s : State) (g : Fld) (n i : Nat) : (s.bump g n i).onuHolds = s.onuHolds := rfl
@[simp] theorem State.bump_act (s : State) (g : Fld) (n i : Nat) : (s.bump g n i).act = s.act := rfl
@[simp] theorem State.bump_allocs (s : State) (g : Fld) (n i : Nat) : (s.bump g n i).allocs = s.allocs := rfl
@[simp] theorem State.bump_allocHolds (s : State) (g : Fld) (n i : Nat) : (s.bump g n i).allocHolds = s.allocHolds := rfl
@[simp] theorem State.bump_ge (s : State) (g : Fld) (n i : Nat) : (s.bump g n i).ge = s.ge := rfl
@[simp] theorem State.bump_trees (s : State) (g : Fld) (n i : Nat) : (s.bump g n i).trees = s.trees := rfl
@[simp] theorem State.bump_rows (s : State) (g : Fld) (n i : Nat) : (s.bump g n i).rows = s.rows := rfl
@[simp] theorem State.bump_pc (s : State) (g : Fld) (n i : Nat) : (s.bump g n i).pc = s.pc := rfl
@[simp] theorem State.bump_cl (s : State) (g : Fld) (n i : Nat) : (s.bump g n i).cl = s.cl := rfl
@[simp] theorem State.bump_qs (s : State) (g : Fld) (n i : Nat) : (s.bump g n i).qs = s.qs := rfl
@[simp] theorem State.bump_bm (s : State) (g : Fld) (n i : Nat) : (s.bump g n i).bm = s.bm := rfl
@[simp] theorem State.bump_hd (s : State) (g : Fld) (n i : Nat) : (s.bump g n i).hd = s.hd := rfl
@[simp] theorem State.bump_imh (s : State) (g : Fld) (n i : Nat) : (s.bump g n i).imh = s.imh := rfl
@[simp] theorem State.bump_lasting (s : State) (g : Fld) (n i : Nat) : (s.bump g n i).lasting = s.lasting := rfl
@[simp] theorem State.stage_pending (s : State) (o : GenObj) : (s.stage o).pending = s.pending := rfl
@[simp] theorem State.stage_rdata (s : State) (o : GenObj) : (s.stage o).rdata = s.rdata := rfl
@[simp] theorem State.stage_out (s : State) (o : GenObj) : (s.stage o).out = s.out := rfl
@[simp] theorem State.stage_fresh (s : State) (o : GenObj) : (s.stage o).fresh = s.fresh := rfl
@[simp] theorem State.stage_rf (s : State) (o : GenObj) : (s.stage o).rf = s.rf := rfl
@[simp] theorem State.stage_caps (s : State) (o : GenObj) : (s.stage o).caps = s.caps := rfl
@[simp] theorem State.stage_glb (s : State) (o : GenObj) : (s.stage o).glb = s.glb := rfl
@[simp] theorem State.stage_evu (s : State) (o : GenObj) : (s.stage o).evu = s.evu := rfl
@[simp] theorem State.stage_tal (s : State) (o : GenObj) : (s.stage o).tal = s.tal := rfl
@[simp] theorem State.stage_slots (s : State) (o : GenObj) : (s.stage o).slots = s.slots := rfl
@[simp] theorem State.stage_ts (s : State) (o : GenObj) : (s.stage o).ts = s.ts := rfl
@[simp] theorem State.stage_ic (s : State) (o : GenObj) : (s.stage o).ic = s.ic := rfl
@[simp] theorem State.stage_pm (s : State) (o : GenObj) : (s.stage o).pm = s.pm := rfl
@[simp] theorem State.stage_pw (s : State) (o : GenObj) : (s.stage o).pw = s.pw := rfl
@[simp] theorem State.stage_lanes (s : State) (o : GenObj) : (s.stage o).lanes = s.lanes := rfl
@[simp] theorem State.stage_belay (s : State) (o : GenObj) : (s.stage o).belay = s.belay := rfl
@[simp] theorem State.stage_pr (s : State) (o : GenObj) : (s.stage o).pr = s.pr := rfl
@[simp] theorem State.stage_tp (s : State) (o : GenObj) : (s.stage o).tp = s.tp := rfl
@[simp] theorem State.stage_keys (s : State) (o : GenObj) : (s.stage o).keys = s.keys := rfl
@[simp] theorem State.stage_ub (s : State) (o : GenObj) : (s.stage o).ub = s.ub := rfl
@[simp] theorem State.stage_presets (s : State) (o : GenObj) : (s.stage o).presets = s.presets := rfl
@[simp] theorem State.stage_termRx (s : State) (o : GenObj) : (s.stage o).termRx = s.termRx := rfl
@[simp] theorem State.stage_chains (s : State) (o : GenObj) : (s.stage o).chains = s.chains := rfl
@[simp] theorem State.stage_fillRun (s : State) (o : GenObj) : (s.stage o).fillRun = s.fillRun := rfl
@[simp] theorem State.stage_ctxs (s : State) (o : GenObj) : (s.stage o).ctxs = s.ctxs := rfl
@[simp] theorem State.stage_onuHolds (s : State) (o : GenObj) : (s.stage o).onuHolds = s.onuHolds := rfl
@[simp] theorem State.stage_act (s : State) (o : GenObj) : (s.stage o).act = s.act := rfl
@[simp] theorem State.stage_allocs (s : State) (o : GenObj) : (s.stage o).allocs = s.allocs := rfl
@[simp] theorem State.stage_allocHolds (s : State) (o : GenObj) : (s.stage o).allocHolds = s.allocHolds := rfl
@[simp] theorem State.stage_ge (s : State) (o : GenObj) : (s.stage o).ge = s.ge := rfl
@[simp] theorem State.stage_trees (s : State) (o : GenObj) : (s.stage o).trees = s.trees := rfl
@[simp] theorem State.stage_rows (s : State) (o : GenObj) : (s.stage o).rows = s.rows := rfl
@[simp] theorem State.stage_pc (s : State) (o : GenObj) : (s.stage o).pc = s.pc := rfl
@[simp] theorem State.stage_cl (s : State) (o : GenObj) : (s.stage o).cl = s.cl := rfl
@[simp] theorem State.stage_qs (s : State) (o : GenObj) : (s.stage o).qs = s.qs := rfl
@[simp] theorem State.stage_bm (s : State) (o : GenObj) : (s.stage o).bm = s.bm := rfl
@[simp] theorem State.stage_hd (s : State) (o : GenObj) : (s.stage o).hd = s.hd := rfl
@[simp] theorem State.stage_imh (s : State) (o : GenObj) : (s.stage o).imh = s.imh := rfl
@[simp] theorem State.stage_lasting (s : State) (o : GenObj) : (s.stage o).lasting = s.lasting := rfl

/-! ### State.count, State.raise -/

@[simp] theorem State.count_pending (s : State) (b c i n : Nat) (t : Option Nat) : (s.count b c i n t).pending = s.pending := by
  unfold State.count; split <;> rfl
@[simp] theorem State.count_rdata (s : State) (b c i n : Nat) (t : Option Nat) : (s.count b c i n t).rdata = s.rdata := by
  unfold State.count; split <;> rfl
@[simp] theorem State.count_out (s : State) (b c i n : Nat) (t : Option Nat) : (s.count b c i n t).out = s.out := by
  unfold State.count; split <;> rfl
@[simp] theorem State.count_fresh (s : State) (b c i n : Nat) (t : Option Nat) : (s.count b c i n t).fresh = s.fresh := by
  unfold State.count; split <;> rfl
@[simp] theorem State.count_rf (s : State) (b c i n : Nat) (t : Option Nat) : (s.count b c i n t).rf = s.rf := by
  unfold State.count; split <;> rfl
@[simp] theorem State.count_caps (s : State) (b c i n : Nat) (t : Option Nat) : (s.count b c i n t).caps = s.caps := by
  unfold State.count; split <;> rfl
@[simp] theorem State.count_glb (s : State) (b c i n : Nat) (t : Option Nat) : (s.count b c i n t).glb = s.glb := by
  unfold State.count; split <;> rfl
@[simp] theorem State.count_evu (s : State) (b c i n : Nat) (t : Option Nat) : (s.count b c i n t).evu = s.evu := by
  unfold State.count; split <;> rfl
@[simp] theorem State.count_tal (s : State) (b c i n : Nat) (t : Option Nat) : (s.count b c i n t).tal = s.tal := by
  unfold State.count; split <;> rfl
@[simp] theorem State.count_slots (s : State) (b c i n : Nat) (t : Option Nat) : (s.count b c i n t).slots = s.slots := by
  unfold State.count; split <;> rfl
@[simp] theorem State.count_gens (s : State) (b c i n : Nat) (t : Option Nat) : (s.count b c i n t).gens = s.gens := by
  unfold State.count; split <;> rfl
@[simp] theorem State.count_ts (s : State) (b c i n : Nat) (t : Option Nat) : (s.count b c i n t).ts = s.ts := by
  unfold State.count; split <;> rfl
@[simp] theorem State.count_ic (s : State) (b c i n : Nat) (t : Option Nat) : (s.count b c i n t).ic = s.ic := by
  unfold State.count; split <;> rfl
@[simp] theorem State.count_pw (s : State) (b c i n : Nat) (t : Option Nat) : (s.count b c i n t).pw = s.pw := by
  unfold State.count; split <;> rfl
@[simp] theorem State.count_lanes (s : State) (b c i n : Nat) (t : Option Nat) : (s.count b c i n t).lanes = s.lanes := by
  unfold State.count; split <;> rfl
@[simp] theorem State.count_belay (s : State) (b c i n : Nat) (t : Option Nat) : (s.count b c i n t).belay = s.belay := by
  unfold State.count; split <;> rfl
@[simp] theorem State.count_pr (s : State) (b c i n : Nat) (t : Option Nat) : (s.count b c i n t).pr = s.pr := by
  unfold State.count; split <;> rfl
@[simp] theorem State.count_tp (s : State) (b c i n : Nat) (t : Option Nat) : (s.count b c i n t).tp = s.tp := by
  unfold State.count; split <;> rfl
@[simp] theorem State.count_keys (s : State) (b c i n : Nat) (t : Option Nat) : (s.count b c i n t).keys = s.keys := by
  unfold State.count; split <;> rfl
@[simp] theorem State.count_ub (s : State) (b c i n : Nat) (t : Option Nat) : (s.count b c i n t).ub = s.ub := by
  unfold State.count; split <;> rfl
@[simp] theorem State.count_presets (s : State) (b c i n : Nat) (t : Option Nat) : (s.count b c i n t).presets = s.presets := by
  unfold State.count; split <;> rfl
@[simp] theorem State.count_termRx (s : State) (b c i n : Nat) (t : Option Nat) : (s.count b c i n t).termRx = s.termRx := by
  unfold State.count; split <;> rfl
@[simp] theorem State.count_chains (s : State) (b c i n : Nat) (t : Option Nat) : (s.count b c i n t).chains = s.chains := by
  unfold State.count; split <;> rfl
@[simp] theorem State.count_fillRun (s : State) (b c i n : Nat) (t : Option Nat) : (s.count b c i n t).fillRun = s.fillRun := by
  unfold State.count; split <;> rfl
@[simp] theorem State.count_ctxs (s : State) (b c i n : Nat) (t : Option Nat) : (s.count b c i n t).ctxs = s.ctxs := by
  unfold State.count; split <;> rfl
@[simp] theorem State.count_onuHolds (s : State) (b c i n : Nat) (t : Option Nat) : (s.count b c i n t).onuHolds = s.onuHolds := by
  unfold State.count; split <;> rfl
@[simp] theorem State.count_act (s : State) (b c i n : Nat) (t : Option Nat) : (s.count b c i n t).act = s.act := by
  unfold State.count; split <;> rfl
@[simp] theorem State.count_allocs (s : State) (b c i n : Nat) (t : Option Nat) : (s.count b c i n t).allocs = s.allocs := by
  unfold State.count; split <;> rfl
@[simp] theorem State.count_allocHolds (s : State) (b c i n : Nat) (t : Option Nat) : (s.count b c i n t).allocHolds = s.allocHolds := by
  unfold State.count; split <;> rfl
@[simp] theorem State.count_ge (s : State) (b c i n : Nat) (t : Option Nat) : (s.count b c i n t).ge = s.ge := by
  unfold State.count; split <;> rfl
@[simp] theorem State.count_trees (s : State) (b c i n : Nat) (t : Option Nat) : (s.count b c i n t).trees = s.trees := by
  unfold State.count; split <;> rfl
@[simp] theorem State.count_rows (s : State) (b c i n : Nat) (t : Option Nat) : (s.count b c i n t).rows = s.rows := by
  unfold State.count; split <;> rfl
@[simp] theorem State.count_pc (s : State) (b c i n : Nat) (t : Option Nat) : (s.count b c i n t).pc = s.pc := by
  unfold State.count; split <;> rfl
@[simp] theorem State.count_cl (s : State) (b c i n : Nat) (t : Option Nat) : (s.count b c i n t).cl = s.cl := by
  unfold State.count; split <;> rfl
@[simp] theorem State.count_qs (s : State) (b c i n : Nat) (t : Option Nat) : (s.count b c i n t).qs = s.qs := by
  unfold State.count; split <;> rfl
@[simp] theorem State.count_bm (s : State) (b c i n : Nat) (t : Option Nat) : (s.count b c i n t).bm = s.bm := by
  unfold State.count; split <;> rfl
@[simp] theorem State.count_hd (s : State) (b c i n : Nat) (t : Option Nat) : (s.count b c i n t).hd = s.hd := by
  unfold State.count; split <;> rfl
@[simp] theorem State.count_imh (s : State) (b c i n : Nat) (t : Option Nat) : (s.count b c i n t).imh = s.imh := by
  unfold State.count; split <;> rfl
@[simp] theorem State.count_lasting (s : State) (b c i n : Nat) (t : Option Nat) : (s.count b c i n t).lasting = s.lasting := by
  unfold State.count; split <;> rfl
@[simp] theorem State.raiseAfter_pending (s : State) (k : Option Nat) (b i c a : Nat) (w : Bool) :
    (s.raiseAfter k b i c a w).pending = s.pending := by unfold State.raiseAfter; split <;> simp
@[simp] theorem State.raise_pending (s : State) (b i c a : Nat) : (s.raise b i c a).pending = s.pending := by simp [State.raise]
@[simp] theorem State.raiseNext_pending (s : State) (b i c a : Nat) : (s.raiseNext b i c a).pending = s.pending := by simp [State.raiseNext]
@[simp] theorem State.raiseAfter_rdata (s : State) (k : Option Nat) (b i c a : Nat) (w : Bool) :
    (s.raiseAfter k b i c a w).rdata = s.rdata := by unfold State.raiseAfter; split <;> simp
@[simp] theorem State.raise_rdata (s : State) (b i c a : Nat) : (s.raise b i c a).rdata = s.rdata := by simp [State.raise]
@[simp] theorem State.raiseNext_rdata (s : State) (b i c a : Nat) : (s.raiseNext b i c a).rdata = s.rdata := by simp [State.raiseNext]
@[simp] theorem State.raiseAfter_out (s : State) (k : Option Nat) (b i c a : Nat) (w : Bool) :
    (s.raiseAfter k b i c a w).out = s.out := by unfold State.raiseAfter; split <;> simp
@[simp] theorem State.raise_out (s : State) (b i c a : Nat) : (s.raise b i c a).out = s.out := by simp [State.raise]
@[simp] theorem State.raiseNext_out (s : State) (b i c a : Nat) : (s.raiseNext b i c a).out = s.out := by simp [State.raiseNext]
@[simp] theorem State.raiseAfter_fresh (s : State) (k : Option Nat) (b i c a : Nat) (w : Bool) :
    (s.raiseAfter k b i c a w).fresh = s.fresh := by unfold State.raiseAfter; split <;> simp
@[simp] theorem State.raise_fresh (s : State) (b i c a : Nat) : (s.raise b i c a).fresh = s.fresh := by simp [State.raise]
@[simp] theorem State.raiseNext_fresh (s : State) (b i c a : Nat) : (s.raiseNext b i c a).fresh = s.fresh := by simp [State.raiseNext]
@[simp] theorem State.raiseAfter_rf (s : State) (k : Option Nat) (b i c a : Nat) (w : Bool) :
    (s.raiseAfter k b i c a w).rf = s.rf := by unfold State.raiseAfter; split <;> simp
@[simp] theorem State.raise_rf (s : State) (b i c a : Nat) : (s.raise b i c a).rf = s.rf := by simp [State.raise]
@[simp] theorem State.raiseNext_rf (s : State) (b i c a : Nat) : (s.raiseNext b i c a).rf = s.rf := by simp [State.raiseNext]
@[simp] theorem State.raiseAfter_caps (s : State) (k : Option Nat) (b i c a : Nat) (w : Bool) :
    (s.raiseAfter k b i c a w).caps = s.caps := by unfold State.raiseAfter; split <;> simp
@[simp] theorem State.raise_caps (s : State) (b i c a : Nat) : (s.raise b i c a).caps = s.caps := by simp [State.raise]
@[simp] theorem State.raiseNext_caps (s : State) (b i c a : Nat) : (s.raiseNext b i c a).caps = s.caps := by simp [State.raiseNext]
@[simp] theorem State.raiseAfter_glb (s : State) (k : Option Nat) (b i c a : Nat) (w : Bool) :
    (s.raiseAfter k b i c a w).glb = s.glb := by unfold State.raiseAfter; split <;> simp
@[simp] theorem State.raise_glb (s : State) (b i c a : Nat) : (s.raise b i c a).glb = s.glb := by simp [State.raise]
@[simp] theorem State.raiseNext_glb (s : State) (b i c a : Nat) : (s.raiseNext b i c a).glb = s.glb := by simp [State.raiseNext]
@[simp] theorem State.raiseAfter_tal (s : State) (k : Option Nat) (b i c a : Nat) (w : Bool) :
    (s.raiseAfter k b i c a w).tal = s.tal := by unfold State.raiseAfter; split <;> simp
@[simp] theorem State.raise_tal (s : State) (b i c a : Nat) : (s.raise b i c a).tal = s.tal := by simp [State.raise]
@[simp] theorem State.raiseNext_tal (s : State) (b i c a : Nat) : (s.raiseNext b i c a).tal = s.tal := by simp [State.raiseNext]
@[simp] theorem State.raiseAfter_slots (s : State) (k : Option Nat) (b i c a : Nat) (w : Bool) :
    (s.raiseAfter k b i c a w).slots = s.slots := by unfold State.raiseAfter; split <;> simp
@[simp] theorem State.raise_slots (s : State) (b i c a : Nat) : (s.raise b i c a).slots = s.slots := by simp [State.raise]
@[simp] theorem State.raiseNext_slots (s : State) (b i c a : Nat) : (s.raiseNext b i c a).slots = s.slots := by simp [State.raiseNext]
@[simp] theorem State.raiseAfter_gens (s : State) (k : Option Nat) (b i c a : Nat) (w : Bool) :
    (s.raiseAfter k b i c a w).gens = s.gens := by unfold State.raiseAfter; split <;> simp
@[simp] theorem State.raise_gens (s : State) (b i c a : Nat) : (s.raise b i c a).gens = s.gens := by simp [State.raise]
@[simp] theorem State.raiseNext_gens (s : State) (b i c a : Nat) : (s.raiseNext b i c a).gens = s.gens := by simp [State.raiseNext]
@[simp] theorem State.raiseAfter_ts (s : State) (k : Option Nat) (b i c a : Nat) (w : Bool) :
    (s.raiseAfter k b i c a w).ts = s.ts := by unfold State.raiseAfter; split <;> simp
@[simp] theorem State.raise_ts (s : State) (b i c a : Nat) : (s.raise b i c a).ts = s.ts := by simp [State.raise]
@[simp] theorem State.raiseNext_ts (s : State) (b i c a : Nat) : (s.raiseNext b i c a).ts = s.ts := by simp [State.raiseNext]
@[simp] theorem State.raiseAfter_ic (s : State) (k : Option Nat) (b i c a : Nat) (w : Bool) :
    (s.raiseAfter k b i c a w).ic = s.ic := by unfold State.raiseAfter; split <;> simp
@[simp] theorem State.raise_ic (s : State) (b i c a : Nat) : (s.raise b i c a).ic = s.ic := by simp [State.raise]
@[simp] theorem State.raiseNext_ic (s : State) (b i c a : Nat) : (s.raiseNext b i c a).ic = s.ic := by simp [State.raiseNext]
@[simp] theorem State.raiseAfter_pw (s : State) (k : Option Nat) (b i c a : Nat) (w : Bool) :
    (s.raiseAfter k b i c a w).pw = s.pw := by unfold State.raiseAfter; split <;> simp
@[simp] theorem State.raise_pw (s : State) (b i c a : Nat) : (s.raise b i c a).pw = s.pw := by simp [State.raise]
@[simp] theorem State.raiseNext_pw (s : State) (b i c a : Nat) : (s.raiseNext b i c a).pw = s.pw := by simp [State.raiseNext]
@[simp] theorem State.raiseAfter_lanes (s : State) (k : Option Nat) (b i c a : Nat) (w : Bool) :
    (s.raiseAfter k b i c a w).lanes = s.lanes := by unfold State.raiseAfter; split <;> simp
@[simp] theorem State.raise_lanes (s : State) (b i c a : Nat) : (s.raise b i c a).lanes = s.lanes := by simp [State.raise]
@[simp] theorem State.raiseNext_lanes (s : State) (b i c a : Nat) : (s.raiseNext b i c a).lanes = s.lanes := by simp [State.raiseNext]
@[simp] theorem State.raiseAfter_belay (s : State) (k : Option Nat) (b i c a : Nat) (w : Bool) :
    (s.raiseAfter k b i c a w).belay = s.belay := by unfold State.raiseAfter; split <;> simp
@[simp] theorem State.raise_belay (s : State) (b i c a : Nat) : (s.raise b i c a).belay = s.belay := by simp [State.raise]
@[simp] theorem State.raiseNext_belay (s : State) (b i c a : Nat) : (s.raiseNext b i c a).belay = s.belay := by simp [State.raiseNext]
@[simp] theorem State.raiseAfter_pr (s : State) (k : Option Nat) (b i c a : Nat) (w : Bool) :
    (s.raiseAfter k b i c a w).pr = s.pr := by unfold State.raiseAfter; split <;> simp
@[simp] theorem State.raise_pr (s : State) (b i c a : Nat) : (s.raise b i c a).pr = s.pr := by simp [State.raise]
@[simp] theorem State.raiseNext_pr (s : State) (b i c a : Nat) : (s.raiseNext b i c a).pr = s.pr := by simp [State.raiseNext]
@[simp] theorem State.raiseAfter_tp (s : State) (k : Option Nat) (b i c a : Nat) (w : Bool) :
    (s.raiseAfter k b i c a w).tp = s.tp := by unfold State.raiseAfter; split <;> simp
@[simp] theorem State.raise_tp (s : State) (b i c a : Nat) : (s.raise b i c a).tp = s.tp := by simp [State.raise]
@[simp] theorem State.raiseNext_tp (s : State) (b i c a : Nat) : (s.raiseNext b i c a).tp = s.tp := by simp [State.raiseNext]
@[simp] theorem State.raiseAfter_keys (s : State) (k : Option Nat) (b i c a : Nat) (w : Bool) :
    (s.raiseAfter k b i c a w).keys = s.keys := by unfold State.raiseAfter; split <;> simp
@[simp] theorem State.raise_keys (s : State) (b i c a : Nat) : (s.raise b i c a).keys = s.keys := by simp [State.raise]
@[simp] theorem State.raiseNext_keys (s : State) (b i c a : Nat) : (s.raiseNext b i c a).keys = s.keys := by simp [State.raiseNext]
@[simp] theorem State.raiseAfter_ub (s : State) (k : Option Nat) (b i c a : Nat) (w : Bool) :
    (s.raiseAfter k b i c a w).ub = s.ub := by unfold State.raiseAfter; split <;> simp
@[simp] theorem State.raise_ub (s : State) (b i c a : Nat) : (s.raise b i c a).ub = s.ub := by simp [State.raise]
@[simp] theorem State.raiseNext_ub (s : State) (b i c a : Nat) : (s.raiseNext b i c a).ub = s.ub := by simp [State.raiseNext]
@[simp] theorem State.raiseAfter_presets (s : State) (k : Option Nat) (b i c a : Nat) (w : Bool) :
    (s.raiseAfter k b i c a w).presets = s.presets := by unfold State.raiseAfter; split <;> simp
@[simp] theorem State.raise_presets (s : State) (b i c a : Nat) : (s.raise b i c a).presets = s.presets := by simp [State.raise]
@[simp] theorem State.raiseNext_presets (s : State) (b i c a : Nat) : (s.raiseNext b i c a).presets = s.presets := by simp [State.raiseNext]
@[simp] theorem State.raiseAfter_termRx (s : State) (k : Option Nat) (b i c a : Nat) (w : Bool) :
    (s.raiseAfter k b i c a w).termRx = s.termRx := by unfold State.raiseAfter; split <;> simp
@[simp] theorem State.raise_termRx (s : State) (b i c a : Nat) : (s.raise b i c a).termRx = s.termRx := by simp [State.raise]
@[simp] theorem State.raiseNext_termRx (s : State) (b i c a : Nat) : (s.raiseNext b i c a).termRx = s.termRx := by simp [State.raiseNext]
@[simp] theorem State.raiseAfter_chains (s : State) (k : Option Nat) (b i c a : Nat) (w : Bool) :
    (s.raiseAfter k b i c a w).chains = s.chains := by unfold State.raiseAfter; split <;> simp
@[simp] theorem State.raise_chains (s : State) (b i c a : Nat) : (s.raise b i c a).chains = s.chains := by simp [State.raise]
@[simp] theorem State.raiseNext_chains (s : State) (b i c a : Nat) : (s.raiseNext b i c a).chains = s.chains := by simp [State.raiseNext]
@[simp] theorem State.raiseAfter_fillRun (s : State) (k : Option Nat) (b i c a : Nat) (w : Bool) :
    (s.raiseAfter k b i c a w).fillRun = s.fillRun := by unfold State.raiseAfter; split <;> simp
@[simp] theorem State.raise_fillRun (s : State) (b i c a : Nat) : (s.raise b i c a).fillRun = s.fillRun := by simp [State.raise]
@[simp] theorem State.raiseNext_fillRun (s : State) (b i c a : Nat) : (s.raiseNext b i c a).fillRun = s.fillRun := by simp [State.raiseNext]
@[simp] theorem State.raiseAfter_ctxs (s : State) (k : Option Nat) (b i c a : Nat) (w : Bool) :
    (s.raiseAfter k b i c a w).ctxs = s.ctxs := by unfold State.raiseAfter; split <;> simp
@[simp] theorem State.raise_ctxs (s : State) (b i c a : Nat) : (s.raise b i c a).ctxs = s.ctxs := by simp [State.raise]
@[simp] theorem State.raiseNext_ctxs (s : State) (b i c a : Nat) : (s.raiseNext b i c a).ctxs = s.ctxs := by simp [State.raiseNext]
@[simp] theorem State.raiseAfter_onuHolds (s : State) (k : Option Nat) (b i c a : Nat) (w : Bool) :
    (s.raiseAfter k b i c a w).onuHolds = s.onuHolds := by unfold State.raiseAfter; split <;> simp
@[simp] theorem State.raise_onuHolds (s : State) (b i c a : Nat) : (s.raise b i c a).onuHolds = s.onuHolds := by simp [State.raise]
@[simp] theorem State.raiseNext_onuHolds (s : State) (b i c a : Nat) : (s.raiseNext b i c a).onuHolds = s.onuHolds := by simp [State.raiseNext]
@[simp] theorem State.raiseAfter_act (s : State) (k : Option Nat) (b i c a : Nat) (w : Bool) :
    (s.raiseAfter k b i c a w).act = s.act := by unfold State.raiseAfter; split <;> simp
@[simp] theorem State.raise_act (s : State) (b i c a : Nat) : (s.raise b i c a).act = s.act := by simp [State.raise]
@[simp] theorem State.raiseNext_act (s : State) (b i c a : Nat) : (s.raiseNext b i c a).act = s.act := by simp [State.raiseNext]
@[simp] theorem State.raiseAfter_allocs (s : State) (k : Option Nat) (b i c a : Nat) (w : Bool) :
    (s.raiseAfter k b i c a w).allocs = s.allocs := by unfold State.raiseAfter; split <;> simp
@[simp] theorem State.raise_allocs (s : State) (b i c a : Nat) : (s.raise b i c a).allocs = s.allocs := by simp [State.raise]
@[simp] theorem State.raiseNext_allocs (s : State) (b i c a : Nat) : (s.raiseNext b i c a).allocs = s.allocs := by simp [State.raiseNext]
@[simp] theorem State.raiseAfter_allocHolds (s : State) (k : Option Nat) (b i c a : Nat) (w : Bool) :
    (s.raiseAfter k b i c a w).allocHolds = s.allocHolds := by unfold State.raiseAfter; split <;> simp
@[simp] theorem State.raise_allocHolds (s : State) (b i c a : Nat) : (s.raise b i c a).allocHolds = s.allocHolds := by simp [State.raise]
@[simp] theorem State.raiseNext_allocHolds (s : State) (b i c a : Nat) : (s.raiseNext b i c a).allocHolds = s.allocHolds := by simp [State.raiseNext]
@[simp] theorem State.raiseAfter_ge (s : State) (k : Option Nat) (b i c a : Nat) (w : Bool) :
    (s.raiseAfter k b i c a w).ge = s.ge := by unfold State.raiseAfter; split <;> simp
@[simp] theorem State.raise_ge (s : State) (b i c a : Nat) : (s.raise b i c a).ge = s.ge := by simp [State.raise]
@[simp] theorem State.raiseNext_ge (s : State) (b i c a : Nat) : (s.raiseNext b i c a).ge = s.ge := by simp [State.raiseNext]
@[simp] theorem State.raiseAfter_trees (s : State) (k : Option Nat) (b i c a : Nat) (w : Bool) :
    (s.raiseAfter k b i c a w).trees = s.trees := by unfold State.raiseAfter; split <;> simp
@[simp] theorem State.raise_trees (s : State) (b i c a : Nat) : (s.raise b i c a).trees = s.trees := by simp [State.raise]
@[simp] theorem State.raiseNext_trees (s : State) (b i c a : Nat) : (s.raiseNext b i c a).trees = s.trees := by simp [State.raiseNext]
@[simp] theorem State.raiseAfter_rows (s : State) (k : Option Nat) (b i c a : Nat) (w : Bool) :
    (s.raiseAfter k b i c a w).rows = s.rows := by unfold State.raiseAfter; split <;> simp
@[simp] theorem State.raise_rows (s : State) (b i c a : Nat) : (s.raise b i c a).rows = s.rows := by simp [State.raise]
@[simp] theorem State.raiseNext_rows (s : State) (b i c a : Nat) : (s.raiseNext b i c a).rows = s.rows := by simp [State.raiseNext]
@[simp] theorem State.raiseAfter_pc (s : State) (k : Option Nat) (b i c a : Nat) (w : Bool) :
    (s.raiseAfter k b i c a w).pc = s.pc := by unfold State.raiseAfter; split <;> simp
@[simp] theorem State.raise_pc (s : State) (b i c a : Nat) : (s.raise b i c a).pc = s.pc := by simp [State.raise]
@[simp] theorem State.raiseNext_pc (s : State) (b i c a : Nat) : (s.raiseNext b i c a).pc = s.pc := by simp [State.raiseNext]
@[simp] theorem State.raiseAfter_cl (s : State) (k : Option Nat) (b i c a : Nat) (w : Bool) :
    (s.raiseAfter k b i c a w).cl = s.cl := by unfold State.raiseAfter; split <;> simp
@[simp] theorem State.raise_cl (s : State) (b i c a : Nat) : (s.raise b i c a).cl = s.cl := by simp [State.raise]
@[simp] theorem State.raiseNext_cl (s : State) (b i c a : Nat) : (s.raiseNext b i c a).cl = s.cl := by simp [State.raiseNext]
@[simp] theorem State.raiseAfter_qs (s : State) (k : Option Nat) (b i c a : Nat) (w : Bool) :
    (s.raiseAfter k b i c a w).qs = s.qs := by unfold State.raiseAfter; split <;> simp
@[simp] theorem State.raise_qs (s : State) (b i c a : Nat) : (s.raise b i c a).qs = s.qs := by simp [State.raise]
@[simp] theorem State.raiseNext_qs (s : State) (b i c a : Nat) : (s.raiseNext b i c a).qs = s.qs := by simp [State.raiseNext]
@[simp] theorem State.raiseAfter_bm (s : State) (k : Option Nat) (b i c a : Nat) (w : Bool) :
    (s.raiseAfter k b i c a w).bm = s.bm := by unfold State.raiseAfter; split <;> simp
@[simp] theorem State.raise_bm (s : State) (b i c a : Nat) : (s.raise b i c a).bm = s.bm := by simp [State.raise]
@[simp] theorem State.raiseNext_bm (s : State) (b i c a : Nat) : (s.raiseNext b i c a).bm = s.bm := by simp [State.raiseNext]
@[simp] theorem State.raiseAfter_hd (s : State) (k : Option Nat) (b i c a : Nat) (w : Bool) :
    (s.raiseAfter k b i c a w).hd = s.hd := by unfold State.raiseAfter; split <;> simp
@[simp] theorem State.raise_hd (s : State) (b i c a : Nat) : (s.raise b i c a).hd = s.hd := by simp [State.raise]
@[simp] theorem State.raiseNext_hd (s : State) (b i c a : Nat) : (s.raiseNext b i c a).hd = s.hd := by simp [State.raiseNext]
@[simp] theorem State.raiseAfter_imh (s : State) (k : Option Nat) (b i c a : Nat) (w : Bool) :
    (s.raiseAfter k b i c a w).imh = s.imh := by unfold State.raiseAfter; split <;> simp
@[simp] theorem State.raise_imh (s : State) (b i c a : Nat) : (s.raise b i c a).imh = s.imh := by simp [State.raise]
@[simp] theorem State.raiseNext_imh (s : State) (b i c a : Nat) : (s.raiseNext b i c a).imh = s.imh := by simp [State.raiseNext]
@[simp] theorem State.raiseAfter_lasting (s : State) (k : Option Nat) (b i c a : Nat) (w : Bool) :
    (s.raiseAfter k b i c a w).lasting = s.lasting := by unfold State.raiseAfter; split <;> simp
@[simp] theorem State.raise_lasting (s : State) (b i c a : Nat) : (s.raise b i c a).lasting = s.lasting := by simp [State.raise]
@[simp] theorem State.raiseNext_lasting (s : State) (b i c a : Nat) : (s.raiseNext b i c a).lasting = s.lasting := by simp [State.raiseNext]

/-! ### What every command does to the queue and to the gate of LASER_EN -/

@[simp] theorem State.afterCmd_pending (s t : State) : (s.afterCmd t).pending = s.pending := rfl

/-- A gate that stands as the watch domain drives it stays as it is. -/
theorem Belay.gate_eq (b : Belay) (run : Nat) (h : b.laser = true → b.claim = true ∧ b.seen = false) : b.gate b.laser run = b := by
  obtain ⟨c, n, l⟩ := b
  cases l
  · rfl
  · have := h rfl
    simp only at this
    simp [Belay.gate, this.1, this.2]

/-- Where the change touches neither the queue nor the belay and the gate stands, the command answers the change itself. -/
theorem State.afterCmd_eq (s t : State) (h : s.LaserSafe) (hp : t.pending = s.pending) (hb : t.belay = s.belay) :
    s.afterCmd t = t := by
  have hg : t.belay.gate s.belay.laser t.ts.run = t.belay := by
    rw [hb]
    exact Belay.gate_eq _ _ h
  unfold State.afterCmd
  rw [hg, ← hp]

/-- What act answers on a powered device. -/
theorem act_powered (s : State) (f : State → State) (h : s.Powered) (hp : (f s).pending = s.pending)
    (hb : (f s).belay = s.belay) : act s f = .next (f s) := by
  unfold act
  rw [h.1]
  simp [State.afterCmd_eq s (f s) h.2 hp hb]

/-- The gate of LASER_EN stands after act, whatever the command did. -/
theorem act_laserSafe (s t : State) (f : State → State) (h : s.LaserSafe) (e : act s f = .next t) : t.LaserSafe := by
  unfold act at e
  cases hw : s.pw.held <;> rw [hw] at e <;> cases e
  · intro hl
    simpa [State.afterCmd, Belay.gate, and_assoc] using (by simpa [State.afterCmd, Belay.gate, and_assoc] using hl :
      (f s).belay.laser = true ∧ (f s).belay.claim = true ∧ (f s).belay.seen = false).2
  · exact h

end Sys2Proof.Machine
end

