-- ==== Sys2Proof/Laws/Tab.lean ====
section
/-! SUPPORT. Sparse tables: a read after a write, and the canonical form that every operation keeps. -/

namespace Sys2Proof.Machine

variable {α : Type}

@[simp] theorem Tab.get_nil (d : α) (k : Nat) : Tab.get d [] k = d := rfl

theorem Tab.get_erase_same (d : α) (t : Tab α) (k : Nat) : (t.erase k).get d k = d := by
  induction t with
  | nil => rfl
  | cons e t ih =>
    obtain ⟨a, v⟩ := e
    by_cases h : a = k <;> simp [Tab.erase, Tab.get, h, ih]

theorem Tab.get_erase_other (d : α) (t : Tab α) {k j : Nat} (h : j ≠ k) : (t.erase k).get d j = t.get d j := by
  induction t with
  | nil => rfl
  | cons e t ih =>
    obtain ⟨a, v⟩ := e
    by_cases ha : a = k
    · subst ha
      simp [Tab.erase, Tab.get, ih, Ne.symm h]
    · simp [Tab.erase, Tab.get, ha, ih]

theorem Tab.get_insert_same (d : α) (t : Tab α) (k : Nat) (v : α) (hk : ∀ e ∈ t, e.1 ≠ k) :
    (t.insert k v).get d k = v := by
  induction t with
  | nil => simp [Tab.insert, Tab.get]
  | cons e t ih =>
    obtain ⟨a, w⟩ := e
    have ha : a ≠ k := hk (a, w) (by simp)
    by_cases hl : k < a
    · simp [Tab.insert, hl, Tab.get]
    · simp [Tab.insert, hl, Tab.get, ha]
      exact ih (fun e he => hk e (by simp [he]))

theorem Tab.get_insert_other (d : α) (t : Tab α) {k j : Nat} (v : α) (h : j ≠ k) : (t.insert k v).get d j = t.get d j := by
  induction t with
  | nil => simp [Tab.insert, Tab.get, Ne.symm h]
  | cons e t ih =>
    obtain ⟨a, w⟩ := e
    by_cases hl : k < a
    · simp [Tab.insert, hl, Tab.get, Ne.symm h]
    · simp [Tab.insert, hl, Tab.get, ih]

theorem Tab.erase_ne (t : Tab α) (k : Nat) : ∀ e ∈ t.erase k, e.1 ≠ k := by
  induction t with
  | nil => simp [Tab.erase]
  | cons e t ih =>
    obtain ⟨a, v⟩ := e
    by_cases h : a = k
    · simpa [Tab.erase, h] using ih
    · simp only [Tab.erase, h, if_false]
      intro e he
      rcases List.mem_cons.1 he with rfl | he
      · exact h
      · exact ih e he

/-- A read at the index written. -/
@[simp] theorem Tab.get_set_same [DecidableEq α] (d : α) (t : Tab α) (k : Nat) (v : α) : (t.set d k v).get d k = v := by
  unfold Tab.set
  split
  · rename_i h
    rw [Tab.get_erase_same, h]
  · exact Tab.get_insert_same d _ k v (Tab.erase_ne t k)

/-- A read elsewhere, whatever default it reads with. -/
theorem Tab.get_set_other [DecidableEq α] (d d' : α) (t : Tab α) {k j : Nat} (v : α) (h : j ≠ k) :
    (t.set d k v).get d' j = t.get d' j := by
  unfold Tab.set
  split
  · exact Tab.get_erase_other d' t h
  · rw [Tab.get_insert_other d' _ v h, Tab.get_erase_other d' t h]

@[simp] theorem Tab.get_modify_same [DecidableEq α] (d : α) (t : Tab α) (k : Nat) (f : α → α) :
    (t.modify d k f).get d k = f (t.get d k) := by simp [Tab.modify]

theorem Tab.get_modify_other [DecidableEq α] (d : α) (t : Tab α) {k j : Nat} (f : α → α) (h : j ≠ k) :
    (t.modify d k f).get d j = t.get d j := by simp [Tab.modify, Tab.get_set_other d d t _ h]

/-! ### The canonical form -/

/-- Rising indexes, as a pairwise relation. -/
theorem Tab.rising_iff (t : Tab α) : t.rising = true ↔ t.Pairwise (fun a b => a.1 < b.1) := by
  induction t with
  | nil => simp [Tab.rising]
  | cons e t ih =>
    cases t with
    | nil => simp [Tab.rising]
    | cons f t =>
      simp only [Tab.rising, Bool.and_eq_true, decide_eq_true_eq, ih, List.pairwise_cons]
      constructor
      · rintro ⟨h, h2, h3⟩
        refine ⟨fun g hg => ?_, h2, h3⟩
        rcases List.mem_cons.1 hg with rfl | hg
        · exact h
        · exact lt_trans h (h2 g hg)
      · rintro ⟨h, h2, h3⟩
        exact ⟨h f (by simp), h2, h3⟩

theorem Tab.mem_erase (t : Tab α) (k : Nat) (e : Nat × α) (h : e ∈ t.erase k) : e ∈ t := by
  induction t with
  | nil => simp [Tab.erase] at h
  | cons f t ih =>
    by_cases hf : f.1 = k
    · simp only [Tab.erase, hf, if_true] at h
      exact List.mem_cons_of_mem _ (ih h)
    · simp only [Tab.erase, hf, if_false, List.mem_cons] at h
      rcases h with h | h
      · simp [h]
      · exact List.mem_cons_of_mem _ (ih h)

theorem Tab.erase_pairwise (t : Tab α) (k : Nat) (h : t.Pairwise (fun a b => a.1 < b.1)) :
    (t.erase k).Pairwise (fun a b => a.1 < b.1) := by
  induction t with
  | nil => simp [Tab.erase]
  | cons e t ih =>
    obtain ⟨a, v⟩ := e
    rw [List.pairwise_cons] at h
    by_cases ha : a = k
    · simpa [Tab.erase, ha] using ih h.2
    · simp only [Tab.erase, ha, if_false, List.pairwise_cons]
      exact ⟨fun f hf => h.1 f (Tab.mem_erase t k f hf), ih h.2⟩

theorem Tab.mem_insert (t : Tab α) (k : Nat) (v : α) (e : Nat × α) (h : e ∈ t.insert k v) : e = (k, v) ∨ e ∈ t := by
  induction t with
  | nil => simpa [Tab.insert] using h
  | cons f t ih =>
    by_cases hf : k < f.1
    · simpa [Tab.insert, hf] using h
    · simp only [Tab.insert, hf, if_false, List.mem_cons] at h
      rcases h with h | h
      · exact .inr (by simp [h])
      · rcases ih h with h | h
        · exact .inl h
        · exact .inr (List.mem_cons_of_mem _ h)

theorem Tab.insert_pairwise (t : Tab α) (k : Nat) (v : α) (h : t.Pairwise (fun a b => a.1 < b.1)) (hk : ∀ e ∈ t, e.1 ≠ k) :
    (t.insert k v).Pairwise (fun a b => a.1 < b.1) := by
  induction t with
  | nil => simp [Tab.insert]
  | cons e t ih =>
    obtain ⟨a, w⟩ := e
    rw [List.pairwise_cons] at h
    by_cases ha : k < a
    · simp only [Tab.insert, ha, if_true, List.pairwise_cons]
      refine ⟨fun f hf => ?_, h.1, h.2⟩
      rcases List.mem_cons.1 hf with rfl | hf
      · exact ha
      · exact lt_trans ha (h.1 f hf)
    · have hne : a ≠ k := hk (a, w) (by simp)
      simp only [Tab.insert, ha, if_false, List.pairwise_cons]
      refine ⟨fun f hf => ?_, ih h.2 (fun e he => hk e (by simp [he]))⟩
      rcases Tab.mem_insert t k v f hf with rfl | hf
      · show a < k
        omega
      · exact h.1 f hf

/-- The canonical form in words: rising indexes, no default listed. -/
theorem Tab.wf_iff [DecidableEq α] (d : α) (t : Tab α) :
    t.wf d = true ↔ t.Pairwise (fun a b => a.1 < b.1) ∧ ∀ e ∈ t, e.2 ≠ d := by
  simp [Tab.wf, Tab.rising_iff]

/-- Writing keeps the canonical form. -/
theorem Tab.wf_set [DecidableEq α] (d : α) (t : Tab α) (k : Nat) (v : α) (h : t.wf d = true) : (t.set d k v).wf d = true := by
  rw [Tab.wf_iff] at h ⊢
  unfold Tab.set
  split
  · exact ⟨Tab.erase_pairwise t k h.1, fun e he => h.2 e (Tab.mem_erase t k e he)⟩
  · rename_i hv
    refine ⟨Tab.insert_pairwise _ k v (Tab.erase_pairwise t k h.1) (Tab.erase_ne t k), fun e he => ?_⟩
    rcases Tab.mem_insert _ k v e he with rfl | he
    · exact hv
    · exact h.2 e (Tab.mem_erase t k e he)

/-- Changing one index keeps the canonical form. -/
theorem Tab.wf_modify [DecidableEq α] (d : α) (t : Tab α) (k : Nat) (f : α → α) (h : t.wf d = true) :
    (t.modify d k f).wf d = true := Tab.wf_set d t k _ h

theorem Tab.mem_mapAll [DecidableEq α] (d : α) (f : Nat → α → α) (t : Tab α) (e : Nat × α) (h : e ∈ t.mapAll d f) :
    (∃ g ∈ t, g.1 = e.1) ∧ e.2 ≠ d := by
  induction t with
  | nil => simp [Tab.mapAll] at h
  | cons g t ih =>
    obtain ⟨a, v⟩ := g
    by_cases hd : f a v = d
    · simp only [Tab.mapAll, hd, if_true] at h
      obtain ⟨⟨g, hg, he⟩, h2⟩ := ih h
      exact ⟨⟨g, List.mem_cons_of_mem _ hg, he⟩, h2⟩
    · simp only [Tab.mapAll, hd, if_false, List.mem_cons] at h
      rcases h with rfl | h
      · exact ⟨⟨(a, v), by simp, rfl⟩, hd⟩
      · obtain ⟨⟨g, hg, he⟩, h2⟩ := ih h
        exact ⟨⟨g, List.mem_cons_of_mem _ hg, he⟩, h2⟩

/-- A change of every listed value keeps the canonical form. -/
theorem Tab.wf_mapAll [DecidableEq α] (d : α) (f : Nat → α → α) (t : Tab α) (h : t.wf d = true) : (t.mapAll d f).wf d = true := by
  rw [Tab.wf_iff] at h ⊢
  refine ⟨?_, fun e he => (Tab.mem_mapAll d f t e he).2⟩
  have hp := h.1
  clear h
  induction t with
  | nil => simp [Tab.mapAll]
  | cons e t ih =>
    obtain ⟨a, v⟩ := e
    rw [List.pairwise_cons] at hp
    by_cases hd : f a v = d
    · simpa [Tab.mapAll, hd] using ih hp.2
    · simp only [Tab.mapAll, hd, if_false, List.pairwise_cons]
      refine ⟨fun e he => ?_, ih hp.2⟩
      obtain ⟨⟨g, hg, hge⟩, _⟩ := Tab.mem_mapAll d f t e he
      have := hp.1 g hg
      show a < e.1
      rw [← hge]
      exact this

end Sys2Proof.Machine
end

