-- ==== Sys2Proof/Laws/Ops.lean ====
section
/-! SUPPORT. The shared operations: what a register field reads after a write, what the stores of contexts hold after one. -/

namespace Sys2Proof.Machine

/-! ### Register fields -/

/-- A field reads what was written to it, in its width. -/
@[simp] theorem State.rd_wr_same (s : State) (f : Fld) (v i : Nat) : (s.wr f v i).rd f i = v % 2 ^ f.w := by
  simp [State.rd, State.wr]

/-- Another field, or another element, reads as before. -/
theorem State.rd_wr_other (s : State) (f g : Fld) (v i j : Nat) (h : g.key j ≠ f.key i) : (s.wr f v i).rd g j = s.rd g j := by
  simp [State.rd, State.wr, Tab.get_set_other _ _ _ _ h]

/-- Events, beads and outputs touch no register field. -/
@[simp] theorem State.rd_raise (s : State) (b i c a : Nat) (f : Fld) (j : Nat) : (s.raise b i c a).rd f j = s.rd f j := by
  simp [State.rd]

@[simp] theorem State.rd_count (s : State) (b c i n : Nat) (t : Option Nat) (f : Fld) (j : Nat) :
    (s.count b c i n t).rd f j = s.rd f j := by simp [State.rd]

@[simp] theorem State.rd_emit (s : State) (o : Out) (f : Fld) (j : Nat) : (s.emit o).rd f j = s.rd f j := rfl

/-- A saturating counter never falls. -/
theorem State.rd_bump (s : State) (f : Fld) (n i : Nat) :
    (s.bump f n i).rd f i = sat (2 ^ f.w - 1) (s.rd f i + n) % 2 ^ f.w := by simp [State.bump]

/-! ### The stores of contexts -/

@[simp] theorem State.port_setPort (s : State) (p : Nat) (x : TpPort) : (s.setPort p x).port p = x := by
  simp [State.port, State.setPort]
@[simp] theorem State.rx_setRx (s : State) (p : Nat) (x : UbPort) : (s.setRx p x).rx p = x := by
  simp [State.rx, State.setRx]
@[simp] theorem State.ctx_setCtx (s : State) (t : Nat) (x : Ctx) : (s.setCtx t x).ctx t = x := by
  simp [State.ctx, State.setCtx]
@[simp] theorem State.alloc_setAlloc (s : State) (a : Nat) (x : Alloc) : (s.setAlloc a x).alloc a = x := by
  simp [State.alloc, State.setAlloc]
@[simp] theorem State.tree_setTree (s : State) (p : Nat) (x : GeTree) : (s.setTree p x).tree p = x := by
  simp [State.tree, State.setTree]
@[simp] theorem State.preset_setPreset (s : State) (t : Nat) (x : Preset) : (s.setPreset t x).preset t = x := by
  simp [State.preset, State.setPreset]
@[simp] theorem State.trx_setTrx (s : State) (t : Nat) (x : TermRx) : (s.setTrx t x).trx t = x := by
  simp [State.trx, State.setTrx]
@[simp] theorem State.keyCtx_setKeyCtx (s : State) (t : Nat) (x : KeyCtx) : (s.setKeyCtx t x).keyCtx t = x := by
  simp [State.keyCtx, State.setKeyCtx]
@[simp] theorem State.lane_setLane (s : State) (l : Nat) (x : Lane) : (s.setLane l x).lane l = x.edge (s.lane l) s.ts.run := by
  simp [State.lane, State.setLane]

theorem State.ctx_setCtx_other (s : State) {t u : Nat} (x : Ctx) (h : u ≠ t) : (s.setCtx t x).ctx u = s.ctx u := by
  simp [State.ctx, State.setCtx, Tab.get_set_other _ _ _ _ h]
theorem State.port_setPort_other (s : State) {p q : Nat} (x : TpPort) (h : q ≠ p) : (s.setPort p x).port q = s.port q := by
  simp [State.port, State.setPort, Tab.get_set_other _ _ _ _ h]
theorem State.alloc_setAlloc_other (s : State) {a b : Nat} (x : Alloc) (h : b ≠ a) : (s.setAlloc a x).alloc b = s.alloc b := by
  simp [State.alloc, State.setAlloc, Tab.get_set_other _ _ _ _ h]

/-! ### Events (R42) -/

/-- An event raised at a source with room waits behind all that wait. -/
theorem State.raise_wait (s : State) (b i c a : Nat) (h : s.waiting b i < 16) :
    (s.raise b i c a).evu.wait = s.evu.wait ++ [⟨s.evu.ord, none, b, i, c, a % 2 ^ 32, s.ns, false⟩] := by
  have : ¬ 16 ≤ s.waiting b i := by omega
  simp [State.raise, State.raiseAfter, this]

/-- An event raised at a full source is counted, and nothing waits for it. -/
theorem State.raise_full (s : State) (b i c a : Nat) (h : 16 ≤ s.waiting b i) :
    (s.raise b i c a).evu = { s.evu with lost := s.evu.lost.modify 0 (b * 2048 + i) (· + 1), last := none } := by
  simp [State.raise, State.raiseAfter, h]

/-- The event raised last is the cause of what raiseNext raises (R39). -/
theorem State.raise_last (s : State) (b i c a : Nat) (h : s.waiting b i < 16) : (s.raise b i c a).evu.last = some s.evu.ord := by
  have : ¬ 16 ≤ s.waiting b i := by omega
  simp [State.raise, State.raiseAfter, this]

/-- A raised event is raised. -/
theorem State.raised_raise (s : State) (b i c a : Nat) (h : s.Room b i) : (s.raise b i c a).Raised b i c a := by
  refine ⟨⟨s.evu.ord, none, b, i, c, a % 2 ^ 32, s.ns, false⟩, ?_, rfl, rfl, rfl, rfl⟩
  rw [State.raise_wait s b i c a h]
  simp

end Sys2Proof.Machine
end

