-- ==== Sys2Proof/Laws/Exec.lean ====
section
/-! SUPPORT. Every command but SUPPLY_FAIL and POWER_ON_RESET acts through act, so that what act guarantees holds of each. -/

namespace Sys2Proof.Machine

/-- Every command but the two that reach the supplies is act of some change of the state. -/
theorem exec_act (c : Instr) (s : State) (h1 : c ≠ .supplyFail) (h2 : ∀ st a, c ≠ .powerOnReset st a) :
    ∃ f, exec c s = act s f := by
  unfold exec
  split
  all_goals first
    | exact ⟨_, rfl⟩
    | exact absurd rfl h1
    | exact absurd rfl (h2 _ _)

/-- act answers a next state with the queue of the state before. -/
theorem act_pending (s t : State) (f : State → State) (h : act s f = .next t) : t.pending = s.pending := by
  unfold act at h
  cases hw : s.pw.held <;> rw [hw] at h <;> cases h <;> rfl

/-- What a command can answer (the inversion of exec): its supplies' own two commands apart, the state itself where the device is held
in reset, or a change of it behind the gate. -/
theorem exec_next (c : Instr) (s t : State) (h1 : c ≠ .supplyFail) (h2 : ∀ st a, c ≠ .powerOnReset st a)
    (h : exec c s = .next t) : (s.pw.held = true ∧ t = s) ∨ (s.pw.held = false ∧ ∃ f : State → State, t = s.afterCmd (f s)) := by
  obtain ⟨f, hf⟩ := exec_act c s h1 h2
  rw [hf] at h
  unfold act at h
  cases hw : s.pw.held <;> rw [hw] at h <;> cases h
  · exact .inr ⟨rfl, f, rfl⟩
  · exact .inl ⟨rfl, rfl⟩

end Sys2Proof.Machine
end

