-- ==== Sys2Proof/Tests/Slice0.lean ====
section
/-! SUPPORT. The author's own tests: for each statement states and operands that meet its hypotheses, with what the spec's rules give
there; and an ill-formed term for each check of WellFormed. -/

open Sys2Proof Sys2Proof.Machine

namespace Sys2Proof.Tests

set_option Elab.async false

/-- The state at run count t. -/
def at_ (t : Nat) (s : State) : State := { s with ts := { s.ts with run := t } }

/-- The state a command leaves. -/
def go (c : Instr) (s : State) : State :=
  match exec c s with
  | .next t => t
  | _ => s

/-- The state a step leaves. -/
def stepped (s : State) : State :=
  match Sys2Proof.Machine.step s with
  | .next t => t
  | _ => s

/-- The state with register fields set: field, value, element. -/
def put (s : State) (l : List (Fld × Nat × Nat)) : State := l.foldl (fun s x => s.wr x.1 x.2.1 x.2.2) s

/-- A device in READY, the features given accepted and locked. -/
def ready (feats : Nat) : State := put { State.reset with glb := { dev := .ready } } [(F.GLB_FEAT_OFFER_offer, 0x3FFF, 0),
  (F.GLB_FEAT_ACCEPT_accept, feats, 0), (F.GLB_FEAT_LOCK_lock, b2n (feats != 0), 0)]

/-- A device in RUN in a role, at a level. -/
def running (feats : Nat) (role : Role) (level : Nat := 0) : State :=
  { ready feats with glb := { dev := .run, modeIn := true, level := level, role := role } }

/-! ### Queue, step, states -/

theorem wit_step : stepped { ready 0 with pending := [.supplyFail, .tallySlotEnd] } = go .supplyFail { ready 0 with pending := [.tallySlotEnd] }
    ∧ stepped (ready 0) = (ready 0).idle ∧ (ready 0).idle.ts.run ≠ (ready 0).ts.run := by decide +kernel

theorem wit_queue : (go (.stateRequestTest .pf) { ready 0 with pending := [.tallySlotEnd] }).pending = [.tallySlotEnd] := by
  decide +kernel

theorem wit_everyCommand : (go (.stateRequestTest .pf) { ready 0 with pending := [.tallySlotEnd] }).pending = [.tallySlotEnd] := by
  decide +kernel

theorem wit_gate : (ready 0).LaserSafe ∧ ({ running 0 .solo with belay := { claim := true, laser := true }, pending := [.belaySeenEdge] } : State).LaserSafe
    ∧ (stepped { running 0 .solo with belay := { claim := true, laser := true }, pending := [.belaySeenEdge] }).belay = { seen := true } := by
  decide +kernel

theorem wit_held : (go .supplyFail (running 0 .solo)).pw.held = true ∧ go .tallySlotEnd (go .supplyFail (running 0 .solo)) = go .supplyFail (running 0 .solo)
    ∧ (go .supplyFail (running 0 .solo)).idle = go .supplyFail (running 0 .solo) := by decide +kernel

theorem wit_moves_test : (ready 0).Powered ∧ (ready 0).MoveFree ∧ (go (.stateRequestTest .pf) (ready 0)).glb.dev = .test
    ∧ (go (.stateRequestTest .pf) (ready 0)).belay.claim = true
    ∧ (go (.stateRequestReady .guide) (go (.stateRequestTest .pf) (ready 0))).glb.dev = .ready := by decide +kernel

theorem wit_moves_run : (running 0 .solo).Powered ∧ (running 0 .solo).MoveFree
    ∧ (go (.stateRequestReady .pf) (running 0 .solo)).glb.move = some .ready
    ∧ (go (.stateRequestBivouac .pf) (put (running 0 .solo) [(F.PW_DOM_CFG_biv_half_b, 0, 0)])).glb.dev = .bivouac
    ∧ (go (.stateRequestSafe .pf) (running 0 .solo)).glb.dev = .safe
    ∧ (go (.stateRequestSafe .pf) (running 0 .solo)).rd F.PW_RESET_CAUSE_safe_cause 0 = 4 := by decide +kernel

theorem wit_mode : (put (ready 0x80) [(F.GLB_MODE_mode, 1, 0)]).Powered ∧ (put (ready 0x80) [(F.GLB_MODE_mode, 1, 0)]).MoveFree
    ∧ (put (ready 0x80) [(F.GLB_MODE_mode, 1, 0)]).modeLegal 1 = true
    ∧ (go (.stateRequestRun .pf) (put (ready 0x80) [(F.GLB_MODE_mode, 1, 0)])).glb = { dev := .run, modeIn := true, role := .active }
    ∧ (go (.stateRequestRun .pf) { put (ready 0x80) [(F.GLB_MODE_mode, 1, 0)] with belay := { seen := true } }).glb.role = .standby := by
  decide +kernel

theorem wit_mode_end : (go .downstreamStop { running 0 .solo with glb := { dev := .run, modeIn := true, move := some .ready } }).glb
    = { dev := .ready } := by decide +kernel

/-- A request in a domain command, in READY for READY, and RUN without lock or with an illegal mode. -/
theorem wit_refusals : (go (.stateRequestTest .pf) { ready 0 with pw := { dom := some (3, true) } }).rd F.GLB_STATE_last_status 0 = 1
    ∧ (go (.stateRequestReady .pf) (ready 0)).rd F.GLB_STATE_last_status 0 = 2
    ∧ (go (.stateRequestBootOrReserved .pf .boot) (ready 0)).rd F.GLB_STATE_last_status 0 = 6
    ∧ (go (.stateRequestRun .pf) (ready 0)).rd F.GLB_STATE_last_status 0 = 3
    ∧ (go (.stateRequestRun .pf) (put (ready 1) [(F.GLB_MODE_mode, 12, 0)])).rd F.GLB_STATE_last_status 0 = 4
    ∧ (go (.stateRequestBivouac .pf) (running 0x80 .active)).rd F.GLB_STATE_last_status 0 = 5
    ∧ (go (.stateRequestReady .pf) (ready 0)).Raised 0 0 0x0002 (1 + 2 * 2 ^ 16) := by decide +kernel

theorem wit_fatal : (go (.fatalFault .request) (running 0 .solo)).glb.dev = .safe ∧ (go .heartbeatTimeout (running 0 .solo)).glb.dev = .safe
    ∧ (go .heartbeatTimeout { running 0 .solo with glb := { dev := .run, modeIn := true, move := some .ready } }).rd F.GLB_STATE_last_status 0 = 7
    ∧ (go .heartbeatTimeout (running 0 .solo)).rd F.PW_RESET_CAUSE_safe_cause 0 = 1 := by decide +kernel

/-- Boundary: prerequisites 9 → 8 and 13 → 10; the lowest failing bit is reported. -/
theorem wit_lock : (go (.featLockWrite .pf 1) (put (ready 0) [(F.GLB_FEAT_ACCEPT_accept, 0x2200, 0)])).rd F.GLB_FEAT_LOCK_failing_bit 0 = 9
    ∧ (go (.featLockWrite .pf 1) (put (ready 0) [(F.GLB_FEAT_ACCEPT_accept, 0x2300, 0)])).rd F.GLB_FEAT_LOCK_failing_bit 0 = 13
    ∧ (go (.featLockWrite .pf 1) (put (ready 0) [(F.GLB_FEAT_ACCEPT_accept, 0x2700, 0)])).rd F.GLB_FEAT_LOCK_lock 0 = 1
    ∧ go (.featLockWrite .pf 1) (ready 1) = ready 1 ∧ go (.featLockWrite .pf 2) (ready 0) = ready 0
    ∧ (go (.featLockWrite .pf 1) (running 0 .solo)).rd F.GLB_FEAT_LOCK_lock_status 0 = 2
    ∧ go (.modeWrite (.vf 3) 2) (ready 0) = ready 0 ∧ (go (.modeWrite .pf 0x15) (ready 0)).rd F.GLB_MODE_mode 0 = 5
    ∧ (go (.featAcceptWrite .pf 0xFFFF) (put (ready 0) [(F.GLB_FEAT_OFFER_offer, 0x34FF, 0)])).rd F.GLB_FEAT_ACCEPT_accept 0 = 0x34FF := by
  decide +kernel

theorem wit_accept : (ready 0).pcieBoot = false ∧ (ready 0).blkDown 0 = false
    ∧ (go (.lowerSlotRead .pf 6) (put (ready 0) [(F.GLB_FEAT_ACCEPT_accept, 0x3FFF, 0)])).rdata = 0x3FFF
    ∧ go (.featAcceptWrite .pf 0xFFFF) (running 0 .solo) = running 0 .solo ∧ go (.featAcceptWrite .pf 0xFFFF) (ready 1) = ready 1
    ∧ (ready 0).feat 3 = false ∧ (ready 8).feat 3 = true := by decide +kernel

theorem wit_glb : (go (.unmappedAccess false 0x5000) (ready 0)).Raised 0 0 0x0004 0x5000
    ∧ (go .tallySlotEnd { ready 0 with tal := Tab.set {} [] 5 ⟨[3, 0, 0, 0, 0, 0, 0, 9], false⟩, ts := { run := 125000000 * 2 ^ 40 } }).tal.get {} 5
      = ⟨[0, 3, 0, 0, 0, 0, 0, 0], false⟩
    ∧ (go .tallySlotEnd { ready 0 with ts := { run := 125000000 * 2 ^ 40 } }).slots.start = 125000000 * 2 ^ 40
    ∧ go .tallySlotEnd { ready 0 with ts := { run := 125000000 * 2 ^ 40 - 1 } } = { ready 0 with ts := { run := 125000000 * 2 ^ 40 - 1 } }
    ∧ (ready 0).monOut 0 = false ∧ (go (.paceBelowFloor 0) (ready 0)).rd F.GLB_PACE_below_floor 0 = 1
    ∧ (ready 0).reach .pf 0 = true
    ∧ (go (.tallyCfgWrite .pf (BitVec.ofNat 32 ((ready 0).rd F.GLB_TALLY_CFG_window_ms 0 * 2 ^ 16 + 3))) (ready 0)).rd F.GLB_TALLY_CFG_threshold 0 = 3 := by
  decide +kernel

/-- A window of 0 ms acts as one of 1 ms; a monitor below the floor has no margin left. -/
theorem wit_glb_window : (go (.tallyCfgWrite .pf 3) (ready 0)).slots = ⟨0, 125000 * 2 ^ 40⟩
    ∧ (go (.tallyCfgWrite .pf 0x10003) (ready 0)).rd F.GLB_TALLY_CFG_window_ms = 1
    ∧ (go (.paceBelowFloor 0) ((ready 0).wr F.PW_MON_margin 30 0)).rd F.PW_MON_margin 0 = 0 := by decide +kernel

def twoEvents : State := ((ready 0).raise 1 5 0x0100 7).raiseNext 1 5 0x0101 8

theorem wit_events : (twoEvents.nextEvent 1 5).isSome = true ∧ (go (.eventCommit 1 5) twoEvents).evu.seq = 1
    ∧ Out.event 1 1 5 0x0100 7 0 ∈ (go (.eventCommit 1 5) twoEvents).out
    ∧ (go (.eventCommit 1 5) { twoEvents with evu := { twoEvents.evu with seq := 2 ^ 32 - 1 } }).evu.seq = 0 := by decide +kernel

theorem wit_room : (State.each 16 (fun s _ => s.raise 1 5 1 0) (ready 0)).waiting 1 5 = 16 ∧ (ready 0).waiting 1 5 = 0 := by decide +kernel

/-- An event of port 6 waits for its cause at port 5. -/
theorem wit_cause : go (.eventCommit 1 6) (((ready 0).raise 1 5 0x0100 7).raiseNext 1 6 0x0101 8)
    = ((ready 0).raise 1 5 0x0100 7).raiseNext 1 6 0x0101 8
    ∧ (go (.eventsLost 1 5) { ready 0 with evu := { lost := [(2053, 4)] } }).Raised 1 5 0xFF10 4
    ∧ (State.each 17 (fun s _ => s.raise 1 5 1 0) (ready 0)).evu.lost.get 0 2053 = 1 := by decide +kernel

theorem wit_pending : (go (.stateRequestTest .pf) { ready 0 with glb := { dev := .ready, move := some .run } }).rd F.GLB_STATE_last_status 0 = 1 := by
  decide +kernel

/-! ### Registers and generations -/

theorem wit_capture : regAt 0x900000 ≠ none ∧ (go (.lowerSlotRead .pf 0) (ready 0)).rdata ≠ 1 ∧ regAt 0x000FF0 = none
    ∧ (go (.lowerSlotRead .pf 0x3FC) (ready 0)).Raised 0 0 0x0004 0xFF0 ∧ (go (.registerWrite .pf 0x3FC 1) (ready 0)).rf = (ready 0).rf := by
  decide +kernel

/-- TS_INCR is 64 bits wide: its upper half is what was captured. -/
theorem wit_capture64 : (regAt F.TS_INCR_incr.off).map (fun x => (x.1.is64, x.2.2)) = some (true, false)
    ∧ (go (.lowerSlotRead .pf (BitVec.ofNat 22 (F.TS_INCR_incr.off / 4))) (ready 0)).rdata = 7069905013992 % 2 ^ 32
    ∧ (go (.lowerSlotRead .pf (BitVec.ofNat 22 (F.TS_INCR_incr.off / 4 + 1)))
        (go (.lowerSlotRead .pf (BitVec.ofNat 22 (F.TS_INCR_incr.off / 4))) (ready 0))).rdata = 7069905013992 / 2 ^ 32
    ∧ (go (.managementRead 0x123456) (ready 0)).rdata = 0 := by decide +kernel

theorem wit_regCommands : (ready 0).pcieBoot = false ∧ (go (.registerWrite .pf (BitVec.ofNat 22 (F.GLB_MODE_mode.off / 4)) 5) (ready 0)).rd F.GLB_MODE_mode 0 = 5 := by
  decide +kernel

/-- PM_CTRL is a plain register of the PM block. -/
theorem wit_regPm : (ready 0).owns .pf = true ∧ blockAt F.PM_CTRL_window_us.off = some 13 ∧ (ready 0).regAbsent F.PM_CTRL_window_us.off = false
    ∧ (ready 0).pw.blk = [] ∧ F.PM_CTRL_window_us.off ≠ F.PM_BEAD_CFG_event.off
    ∧ (go (.registerWrite .pf (BitVec.ofNat 22 (F.PM_CTRL_window_us.off / 4)) 250) (ready 0)).rd F.PM_CTRL_window_us = 250 := by decide +kernel

theorem wit_commit : (ready 0).Powered ∧ (ready 0).Owner .pf ∧ (ready 0).AllUp ∧ (ready 0).feat 12 = false
    ∧ (go (.pcProgCommit .pf 1) ((ready 0).stage .parse)).gen .parse = { cur := 1, ret := some 0, status := 0, at_ := (ready 0).ts.run }
    ∧ (go (.clRuleCommit .pf 1) (((ready 0).setGen .rules { cur := 15, staged := true }))).gen .rules
      = { cur := 0, ret := some 15, status := 0, at_ := (ready 0).ts.run }
    ∧ ((go (.geProgCommit .pf 1) ((ready 0).setGen .grant { ret := some 3, staged := true })).gen .grant).status = 1
    ∧ ((go (.qsGateCommit .pf 1) (ready 0)).gen .gates).status = 2
    ∧ Committed 0 ((ready 0).gen .shapers) ((go (.qsShapeCommit .pf 1) (ready 0)).gen .shapers) := by decide +kernel

/-- Parse generation 3 retires; packet 8 still carries it, packet 9 came later. -/
def aged (run : Nat) : State := { (ready 0).setGen .parse { ret := some 3 } with
  ts := { run := run }
  pc := { work := [{ pkt := { pid := 8, src := 64, bytes := [1], pgen := 3, entered := 5 }, place := 64, carry := [], begun := true }] } }

theorem wit_retire : ((ready 0).setGen .gates { ret := some 3 }).carried .gates 3 = false
    ∧ (go (.generationRetired .gates) ((ready 0).setGen .gates { ret := some 3 })).gen .gates = {}
    ∧ (go (.generationRetired .gates) ((ready 0).setGen .gates { ret := some 3 })).Raised 6 0 0x3011 3
    ∧ (aged 0).carried .parse 3 = true ∧ go (.generationRetired .parse) (aged 0) = aged 0
    ∧ (aged 0).gen .parse = { ret := some 3 } ∧ go (.slowRetire .parse) (aged (10000000 * 2 ^ 40 - 1)) = aged (10000000 * 2 ^ 40 - 1)
    ∧ (go (.slowRetire .parse) (aged (10000000 * 2 ^ 40))).Raised 4 0 0x4021 64
    ∧ ((go (.slowRetire .parse) (aged (10000000 * 2 ^ 40))).gen .parse).slow = true
    ∧ (go (.slowRetire .gates) ((ready 0).setGen .gates { ret := some 3 })).gen .gates = { ret := some 3 } := by decide +kernel

/-! ### Downstream ports and upstream bursts -/

/-- Context 7 Operating on tree 5 with ONU-ID 42, both key slots given; slot 0 is active. -/
def keyed : State :=
  (put ((ready 0x3F).setCtx 7 { st := .operating, port := 5, onu := 42, sn := some 99 })
    [(F.TP_KEY_DATA0_key, 0x11, 5), (F.TP_KEY_DATA3_key, 0x22, 5), (F.TP_KEY_SFC_switch_sfc, 40, 5)]).setKeyCtx 7
      { slot0 := ⟨true, 1⟩, slot1 := ⟨true, 2⟩ }

theorem wit_keyHyps : keyed.Powered ∧ keyed.Owner .pf ∧ keyed.portDown 1 5 = false ∧ keyed.on F.TP_KEY_STATUS_busy 5 = false
    ∧ keyed.onTree 7 5 = true ∧ keyed.keyLive 7 true = false ∧ keyed.keyLive 7 false = true ∧ keyed.may .guide 1 = true
    ∧ (keyed.keyCtx 7).pend = none := by decide +kernel

theorem wit_keyWrite : ((go (.keyWrite .pf 5 false true 7) keyed).keyCtx 7).slot1 = ⟨true, 0x11 + 0x22 * 2 ^ 96⟩
    ∧ ((go (.keyInvalidate .pf 5 false true 7) keyed).keyCtx 7).slot1 = ⟨false, 0⟩
    ∧ (go (.keyWrite .pf 5 false false 7) keyed).rd F.TP_KEY_STATUS_result 5 = 3
    ∧ (go (.keyWrite .pf 5 false false 7) keyed).keys = keyed.keys
    ∧ ((go (.keyWrite .pf 5 true true 7) keyed).port 5).group1 = ⟨true, 0x11 + 0x22 * 2 ^ 96⟩
    ∧ (go (.keyWrite .pf 5 false true 7) keyed).rd F.TP_KEY_DATA0_key 5 = 0 := by decide +kernel

theorem wit_keySwitch : ((go (.keySwitch .pf 5 false true 7) keyed).keyCtx 7).pend.isSome = true
    ∧ (go (.keySwitch .pf 5 false false 7) keyed).rd F.TP_KEY_STATUS_result 5 = 7
    ∧ (go (.keySwitch .pf 5 false true 7) (keyed.setKeyCtx 7 { slot0 := ⟨true, 1⟩ })).rd F.TP_KEY_STATUS_result 5 = 4
    ∧ (go (.keySwitch .pf 5 false true 7) (go (.keySwitch .pf 5 false true 7) keyed)).rd F.TP_KEY_STATUS_result 5 = 5
    ∧ (go (.keyQuery .pf 5 false 7) keyed).rd F.TP_KEY_STATUS_result 5 = 0
    ∧ (go (.keySwitch .pf 5 true true 7) keyed).rd F.TP_KEY_STATUS_result 5 = 4
    ∧ go (.keySwitch .pf 5 true true 7) keyed = { keyed with rf := (go (.keySwitch .pf 5 true true 7) keyed).rf } := by decide +kernel

/-- key_grace 2 is 20 ms, 160 frames, from the frame of the switch, across the end of the frame count. -/
def gracing (frame : Nat) : State :=
  { keyed.setKeyCtx 7 { slot0 := ⟨true, 1⟩, slot1 := ⟨true, 2⟩, grace := some (true, 2 ^ 32 - 100) } with ts := { frame := frame } }
    |>.wr F.TP_CTRL_key_grace 2 5

theorem wit_keyGrace : ((go (.keyGraceExpire 7) (gracing 60)).keyCtx 7).grace = none
    ∧ go (.keyGraceExpire 7) (gracing 59) = gracing 59 ∧ (gracing 59).keyLive 7 true = true := by decide +kernel

/-- The frame of a switch: the one named where it is far enough, else the second after the command. -/
theorem wit_switchAt : ((go (.keySwitch .pf 5 false true 7) keyed).keyCtx 7).pend = some (5, true, 40)
    ∧ (go (.keySwitch .pf 5 false true 7) keyed).rd F.TP_KEY_ACTUAL_actual_sfc 5 = 40 := by decide +kernel

theorem wit_keyOthers : (running 0x83 .standby).may .pf 1 = false
    ∧ (go (.keyWrite .pf 5 false true 7) (running 0x83 .standby)).rd F.TP_KEY_STATUS_result 5 = 6
    ∧ go (.keyWrite (.vf 3) 5 false true 7) keyed = keyed
    ∧ (running 0x83 .standby).Powered ∧ (running 0x83 .standby).portDown 1 5 = false ∧ (running 0x83 .standby).pcieBoot = false
    ∧ (go (.keyInvalidate .pf 5 true true 7) (running 0x83 .standby)).rd F.TP_KEY_STATUS_result 5 = 6
    ∧ (go (.keySwitch .guide 5 true true 7) (running 0x83 .standby)).rd F.TP_KEY_STATUS_result 5 = 6 := by decide +kernel

/-- Bits 1 and 2 are taken with the port disabled; pair_en of an even port with its odd port disabled. -/
theorem wit_pair : (go (.tpCtrlWrite .pf 4 7) ((ready 2).setLane 4 { st := .up })).rd F.TP_CTRL_pair_en 4 = 1
    ∧ (go (.tpCtrlWrite .pf 4 7) ((ready 2).setLane 4 { st := .up })).rd F.TP_STATUS_en_status 4 = 1
    ∧ (go (.tpCtrlWrite .pf 4 5) (((ready 2).setLane 4 { st := .up }).wr F.TP_CTRL_ds_mode 1 5)).rd F.TP_CTRL_port_en 4 = 1
    ∧ (go (.tpCtrlWrite .pf 4 5) (((ready 2).setLane 4 { st := .up }).wr F.TP_CTRL_ds_mode 1 5)).rd F.TP_STATUS_en_status 4 = 0 := by
  decide +kernel

theorem wit_portEnable : (ready 1).feat 1 = false
    ∧ (go (.tpCtrlWrite .pf 5 1) (ready 1)).rd F.TP_STATUS_en_status 5 = 2
    ∧ (go (.tpCtrlWrite .pf 5 0x301) ((ready 1).setLane 5 { st := .up })).rd F.TP_CTRL_port_en 5 = 1
    ∧ (go (.tpCtrlWrite .pf 5 0x301) ((ready 1).setLane 5 { st := .up })).rd F.TP_CTRL_key_grace 5 = 3
    ∧ (go (.tpCtrlWrite .pf 5 0) ((ready 1).wr F.TP_CTRL_port_en 1 5)).rd F.TP_CTRL_port_en 5 = 0
    ∧ (go (.tpDefectTimer 5 0 true) (at_ microsecond (ready 1))).tpHas 5 0 = true
    ∧ go (.tpDefectTimer 5 0 true) (at_ (microsecond - 1) (ready 1)) = at_ (microsecond - 1) (ready 1)
    ∧ (go (.tpDefectTimer 5 0 true) (at_ microsecond (ready 1))).Raised 1 5 0x0100 0 := by decide +kernel

theorem wit_rxEnable : (ready 0).portDown 2 5 = false
    ∧ (go (.ubTreeCfgWrite .pf 5 1) (ready 0)).rd F.UB_TREE_STATUS_en_status 5 = 1
    ∧ (go (.ubTreeCfgWrite .pf 5 0x30001) ((ready 0).setLane 69 { st := .up })).rd F.UB_TREE_STATUS_en_status 5 = 3
    ∧ (go (.ubTreeCfgWrite .pf 5 1) ((ready 0).setLane 69 { st := .up })).rd F.UB_TREE_STATUS_en_status 5 = 2
    ∧ (go (.ubTreeCfgWrite .pf 5 1) ((ready 1).setLane 69 { st := .up })).rd F.UB_TREE_CFG_rx_en 5 = 1
    ∧ (ready 0).sharedOdd 5 = false
    ∧ (go (.ubTreeProfWrite .pf 5 0x02000000) (ready 0)).rd F.UB_TREE_PROF_delim_q 5 = 2 := by decide +kernel

/-- Tree 5 receives; its map in transmission holds one burst of context 7 at quantum 100. -/
def bursty : State :=
  let s := (put (running 0x3F .solo) [(F.UB_TREE_CFG_rx_en, 1, 5)]).setCtx 7 { st := .operating, port := 5, onu := 42 }
  let s := s.setAlloc 9 { valid := true, term := 7, allocId := 1100 }
  s.setRx 5 { hintq := List.replicate 3 (none, false) ++ [(some ⟨[⟨9, 100, 20, true, true, false, some 7, false, [], 1100, 100, 20, false⟩], [], []⟩, false)] }

def armed : State := go (.burstArm 5 100) bursty

/-- The same under dRXL. -/
def dark : State := bursty.wr F.UB_TREE_STATUS_defects 2 5

theorem wit_arm : bursty.Powered ∧ bursty.receiving 5 = true ∧ bursty.treeHas 5 1 = false ∧ (bursty.findBurst 5 100).isSome = true
    ∧ (bursty.winsOf 5 100 (bursty.armLead 5 5 false)).all (fun w => w.2.s + w.2.off != 100) = true
    ∧ ((armed.burst 5 100).map (fun b => (b.owner, b.port, b.structs.map (·.alloc), b.short, b.hdr))) = some (some 7, 5, [9], false, .none)
    ∧ ((armed.burst 5 100).map (·.expect)) = some (bursty.own16 5 5 100 + (bursty.ctx 7).c)
    ∧ armed = { bursty with ub := armed.ub, termRx := armed.termRx }
    ∧ (bursty.wr F.UB_TREE_STATUS_idle 1 5).awaits 5 = true ∧ dark.treeHas 5 1 = true
    ∧ ((go (.burstArm 5 100) dark).trx 7).miss = 1 ∧ (go (.burstArm 5 100) dark).burst 5 100 = none
    ∧ (go (.receiverWake 5) (bursty.wr F.UB_TREE_STATUS_idle 1 5)).rd F.UB_TREE_STATUS_idle 5 = 0 := by decide +kernel

def shaded : State := armed.setRx 5 { armed.rx 5 with armed := (armed.rx 5).armed.map (fun b => { b with shadow := true }) }

/-- The expected position of the burst's first data bit. -/
def exp5 : Int := ((shaded.burst 5 100).map (·.expect)).getD 0

/-- Boundary of the delimiter window: an offset of just delim_win, a delimiter with delim_err bits wrong; beyond either, none. The first
position in order counts whose header passes. -/
theorem wit_header : ((shaded.burst 5 100).map (fun b => (b.hdr, b.owner, b.freed, b.shadow))) = some (.none, some 7, false, true)
    ∧ shaded.delimWin 5 = 2048 ∧ (shaded.ctx 7).onu = 42
    ∧ ((go (.fsHeaderReceived 5 100 42 [⟨exp5 + 2048, 0, true⟩] 0 ⟨true, false⟩) shaded).burst 5 100).map (fun b => (b.hdr, b.ind)) = some (.good, true)
    ∧ ((go (.fsHeaderReceived 5 100 42 [⟨exp5 + 2048, 0, true⟩] 0 ⟨true, false⟩) shaded).trx 7).offset = 2048
    ∧ ((go (.fsHeaderReceived 5 100 42 [⟨exp5 - 3, 0, false⟩, ⟨exp5 - 2, 0, true⟩, ⟨exp5, 0, true⟩] 0 ⟨true, false⟩) shaded).trx 7).offset = -2
    ∧ ((go (.fsHeaderReceived 5 100 43 [⟨exp5, 0, true⟩] 0 ⟨true, false⟩) shaded).burst 5 100).map (·.hdr) = some .foreign
    ∧ ((go (.delimiterWindowClose 5 100) shaded).burst 5 100).map (·.hdr) = some .missing := by decide +kernel

theorem wit_noHeader : go (.fsHeaderReceived 5 100 42 [⟨exp5 + 2049, 0, true⟩] 0 ⟨true, false⟩) shaded = shaded
    ∧ go (.fsHeaderReceived 5 100 42 [⟨exp5, shaded.rd F.UB_TREE_CFG_delim_err 5 + 1, true⟩] 0 ⟨true, false⟩) shaded = shaded
    ∧ go (.fsHeaderReceived 5 100 42 [⟨exp5, 0, false⟩] 0 ⟨true, false⟩) shaded = shaded
    ∧ ((go (.delimiterWindowClose 5 100) armed).trx 7).miss = 1 ∧ ((go (.delimiterWindowClose 5 100) shaded).trx 7).miss = 0 := by decide +kernel

def good : State := go (.fsHeaderReceived 5 100 42 [⟨exp5, 0, true⟩] 0 ⟨true, false⟩) armed

theorem wit_report : ((good.burst 5 100).map (fun b => (b.hdr, b.owner, b.freed, b.shadow, b.cut))) = some (.good, some 7, false, false, [])
    ∧ ((go (.codewordRelease 5 100 100 ⟨0, 0, some 0, none, false, [.dbru true 500]⟩) good).alloc 9).occ = 500
    ∧ ((go (.codewordRelease 5 100 100 ⟨0, 0, some 0, none, false, [.dbru true 0xFFFFFF]⟩) good).alloc 9).occ = 0x3FFFF
    ∧ ((go (.codewordRelease 5 100 100 ⟨0, 0, some 0, none, false, [.dbru true 500]⟩)
        (good.setAlloc 9 { good.alloc 9 with seq := 63 })).alloc 9).seq = 0
    ∧ ((go (.codewordRelease 5 100 100 ⟨0, 0, some 0, none, false, [.dbru false 500]⟩)
        (good.setAlloc 9 { good.alloc 9 with reported := true })).alloc 9).crcSeen = true
    ∧ (good.burst 5 100).map (fun b => b.structs.map (·.freed)) = some [false]
    ∧ ((go (.codewordRelease 5 100 100 ⟨0, 0, some 0, none, false, [.trailer false]⟩) good).rx 5).integrity = 1
    ∧ (good.burst 5 100).map (fun b => (b.port, b.ind)) = some (5, true) ∧ good.sharedOdd 5 = false ∧ good.isStandby = false
    ∧ Out.ploamu 7 [1] ∈ (go (.ploamuReceived 5 100 true [1]) good).out ∧ go (.ploamuReceived 5 100 false [1]) good = good := by
  decide +kernel

def winBurst : State := bursty.setRx 5 { armed := [{ first := 100, port := 5, owner := none, win := none, short := false, structs := [] }] }

theorem wit_close : (winBurst.burst 5 100).map (·.owner) = some none
    ∧ (go (.burstClose 5 100 ⟨[], 0, 0, 0⟩) winBurst).burst 5 100 = none
    ∧ ({ (ready 0).setChain 3 (some ⟨5, 7, [1], 0, false⟩) with ts := { frame := 8000 } } : State).framesSince 0 = 8000
    ∧ max 1 ((ready 0).rd F.UB_THRESH_reasm_frames) ≤ 8000
    ∧ (go (.reassemblyTimeout 3) { (ready 0).setChain 3 (some ⟨5, 7, [1], 0, false⟩) with ts := { frame := 8000 } }).chain 3
      = some ⟨5, 7, [1], 0, true⟩
    ∧ bursty.lightExpected 5 500 = false ∧ bursty.lateLight 5 500 = false ∧ ((go (.unexpectedEnergy 5 500) bursty).rx 5).uxlNow = true
    ∧ (go (.unexpectedEnergy 5 500) bursty).rd F.GE_DISC_STATUS_uxl_q 5 = 0
    ∧ (go (.unexpectedEnergy 5 500) (bursty.wr F.UB_TREE_STATUS_defects 4 5)).rd F.GE_DISC_STATUS_uxl_q 5 = 500 := by decide +kernel

theorem wit_preset : keyed.feat 2 = true ∧ keyed.ageLimit < ({ keyed.setPreset 7 { st := .trained, last := some 0 } with ts := { run := 2 ^ 80 } } : State).presetAge 7
    ∧ ((go (.presetAgeOut 7) { keyed.setPreset 7 { st := .trained, last := some 0 } with ts := { run := 2 ^ 80 } }).preset 7).st = .training
    ∧ ((go (.presetDrop .pf 7) (keyed.setPreset 7 { st := .trained })).preset 7).st = .training
    ∧ (go (.presetDrop .pf 7) (keyed.setPreset 7 { st := .trained })).Raised 2 5 0x0A00 (7 + 2 * 2 ^ 30)
    ∧ (go (.presetQuery .pf 8) keyed).rd F.UB_TERM_STATUS_result 0 = 2
    ∧ keyed.Powered ∧ keyed.Owner .pf ∧ keyed.on F.UB_TERM_STATUS_busy 0 = false ∧ (keyed.ctx 7).st ≠ .free
    ∧ (keyed.wr F.UB_TREE_CFG_rx_en 1 5).laneUp 69 = false ∧ keyed.portDown 2 5 = false
    ∧ (go (.ubDefectTimer (.tree 5 1) true) (at_ microsecond (keyed.wr F.UB_TREE_CFG_rx_en 1 5))).treeHas 5 1 = true := by decide +kernel

theorem wit_ubDefect : (put (ready 0) [(F.UB_TREE_CFG_rx_en, 1, 5)]).laneUp 69 = false
    ∧ (go (.ubDefectTimer (.tree 5 1) true) (at_ microsecond (put (ready 0) [(F.UB_TREE_CFG_rx_en, 1, 5)]))).treeHas 5 1 = true := by decide +kernel

/-! ### Activation and ranging -/

/-- The pool gives tree 5 ten contexts; the command names context 7 and port 5. -/
def pool : State := put (ready 0x3C) [(F.GE_POOL_TREE_limit, 10, 5), (F.GE_POOL_TREE_reserve, 10, 5), (F.GE_CTX_ARG_term, 7, 0),
  (F.GE_CTX_ARG_port, 5, 0), (F.GE_CTX_ARG_onu_id, 1022, 0), (F.GE_CTX_TENANT_tenant, 3, 0), (F.GE_CTX_SN_vssn, 77, 0)]

theorem wit_allocate : pool.Powered ∧ pool.Owner .pf ∧ pool.on F.GE_CTX_STATUS_busy = false ∧ (pool.onTreeList 5).length < 10
    ∧ lowestFrom 0 pool.taken = 0 ∧ pool.onuTaken 5 1022 = false ∧ pool.anyOnu 5 = some 0
    ∧ (go (.contextAllocate .pf false) pool).ctx 0 = { st := .allocated, port := 5, onu := 1022, tenant := 3 }
    ∧ (go (.contextAllocate .pf true) pool).ctx 0 = { st := .allocated, port := 5, onu := 0, tenant := 3 }
    ∧ (go (.contextQuery .pf) pool).rd F.GE_CTX_STATUS_result = 0 ∧ pool.AllUp
    ∧ go (.contextAllocate .pf false) (pool.wr F.GE_POOL_TREE_limit 0 5)
      = (pool.wr F.GE_POOL_TREE_limit 0 5).wr F.GE_CTX_STATUS_result 3 := by decide +kernel

/-- Context 7 in a state. -/
def inState (x : ActSt) : State := pool.setCtx 7 { st := x, port := 5, onu := 42, sn := some 99 }

theorem wit_contextMoves : ((go (.contextBind .pf) (inState .allocated)).ctx 7).st = .waiting
    ∧ ((go (.contextBind .pf) (inState .allocated)).ctx 7).sn = some 77
    ∧ ((go (.contextDisable .pf) (inState .operating)).ctx 7).st = .disabled
    ∧ ((go (.contextDisable .pf) (inState .operating)).ctx 7).due = [.disable 99, .disable 99, .disable 99]
    ∧ ((go (.contextEnable .pf) (inState .disabled)).ctx 7).st = .waiting
    ∧ ((go (.activateNow .pf) (inState .waiting)).ctx 7).st = .assigned
    ∧ ((go (.activateNow .pf) (inState .waiting)).port 5).ploam = [.assignOnuId 42 99]
    ∧ ((go (.contextFree .pf) (inState .allocated)).ctx 7).st = .free
    ∧ ((go (.contextFree .pf) (inState .operating)).ctx 7).st = .leaving
    ∧ (go (.contextBind .pf) (inState .free)).rd F.GE_CTX_STATUS_result = 5
    ∧ (go (.contextFree .pf) (inState .leaving)).rd F.GE_CTX_STATUS_result = 8 := by decide +kernel

/-- Port 5's receiver searches a window. -/
def searchWin (w : MapWin) (s : State) : State :=
  s.setRx 5 { armed := [{ first := 1100, port := 5, owner := none, win := some w, short := false, structs := [] }] }

/-- Tree 5 in RUN, discovery enabled, with a discovery window whose burst is armed. -/
def searching : State :=
  searchWin ⟨0, 1, 1000, 4000, 100, 500, none, 0⟩ (put { inState .waiting with glb := { dev := .run, modeIn := true } }
    [(F.GE_DISC_CFG_disc_en, 1, 5), (F.GE_DISC_CFG_dir_en, 1, 5), (F.GE_DISC_DIST_rtd_min, 10, 5), (F.GE_DISC_DIST_teq, 250, 5),
    (F.UB_TREE_CFG_rx_en, 1, 5)])

theorem wit_found : searching.Powered ∧ searching.feat 1 = false ∧ (searching.discWin 5 1200).isSome = true ∧ searching.boundTo 12345 = none
    ∧ (((go (.serialNumberOnu 5 12345 1200) searching).actTree 5).found).map (fun e => (e.sn, e.dup)) = [(12345, false)]
    ∧ searching.boundTo 99 = some 7 ∧ searching.isStandby = false ∧ searching.treeNo 5 = 5
    ∧ searching.pr.registry.find? (fun e => e.2 == 12345) = none ∧ searching.onTree 7 5 = true
    ∧ ((searching.discWin 5 1200).map (·.2)).map (searching.xBounds 5 1200) = ((go (.serialNumberOnu 5 99 1200) searching).ctx 7).x
    ∧ ((go (.serialNumberOnu 5 99 1200) searching).ctx 7).st = .assigned := by decide +kernel

def foundOnes (run : Nat) : State :=
  { searching.setActTree 5 { found := [⟨77, 3, 4, true, 0⟩, ⟨78, 3, 4, true, 0⟩, ⟨77, 1, 2, false, 1⟩] } with ts := { run := run } }

/-- An entry goes 10 s after it came, and not before. -/
theorem wit_foundList : (go (.foundInfoRead .pf 5) (foundOnes 0)).rdata = 2 ^ 31 + 2 ^ 30 + 4 * 2 ^ 15 + 3
    ∧ ((go (.foundInfoRead .pf 5) (foundOnes 0)).actTree 5).taken = some ⟨77, 3, 4, true, 0⟩
    ∧ (go (.foundInfoRead .pf 5) (foundOnes 0)).rd F.GE_FOUND_SN_vssn 5 = 77
    ∧ ((go (.foundEntryExpire 5 77) (foundOnes (10 * (10 ^ 9 * 2 ^ 40)))).actTree 5).found = [⟨78, 3, 4, true, 0⟩, ⟨77, 1, 2, false, 1⟩]
    ∧ ((go (.foundEntryExpire 5 77) (foundOnes (10 * (10 ^ 9 * 2 ^ 40) - 1))).actTree 5).found.length = 3 := by decide +kernel

theorem wit_attempts : ((go (.discoverySliceDue 5) searching).actTree 5).due = true
    ∧ ((go (.preAssignedDelaySend 5) searching).port 5).ploam = [.preAssignedDelay 240]
    ∧ searching.live = true ∧ (searching.actTree 5).dueAt = none ∧ (searching.actTree 5).padAt = none
    ∧ bit (searching.rd F.UB_TREE_STATUS_defects 5) 2 = false ∧ searching.treePorts 5 = [5]
    ∧ nextAfter none ((searching.onTreeList 5).filter (fun t => (searching.ctx t).st == .waiting)) = some 7
    ∧ ((go (.directedAttempt 5) searching).ctx 7).st = .assigned ∧ ((go (.directedAttempt 5) searching).actTree 5).lastTried = some 7
    ∧ (((List.range 64).filter (· != 6)).map (fun q => pool.rd F.GE_POOL_TREE_reserve q)).sum + 1023 ≤ 16384
    ∧ (go (.poolTreeWrite .pf 6 0x03FF03FF) pool).rd F.GE_POOL_TREE_reserve 6 = 1023
    ∧ (go (.poolTreeWrite .pf 6 0x03FF03FF) (State.each 16 (fun s i => s.wr F.GE_POOL_TREE_reserve 1023 (i + 20)) pool)).rd
        F.GE_POOL_TREE_reserve 6 = 0
    ∧ (go (.poolTreeWrite .pf 6 0x03FF03FF) (State.each 16 (fun s i => s.wr F.GE_POOL_TREE_reserve 1023 (i + 20)) pool)).Raised 3 6 0x1023 1023 := by
  decide +kernel

/-- Context 7 Assigned, its ranging window in the map in transmission. -/
def ranging : State :=
  searchWin ⟨0, 2, 1000, 4000, 0, 5000, some 7, 0⟩ (searching.setCtx 7 { st := .assigned, port := 5, onu := 42, sn := some 99 })

theorem wit_range : (ranging.rangeWin 5 (fun w => w.s * 1024)).map (fun e => (e.1.2, e.2)) = some (⟨0, 2, 1000, 4000, 0, 5000, some 7, 0⟩, 7) ∧ 0 + ranging.snQ 5 * 1024 ≤ 5000 * 1024
    ∧ ((go (.registration 5 42 0) ranging).ctx 7).measured = true
    ∧ ((go (.registration 5 42 0) ranging).ctx 7).eqd = (ranging.tenths16 5 250 : Int) - ranging.tenths16 5 10
    ∧ ((go (.registration 5 42 0) ranging).port 5).ploam.length = 1 := by decide +kernel

/-- Another ONU-ID, and a context that is measured already. -/
theorem wit_discarded : ((go (.registration 5 43 0) ranging).actTree 5).discarded = 1 ∧ ((go (.registration 5 43 0) ranging).ctx 7).measured = false
    ∧ ((go (.registration 5 42 (ranging.snQ 5 * 1024)) (go (.registration 5 42 0) ranging)).actTree 5).discarded = 1
    ∧ (go (.registration 5 43 0) ranging) = { ranging with act := (go (.registration 5 43 0) ranging).act, ub := (go (.registration 5 43 0) ranging).ub } := by decide +kernel

/-- The cycle of context 7, its last slice over T_eq after frame 0. -/
def cycling (cycles : Nat) : State :=
  { (ranging.setActTree 5 { ranging := some 7, rDone := some (0, 0) }).setCtx 7 { ranging.ctx 7 with cycles := cycles } with ts := { phase := 3888 } }

theorem wit_rangeEnd : ((go (.rangingCycleEnd 5) (cycling 0)).ctx 7).cycles = 1
    ∧ ((go (.rangingCycleEnd 5) (cycling 0)).actTree 5).ranging = some 7
    ∧ ((go (.rangingCycleEnd 5) (cycling 1)).ctx 7).st
      = .waiting
    ∧ ((go (.rangingCycleEnd 5) (cycling 1)).actTree 5).unanswered
      = 1 := by decide +kernel

/-- Context 7 in Operating with a correction of 3 bits asked for in frame 4; eqd_confirm is 2. -/
def correcting (frame : Nat) (again : Bool) : State :=
  { (ranging.setCtx 7 { st := .operating, port := 5, onu := 42, eqd := 160, corr := some 3, corrAt := 4, corrSent := again })
      |>.wr F.GE_ACT_CTRL_eqd_confirm 2 with ts := { frame := frame } }

theorem wit_confirm : ((go (.eqdConfirmTimeout 7) (correcting 6 false)).port 5).ploam.length = 1
    ∧ ((go (.eqdConfirmTimeout 7) (correcting 6 false)).ctx 7).corrAt = 6 ∧ go (.eqdConfirmTimeout 7) (correcting 5 false) = correcting 5 false
    ∧ ((go (.eqdConfirmTimeout 7) (correcting 6 true)).ctx 7).corr = none ∧ ((go (.eqdConfirmTimeout 7) (correcting 6 true)).ctx 7).eqd = 160
    ∧ (go (.eqdConfirmTimeout 7) (correcting 6 true)).Raised 3 5 0x1031 7 := by decide +kernel

theorem wit_confirmAgain : ((go (.eqdConfirmTimeout 7) (correcting 6 false)).port 5).ploam = [(correcting 6 false).rangingMsg 5 42 112] := by rfl

/-- Context 7 in Lost since 5; lost_t 3 is 300 ms. -/
def lostOne (run : Nat) : State :=
  { (ranging.setCtx 7 { st := .lost, port := 5, onu := 42, eqd := 160, since := 5 }).wr F.GE_ACT_CTRL_lost_t 3 with ts := { run := run } }

def leavingOne (frame : Nat) : State := { ranging.setCtx 7 { st := .leaving, port := 5, onu := 42, dueAt := 9 } with ts := { frame := frame } }

theorem wit_letGo : ((go (.lostTimeout 7) (lostOne (5 + 3 * (10 ^ 8 * 2 ^ 40)))).ctx 7).kept = some 160
    ∧ ((go (.lostTimeout 7) (lostOne (5 + 3 * (10 ^ 8 * 2 ^ 40)))).ctx 7).due = List.replicate 3 (.deactivate 42)
    ∧ go (.lostTimeout 7) (lostOne (4 + 3 * (10 ^ 8 * 2 ^ 40))) = lostOne (4 + 3 * (10 ^ 8 * 2 ^ 40))
    ∧ ((go (.leavingComplete 7) (leavingOne 10)).ctx 7).st = .free ∧ (5, 42, 8010) ∈ (go (.leavingComplete 7) (leavingOne 10)).onuHolds
    ∧ ((go (.leavingComplete 7) (leavingOne 9)).ctx 7).st = .leaving
    ∧ (go (.onuIdHoldExpire 5 42) { ranging with onuHolds := [(5, 42, 0), (5, 42, 1), (5, 43, 0)] }).onuHolds = [(5, 42, 1), (5, 43, 0)] := by
  decide +kernel

/-! ### Grant engines -/

/-- Tree 5 with gp_en = 1 and a one-word program at its entry 100, whose first instruction stands at 200. -/
def planned : State :=
  { put (running 0 .solo) [(F.GE_TREE_CFG_gp_en, 1, 5)] with
    ge := { entries := [(5, 100)], len := 300, bank0 := [(100, 200)] }, ts := { started := true, phase := 4860 } }

theorem wit_open : planned.Powered ∧ planned.noPitch 5 = false ∧ planned.engineOf 5 ≠ 0x1F ∧ planned.imageWord planned.ge.cur 100 = 200
    ∧ ((go (.pitchOpen 5) planned).tree 5).pitch.map (fun x => (x.pc, x.len, x.draft.frame, x.sealed)) = some (200, 300, 2, false)
    ∧ ((go (.pitchOpen 5) planned).tree 5).due.get none 2 = some 0
    ∧ (go (.pitchOpen 5) { planned with ge := { planned.ge with len := 100 } }).rd F.GE_TREE_FAULT_code 5 = 11
    ∧ ((go (.pitchOpen 5) { planned with ge := { planned.ge with len := 101 } }).tree 5).pitch.isSome = true := by decide +kernel

def pitched : State := go (.pitchOpen 5) planned
/-- Its pitch, sealed or not, when run has passed. -/
def ending (run : Nat) (sealed : Bool) (late : Bool := false) : State :=
  { pitched.setTree 5 { pitched.tree 5 with pitch := (pitched.tree 5).pitch.map (fun x => { x with sealed := sealed, late := late }) } with
    ts := { pitched.ts with run := run } }

/-- The deadline, 31.25 µs after the opening, and just before it. -/
theorem wit_deadline : ((pitched.tree 5).pitch.map (fun x => (x.deadline, x.ports, x.regs.length))) = some (31250 * 2 ^ 40, [5], 16)
    ∧ (pitched.tree 5).waits = false ∧ go (.pitchDeadline 5) (ending (31250 * 2 ^ 40 - 1) false) = ending (31250 * 2 ^ 40 - 1) false
    ∧ (go (.pitchDeadline 5) (ending (31250 * 2 ^ 40) false)).rd F.GE_TREE_STATUS_last_reason 5 = 1
    ∧ (go (.pitchDeadline 5) (ending (31250 * 2 ^ 40) false true)).rd F.GE_TREE_STATUS_last_reason 5 = 3
    ∧ ((go (.pitchDeadline 5) (ending (31250 * 2 ^ 40) false)).tree 5).pitch = none
    ∧ (go (.pitchDeadline 5) (ending (31250 * 2 ^ 40) true)).rd F.GE_TREE_STATUS_last_reason 5 = 0
    ∧ (go (.pitchDeadline 5) (ending (31250 * 2 ^ 40) true)).rd F.GE_TREE_STATUS_late_yields 5 = 1 := by decide +kernel

/-- A draft with two structures of context 7, one beyond the frame. -/
def drafted : State :=
  ((planned.setCtx 7 { st := .operating, port := 5, onu := 42 }).setAlloc 9 { valid := true, term := 7 }).setTree 5
    { draft := some { frame := 2, structs := [(9, 100, 20, 0, false, false), (9, 97190, 20, 0, false, false)] } }

theorem wit_build : ((go (.mapBuildComplete 5) drafted).tree 5).lastChk = 1
    ∧ (((go (.mapBuildComplete 5) drafted).port 5).maps.get none 2).map (fun m => m.structs.map (fun c => (c.alloc, c.start, c.len)))
      = some [(9, 100, 20)]
    ∧ (go .frameInstant (ready 0)).ts.started = true ∧ (go .frameInstant planned).ts.frame = 1 := by decide +kernel

theorem wit_engines : (put (ready 0) [(F.GE_ENG_STATUS_spare, 16, 0)]).fenced (.engine 16) = false
    ∧ (go (.bistPassComplete 16 true 0) (put (ready 0) [(F.GE_ENG_STATUS_spare, 16, 0)])).rd F.GE_ENG_BIST_last_fail = 0
    ∧ 1 < (put (ready 0) [(F.GE_ENG_STATUS_spare, 16, 0)]).threshold
    ∧ (go (.bistPassComplete 16 false 0) (put (ready 0) [(F.GE_ENG_STATUS_spare, 16, 0)])).ge.bistFailed = [16]
    ∧ ((go (.bistPassComplete 16 false 0) (put (ready 0) [(F.GE_ENG_STATUS_spare, 16, 0)])).tally (.engine 16)).total = 1
    ∧ (go (.bistPassComplete 16 false 0) { put (ready 0) [(F.GE_ENG_STATUS_spare, 16, 0)] with ge := { bistFailed := [16] } }).fenced (.engine 16) = true := by
  decide +kernel

def rotating : State := { put (ready 0) [(F.GE_ENG_STATUS_spare, 16, 0)] with
  ge := { rotAsked := some 0 }, ts := { frame := 1, started := true } }

theorem wit_rotate : (rotating.nextEngine 16).isSome = true ∧ (go .spareRotation rotating).ge.rotation.isSome = true
    ∧ (go .spareRotation rotating).ge.rotAsked = none
    ∧ (go .takeoverLoadComplete { ready 0 with ge := { takeover := [(3, 16)] } }).rd F.GE_QUAD_MAP_engine 3 = 16
    ∧ (go .takeoverLoadComplete { ready 0 with ge := { takeover := [(3, 16)] } }).Raised 3 16 0x2010 (3 * 2 ^ 16 + 16)
    ∧ (go (.engineRotate .pf) (put (ready 0) [(F.GE_ENG_STATUS_spare, 16, 0)])).ge.rotAsked.isSome = true
    ∧ (go (.engineRotate .pf) (put (ready 0) [(F.GE_ENG_STATUS_spare, 31, 0)])).rd F.GE_ENG_CMD_STATUS_result = 5
    ∧ (go .takeoverLoadComplete { ready 0 with ge := { takeover := [(3, 16)], idle := [9] } }).rd F.GE_ENG_STATUS_spare = 9
    ∧ (∀ i < 16, i ≠ 3 → (ready 0).rd F.GE_QUAD_MAP_engine i ≠ 0x1F)
    ∧ (∀ i < 4, ((ready 0).tree (3 * 4 + i)).waits = false) := by decide +kernel

def fencedEngine : State := { ready 0 with tal := Tab.set {} [] (Elem.engine 4).key { fenced := true } }

theorem wit_repair : (go (.engineRepair .pf 4) fencedEngine).ge.repair = some 4 ∧ (go (.engineRepair .pf 5) fencedEngine).rd F.GE_ENG_CMD_STATUS_result = 2
    ∧ (go (.engineRepairDone true) (go (.engineRepair .pf 4) fencedEngine)).fenced (.engine 4) = false
    ∧ (go (.engineRepairDone false) (go (.engineRepair .pf 4) fencedEngine)).rd F.GE_ENG_CMD_STATUS_result = 4
    ∧ (go (.engineQuery .pf 31) (ready 0)).rd F.GE_ENG_CMD_STATUS_eng = 31
    ∧ (go (.engineRepairDone true) (go (.engineRepair .pf 4) (fencedEngine.wr F.GE_ENG_STATUS_spare 31))).rd F.GE_ENG_STATUS_spare = 4
    ∧ (go (.engineRepairDone true) (go (.engineRepair .pf 4) (fencedEngine.wr F.GE_ENG_STATUS_spare 16))).ge.idle = [4] := by decide +kernel

theorem wit_images : (go (.geProgDataWrite .pf 0x7FFFF) (put (ready 0) [(F.GE_PROG_ADDR_addr, 16383, 0)])).imageWord true 16383 = 0x3FFFF
    ∧ (go (.geTableRead .pf 0 false 7) (inState .operating)).rd F.GE_TBL_STATUS_index = 7
    ∧ ((go (.geTableWrite .pf 0 false 7) (put (inState .operating) [(F.GE_TBL_DATA_word, 5, 2)])).ctx 7).prog0 = 5
    ∧ (go (.geTableRead .pf 5 true 7) (inState .operating)).rd F.GE_TBL_STATUS_result = 7
    ∧ (ready 0).freeAllocNo.isSome = true
    ∧ (go (.allocContextAllocate .pf 1 false) (put (inState .operating) [(F.GE_TBL_DATA_word, 7, 1), (F.GE_TBL_DATA_word, 1100, 0)])).rd
        F.GE_TBL_STATUS_result = 0
    ∧ (go (.allocContextFree .pf 1 false 9) drafted).rd F.GE_TBL_STATUS_result = 0
    ∧ ((go (.allocContextFree .pf 1 false 9) drafted).alloc 9).valid = false
    ∧ (go (.allocContextFree .pf 1 false 10) drafted).rd F.GE_TBL_STATUS_result = 5
    ∧ (go (.allocHoldExpire 9) { ready 0 with allocHolds := [(9, 1, 5, 0), (9, 1, 5, 1)] }).allocHolds = [(9, 1, 5, 1)]
    ∧ (go (.keepClear .pf 5) { ready 0 with ge := { keep := [(2560, 7), (3071, 8), (3072, 9)] } }).ge.keep = [(3072, 9)] := by decide +kernel

/-! ### Grant instructions -/

/-- Tree 5's pitch with these registers from 1 on, standing at the words ws. -/
def onWords (ws regs : List Nat) (f : Pitch → Pitch := id) : State :=
  let s := { pitched with ge := { pitched.ge with bank0 := ws.zipIdx.map (fun (e : Nat × Nat) => (200 + e.2, e.1)) } }
  let s := ((s.setCtx 7 { st := .operating, port := 5, onu := 42 }).setAlloc 9 { valid := true, term := 7, allocId := 1100, occ := 33 })
  s.setTree 5 { s.tree 5 with pitch := (pitched.tree 5).pitch.map (fun x => f { x with
    regs := (0 :: regs) ++ List.replicate (15 - regs.length) 0, allocs := s.allocs, ctxs := s.ctxs }) }

def pit (s : State) : Pitch := ((s.tree 5).pitch).getD
  { engine := 0, late := false, gen := 0, bank := false, len := 0, regs := [], pc := 0, scratch := 0, draft := {}, allocs := [],
    ctxs := [], pstates := [], lobis := [], mfs := [], ports := [], keep := [], opened := 0, deadline := 0 }

/-- Register 3, the flags Z N C V as digits, and the pc, after a command. -/
def res (c : Instr) (s : State) : List Nat :=
  let x := pit (go c s)
  [x.regs.getD 3 0, b2n x.z * 1000 + b2n x.n * 100 + b2n x.c * 10 + b2n x.v, x.pc]

theorem wit_stands : (onWords (gR 0x02 3 1 2) [5, 7]).Powered ∧ (pit (onWords (gR 0x02 3 1 2) [5, 7])).Formed
    ∧ (onWords (gR 0x02 3 1 2) [5, 7]).Stands 5 (gR 0x02 3 1 2) (pit (onWords (gR 0x02 3 1 2) [5, 7])) := by decide +kernel

/-- The worked corners of the sums: a carry to 0, a signed overflow, a borrow. Register 3 is the destination. -/
theorem test_add : res (.grantAdd 5 3 1 2) (onWords (gR 0x02 3 1 2) [0x3FFFF, 1]) = [0, 1010, 201]
    ∧ res (.grantAdd 5 3 1 2) (onWords (gR 0x02 3 1 2) [0x1FFFF, 1]) = [0x20000, 101, 201]
    ∧ res (.grantAdc 5 3 1 2) (onWords (gR 0x04 3 1 2) [0x3FFFF, 0] (fun x => { x with c := true })) = [0, 1010, 201]
    ∧ res (.grantAddq 5 3 1 15) (onWords (gR 0x15 3 1 15) [0]) = [0x3FFFF, 100, 201]
    ∧ res (.grantAddi 5 3 1 0x3FFFF) (onWords (gX 0x16 3 1 0x3FFFF) [1]) = [0, 1010, 202] := by decide +kernel

theorem test_sub : res (.grantSub 5 3 1 2) (onWords (gR 0x03 3 1 2) [0, 1]) = [0x3FFFF, 100, 201]
    ∧ res (.grantSub 5 3 1 2) (onWords (gR 0x03 3 1 2) [0x20000, 1]) = [0x1FFFF, 11, 201]
    ∧ res (.grantSbc 5 3 1 2) (onWords (gR 0x05 3 1 2) [5, 5]) = [0x3FFFF, 100, 201]
    ∧ res (.grantCmp 5 1 2) (onWords (gR 0x11 0 1 2) [5, 5]) = [0, 1010, 201]
    ∧ res (.grantCmpi 5 1 6) (onWords (gX 0x1B 0 1 6) [5]) = [0, 100, 202]
    ∧ res (.grantNop 5) (onWords (gR 0x01 0 0 0) []) = [0, 0, 201] := by decide +kernel

theorem test_mul : res (.grantMul 5 3 1 2) (onWords (gR 0x0C 3 1 2) [0x3FFFF, 2]) = [0x3FFFE, 100, 201]
    ∧ res (.grantMulh 5 3 1 2) (onWords (gR 0x0D 3 1 2) [0x3FFFF, 2]) = [1, 0, 201]
    ∧ res (.grantDivu 5 3 1 2) (onWords (gR 0x0E 3 1 2) [7, 0]) = [0x3FFFF, 101, 201]
    ∧ res (.grantDivu 5 3 1 2) (onWords (gR 0x0E 3 1 2) [7, 2]) = [3, 0, 201]
    ∧ res (.grantMinu 5 3 1 2) (onWords (gR 0x0F 3 1 2) [7, 2]) = [2, 0, 201]
    ∧ res (.grantMaxu 5 3 1 2) (onWords (gR 0x10 3 1 2) [7, 2]) = [7, 0, 201] := by decide +kernel

theorem test_logic : res (.grantAnd 5 3 1 2) (onWords (gR 0x06 3 1 2) [6, 3]) = [2, 0, 201]
    ∧ res (.grantOr 5 3 1 2) (onWords (gR 0x07 3 1 2) [6, 3]) = [7, 0, 201]
    ∧ res (.grantXor 5 3 1 2) (onWords (gR 0x08 3 1 2) [6, 6]) = [0, 1000, 201]
    ∧ res (.grantAndi 5 3 1 3) (onWords (gX 0x17 3 1 3) [6]) = [2, 0, 202]
    ∧ res (.grantOri 5 3 1 0x20000) (onWords (gX 0x18 3 1 0x20000) [6]) = [0x20006, 100, 202]
    ∧ res (.grantXori 5 3 1 6) (onWords (gX 0x19 3 1 6) [6]) = [0, 1000, 202]
    ∧ res (.grantLdi 5 3 9) (onWords (gX 0x1A 3 0 9) []) = [9, 0, 202] := by decide +kernel

/-- Shifts by 18, 19 and 31, and by 0, which keeps C. -/
theorem test_shifts : res (.grantShl 5 3 1 2) (onWords (gR 0x09 3 1 2) [1, 18]) = [0, 1010, 201]
    ∧ res (.grantShl 5 3 1 2) (onWords (gR 0x09 3 1 2) [1, 0] (fun x => { x with c := true })) = [1, 10, 201]
    ∧ res (.grantShr 5 3 1 2) (onWords (gR 0x0A 3 1 2) [0x20000, 18]) = [0, 1010, 201]
    ∧ res (.grantSra 5 3 1 2) (onWords (gR 0x0B 3 1 2) [0x20000, 31]) = [0x3FFFF, 110, 201]
    ∧ res (.grantShlq 5 3 1 15) (onWords (gR 0x12 3 1 15) [8]) = [0, 1010, 201]
    ∧ res (.grantShrq 5 3 1 1) (onWords (gR 0x13 3 1 1) [3]) = [1, 10, 201]
    ∧ res (.grantSraq 5 3 1 1) (onWords (gR 0x14 3 1 1) [0x3FFFE]) = [0x3FFFF, 100, 201] := by decide +kernel

/-- 97,200 quanta a frame. -/
theorem test_time : (pit (onWords [] [])).qpf = 97200
    ∧ res (.grantQadd 5 3 1 2) (onWords (gR 0x1C 3 1 2) [97199, 1]) = [0, 1010, 201]
    ∧ res (.grantQsub 5 3 1 2) (onWords (gR 0x1D 3 1 2) [0, 1]) = [97199, 10, 201]
    ∧ res (.grantQsub 5 3 1 2) (onWords (gR 0x1D 3 1 2) [1, 1]) = [0, 1000, 201]
    ∧ res (.grantNsq 5 3 1) (onWords (gR 0x1E 3 1 0) [125000]) = [97200, 0, 201]
    ∧ res (.grantQns 5 3 1) (onWords (gR 0x1F 3 1 0) [0x3FFFF]) = [0x3FFFF, 101, 201] := by decide +kernel

theorem test_store : (pit (go (.grantSt 5 3 1 5) (onWords (gX 0x21 3 1 5) [4090, 0, 77]))).ds.get none 4095 = some 77
    ∧ res (.grantLd 5 3 1 5 none) (onWords (gX 0x20 3 1 5) [4090] (fun x => { x with ds := [(4095, some 77)] })) = [77, 0, 202]
    ∧ (pit (go (.grantStx 5 3 1 2) (onWords (gR 0x23 3 1 2) [4, 5, 78]))).ds.get none 9 = some 78
    ∧ res (.grantLdx 5 3 1 2 none) (onWords (gR 0x22 3 1 2) [4, 5] (fun x => { x with ds := [(9, some 79)] })) = [79, 0, 201]
    ∧ (onWords (gX 0x20 3 1 6) [4090]).Faulted (go (.grantLd 5 3 1 6 none) (onWords (gX 0x20 3 1 6) [4090])) 5 2 200 := by decide +kernel

/-- R170, R340: an uncorrectable row of the data store fences the engine, and the pitch ends with it. -/
theorem test_load_fences : (go (.grantLd 5 3 1 5 (some ⟨0, 3, [1, 2, 3]⟩)) (onWords (gX 0x20 3 1 5) [4090])).fenced
      (.engine (pit (onWords (gX 0x20 3 1 5) [4090])).engine) = true
    ∧ ((go (.grantLd 5 3 1 5 (some ⟨0, 3, [1, 2, 3]⟩)) (onWords (gX 0x20 3 1 5) [4090])).tree 5).pitch = none
    ∧ (go (.grantLdx 5 3 1 2 (some ⟨0, 3, [1, 2, 3]⟩)) (onWords (gR 0x22 3 1 2) [4, 5])).fenced
      (.engine (pit (onWords (gR 0x22 3 1 2) [4, 5])).engine) = true
    ∧ go (.grantLd 5 3 1 5 (some ⟨0, 3, [1]⟩)) { onWords (gX 0x20 3 1 5) [4090] with bm := { copying := [rowNo 3 0 3] } }
      = { onWords (gX 0x20 3 1 5) [4090] with bm := { copying := [rowNo 3 0 3] } }
    ∧ res (.grantLd 5 3 1 5 (some ⟨0, 3, [1]⟩)) (onWords (gX 0x20 3 1 5) [4090] (fun x => { x with ds := [(4095, some 77)] }))
      = [77, 0, 202] := by decide +kernel

theorem test_tables : (pit (onWords [] [7, 9])).termRowOf 7 = .tree
    ∧ (pit (onWords [] [7, 9])).allocRowOf 9 = .tree
    ∧ (pit (onWords [] [7, 9])).termRowOf 8 = .none
    ∧ (res (.grantTrm 5 3 1 0) (onWords (gR 0x24 3 1 0) [7])).headD 0 = 3 * 2 ^ 15 + 42
    ∧ (res (.grantAlc 5 3 1 0) (onWords (gR 0x25 3 1 0) [9])).headD 0 = 2 ^ 17 + 1100
    ∧ (res (.grantAlc 5 3 1 1) (onWords (gR 0x25 3 1 1) [9])).headD 0 = 7
    ∧ (res (.grantRpt 5 3 1 0) (onWords (gR 0x26 3 1 0) [9])).headD 0 = 33
    ∧ (res (.grantHst 5 3 1 15) (onWords (gR 0x27 3 1 15) [9])).headD 0 = 0
    ∧ (res (.grantTrm 5 3 1 0) (onWords (gR 0x24 3 1 0) [8])).headD 0 = 0
    ∧ ((pit (go (.grantTwt 5 3 1 2) (onWords (gR 0x2B 3 1 2) [7, 0, 55]))).wbuf.map (fun w => (w.row, w.word, w.val))) = [(7, 2, 55)]
    ∧ ((pit (go (.grantAwt 5 3 1 7) (onWords (gR 0x2C 3 1 7) [9, 0, 55]))).wbuf.map (fun w => (w.row, w.word, w.val))) = [(9, 7, 55)] := by
  decide +kernel

/-- The sums of the history need feature bit 5; this device has it. -/
def withHist (ws regs : List Nat) : State :=
  put (onWords ws regs (fun x => { x with allocs := [(9, { valid := true, term := 7, histValid := true, hist := [(5, 6), (7, 9)] })] }))
    [(F.GLB_FEAT_ACCEPT_accept, 0x3F, 0), (F.GLB_FEAT_LOCK_lock, 1, 0)]

theorem test_history : (withHist [] []).feat 5 = true
    ∧ (res (.grantHsum 5 3 1 1) (withHist (gR 0x28 3 1 1) [9])).headD 0 = 15 ∧ (res (.grantHpeak 5 3 1 1) (withHist (gR 0x29 3 1 1) [9])).headD 0 = 9
    ∧ (res (.grantHrsum 5 3 1 0) (withHist (gR 0x2A 3 1 0) [9])).headD 0 = 5 := by decide +kernel

/-- The row of another tree faults with 3. -/
theorem test_otherTree : (onWords (gR 0x24 3 1 0) [7] (fun x => { x with ctxs := [(7, { st := .operating, port := 9 })] })).Faulted
    (go (.grantTrm 5 3 1 0) (onWords (gR 0x24 3 1 0) [7] (fun x => { x with ctxs := [(7, { st := .operating, port := 9 })] }))) 5 3 200 := by
  decide +kernel

theorem test_sweep : (pit (go (.grantSweep 5 3 1 0) (onWords (gR 0x2D 3 1 0) [7]))).sweep = some (0, 7, 0)
    ∧ (res (.grantNext 5 3) (onWords (gR 0x2E 3 0 0) [] (fun x => { x with sweep := some (0, 7, 0) }))).headD 0 = 9
    ∧ (res (.grantNext 5 3) (onWords (gR 0x2E 3 0 0) [] (fun x => { x with sweep := some (0, 7, 1) }))).headD 0 = 0x3FFFF
    ∧ (onWords (gR 0x2E 3 0 0) []).Faulted (go (.grantNext 5 3) (onWords (gR 0x2E 3 0 0) [])) 5 10 200 := by decide +kernel

def mapped (ws regs : List Nat) (f : Pitch → Pitch := id) : State :=
  put (onWords ws regs f) [(F.GLB_FEAT_ACCEPT_accept, 0x3C, 0), (F.GLB_FEAT_LOCK_lock, 1, 0)]

theorem test_emit : (mapped [] []).feat 4 = true ∧ (mapped [] []).feat 1 = false
    ∧ (pit (go (.grantEmit 5 3 1 2) (mapped (gR 0x30 3 1 2) [100, 20, 9]))).draft.structs = [(9, 100, 20, 0, false, false)] := by decide +kernel

theorem test_gate : (pit (go (.grantGate 5 3 1 2) (mapped (gR 0x31 3 1 2) [100, 20, 9]))).draft.structs = [(9, 100, 20, 0, true, false)]
    ∧ (pit (go (.grantEmit 5 3 1 2) (mapped (gR 0x30 3 1 2) [100, 0, 9]))).z = true
    ∧ (pit (go (.grantRecall 5 1 2) (mapped (gR 0x32 0 1 2) [7]))).draft.recalls = [(7, 2)] := by decide +kernel

theorem test_windows : (pit (go (.grantDdesc 5 3 3) (mapped (gR 0x33 3 0 3) []))).z = true
    ∧ (pit (go (.grantWin 5 1 0) (mapped (gR 0x34 0 1 0) [500] (fun x => { x with draft := { x.draft with descs := [{ kind := 1 }] } })))).draft.wins = [(0, 500)]
    ∧ (pit (go (.grantCal 5 1 2) (mapped (gR 0x35 0 1 2) [50, 60]))).draft.cals = [(50, 60)]
    ∧ (pit (go (.grantCal 5 1 2) (mapped (gR 0x35 0 1 2) [50, 60] (fun x => { x with draft := { x.draft with cals := List.replicate 4 (1, 1) } })))).v = true
    ∧ (pit (go (.grantOvh 5 3 1 1) (mapped (gR 0x2F 3 1 1) [7]))).pc = 201 := by decide +kernel

theorem test_full : (pit (go (.grantEmit 5 3 1 2) (mapped (gR 0x30 3 1 2) [100, 20, 9] (fun x => { x with draft := { x.draft with structs := List.replicate 1024 (9, 0, 1, 0, false, false) } })))).v = true := by decide +kernel

theorem test_seal : ((go (.grantSeal 5) (onWords (gR 0x36 0 0 0) [])).tree 5).draft = some (pit (onWords [] [])).draft
    ∧ (go (.grantYield 5) (onWords (gR 0x37 0 0 0) [] (fun x => { x with sealed := true }))).rd F.GE_TREE_STATUS_last_reason 5 = 0
    ∧ (onWords (gR 0x37 0 0 0) []).Faulted (go (.grantYield 5) (onWords (gR 0x37 0 0 0) [])) 5 7 200
    ∧ (go (.grantSeal 5) (onWords (gR 0x36 0 0 0) [] (fun x => { x with sealed := true }))).rd F.GE_TREE_FAULT_code 5 = 6
    ∧ (onWords [0, 0] []).ts.run < (pit (onWords [0, 0] [])).deadline
    ∧ (pit (onWords [0, 0] [] (fun x => { x with deadline := 0 }))).deadline ≤ (onWords [0, 0] []).ts.run
    ∧ (onWords [0, 0] []).Faulted (go (.grantIllegalInstruction 5) (onWords [0, 0] [])) 5 1 200 := by decide +kernel

theorem test_branches : (pit (go (.grantBrs 5 0 0xFF) (onWords (gB 0x39 0 0xFF) []))).pc = 200
    ∧ (pit (go (.grantBrs 5 1 0x10) (onWords (gB 0x39 1 0x10) []))).pc = 201
    ∧ (pit (go (.grantBr 5 0 299) (onWords (gL 0x3A 0 299) []))).pc = 299
    ∧ (pit (go (.grantBr 5 1 299) (onWords (gL 0x3A 1 299) []))).pc = 202
    ∧ (pit (go (.grantCall 5 250) (onWords (gL 0x3B 0 250) []))).stack = [202]
    ∧ (pit (go (.grantRet 5) (onWords (gR 0x3C 0 0 0) [] (fun x => { x with stack := [210, 220] })))).stack = [220]
    ∧ (onWords (gR 0x3C 0 0 0) []).Faulted (go (.grantRet 5) (onWords (gR 0x3C 0 0 0) [])) 5 9 200
    ∧ (pit (go (.grantJr 5 1) (onWords (gR 0x3D 0 1 0) [299]))).pc = 299
    ∧ (pit (go (.grantMfs 5 3 0x11) (onWords (gS 0x38 3 0x11) []))).pc = 201
    ∧ res (.grantMfs 5 3 0x08) (onWords (gS 0x38 3 0x08) []) = [3125, 0, 201]
    ∧ (res (.grantMfs 5 3 0x0A) (onWords (gS 0x38 3 0x0A) [] (fun x => { x with draft := { x.draft with structs := [(9, 0, 1, 0, false, false)] } }))).headD 0 = 1
    ∧ (onWords (gB 0x39 0 0x80) [] (fun x => { x with pc := 100 })).imageWord false 100 = 0
    ∧ (onWords (gL 0x3B 0 250) []).Stands 5 (gL 0x3B 0 250) (pit (onWords (gL 0x3B 0 250) [])) := by decide +kernel

/-! ### Queues, buckets, gates -/

/-- The rates of profile 5 stand in the data words: rate 1, size 100. -/
def shaped : State := put (ready 0) [(F.QS_DATA_word, 1, 0), (F.QS_DATA_word, 0, 1), (F.QS_DATA_word, 9000, 2), (F.QS_DATA_word, 0, 3)]

theorem wit_qsTables : shaped.Powered ∧ shaped.Owner .pf ∧ shaped.blkDown 6 = false ∧ shaped.on F.QS_CMD_STATUS_busy = false
    ∧ (go (.qsRowRead .pf 9 0) shaped).rd F.QS_CMD_STATUS_result = 7
    ∧ (go (.qsRowWrite .pf 5 4096) shaped).rd F.QS_CMD_STATUS_result = 2
    ∧ qsInvalid 5 5 (shaped.qsWords 5) = false ∧ (shaped.gen .shapers).ret = none
    ∧ (go (.qsRowWrite .pf 5 5) shaped).qw 5 5 2 = 9000
    ∧ (go (.qsRowRead .pf 5 5) (go (.qsRowWrite .pf 5 5) shaped)).rd F.QS_DATA_word 2 = 9000
    ∧ ((go (.qsRowWrite .pf 5 5) shaped).gen .shapers).staged = true
    ∧ (go (.qsRowWrite .pf 5 0) shaped).rd F.QS_CMD_STATUS_result = 4 := by decide +kernel

theorem wit_qsRetiring : (go (.qsRowWrite .pf 5 5) { shaped with gens := Tab.set {} [] (objNo .shapers) { ret := some 1 } }).rd
      F.QS_CMD_STATUS_result = 8
    ∧ (go (.qsQueueStatus .pf 0 65535) shaped).rd F.QS_CMD_STATUS_result = 0
    ∧ (go (.qsFlush .pf 0 3) shaped).rd F.QS_CMD_STATUS_result = 0
    ∧ (go (.qsFlush .pf 0 3) { shaped with qs := { tab := [(rowKey 0 3 0, 2 ^ 17)] } }).rd F.QS_CMD_STATUS_result = 4 := by decide +kernel

/-- Queue 3 with profile 5: 2 ^ 24 a ns, 1,000 bytes, in debt by 5 bytes, last updated 7 ns ago. -/
def owing : State := { ready 0 with
  qs := { tab := [(rowKey 0 3 3, 5)], profiles := [(5, 2 ^ 48 + 1000)], buckets := [(nodeKey 4 3, { b := -5 * 2 ^ 24, last := 1, profile := 5, rate := 2 ^ 24, cbs := 1000 })] }
  ts := { run := 8 * 2 ^ 40 } }

theorem wit_bucket : owing.profileOf 4 3 = 5 ∧ owing.profileAt 5 = (2 ^ 24, 1000) ∧ owing.runNs = 8
    ∧ ((go (.bucketUpdate (.queue 3)) owing).bucket 4 3).b = 2 * 2 ^ 24 ∧ ((go (.bucketUpdate (.queue 3)) owing).bucket 4 3).last = 8 := by
  decide +kernel

def gated (g : Gate) : State := (ready 0).setGate 4 g

theorem wit_gates : ((go (.gateListStart 4) (gated { cur := { cycle := 100, entries := [(50, 1), (50, 0)] }, start := some (-3) })).gate 4).started = true
    ∧ (go (.gateListStart 4) (gated { cur := { cycle := 100 }, start := some (-3) })).rd F.QS_GATE_ACTUAL_start_ns 4 = 2 ^ 32 - 3
    ∧ ((go (.oldCycleEnd 4) (gated { old := some ({ cycle := 9 }, -20, -2) })).gate 4).old.isNone = true
    ∧ (gated {}).gate 4 = {} ∧ go (.gateListStart 4) (gated {}) = gated {} := by decide +kernel

/-- Open for 50 of 100 ns from instant 0: 20 ns into the cycle a packet of 30 ns fits and one of 31 does not. -/
theorem test_gateFits : ((gated { cur := { cycle := 100, entries := [(50, 1), (50, 0)] }, start := some 0, started := true }).gate 4).closes 0 4 20 = some 50
    ∧ (({ cycle := 100, entries := [(50, 1), (50, 0)] } : GList).longest 0) = some 50
    ∧ (({ cycle := 100, entries := [(30, 1), (40, 0), (30, 1)] } : GList).longest 0) = some 60 := by decide +kernel

/-- Uplink port 0 with a chain of nodes of row 1 over it, and a packet in queue 3. -/
def chain : State :=
  { put { running 0 .solo with lanes := (List.range 128).map (fun n => (n + 128, { st := .up, aligned := true })) } [] with
    qs := { tab := [(rowKey 0 3 0, 0), (rowKey 0 3 1, 1), (rowKey 1 1 0, 2 ^ 17 + 1), (rowKey 2 1 0, 2 ^ 17 + 1), (rowKey 3 1 0, 2 ^ 17 + 64)]
            queues := [(3, { chip := [{ pid := 1, src := 0, bytes := [1, 2, 3], cells := [] }] })] } }

theorem wit_pull : chain.egressOf 3 = some 64 ∧ (chain.settle 64).choose 64 = some 3 ∧ chain.pulling 64 = true ∧ Out.packet 64 [1, 2, 3] ∈ (go (.egressPull 64) chain).out
    ∧ ((chain.settle 64).queueAt 3).chip.map (·.pid) = [1] ∧ (chain.settle 64).cellsWait [] = false
    ∧ (chain.settle 64).chainBad { pid := 1, src := 0, bytes := [1, 2, 3], cells := [] } = false
    ∧ (chain.settle 64).poisoned { pid := 1, src := 0, bytes := [1, 2, 3], cells := [] } = false
    ∧ (ready 0).pulling 64 = false ∧ go (.egressPull 64) (ready 0) = ready 0 := by decide +kernel

def xgRow (enc : Nat) : Tab Nat := [(rowKey 3 9 0, 7 + enc * 2 ^ 14 + 2 ^ 17), (rowKey 3 9 2, 1025)]

/-- Tree port 5 builds a frame; the packet of queue 3 goes to XGEM port context 9, of terminal 7, Port-ID 1025, in clear, or under a
key of terminal 7 that is not valid. -/
def treePull (enc : Nat) : State :=
  let s := (running 0 .solo).setCtx 7 { st := .operating, port := 5, onu := 42 }
  { s.setPort 5 { framing := true, left := fsBytes false - 4 } with
    rows := xgRow enc
    qs := { chain.qs with tab := [(rowKey 0 3 0, 0), (rowKey 0 3 1, 1), (rowKey 1 1 0, 2 ^ 17 + 1), (rowKey 2 1 0, 2 ^ 17 + 1), (rowKey 3 1 0, 2 ^ 17 + 5)]
                          queues := [(3, { chip := [{ pid := 1, src := 64, bytes := [1, 2, 3], xgem := 9, cells := [] }] })] } }

theorem wit_treePull : (treePull 0).pulling 5 = true ∧ ((treePull 0).settle 5).choose 5 = some 3 ∧ (treePull 0).xgKey 5 9 = some 0
    ∧ ((go (.egressPull 5) (treePull 0)).port 5).body.map (fun f => (f.portId, f.keyIndex, f.at_, f.data, f.last)) = [(1025, 0, 0, [1, 2, 3], true)]
    ∧ (treePull 1).xgKey 5 9 = none ∧ (go (.egressPull 5) (treePull 1)).tpHas 5 2 = true ∧ ((go (.egressPull 5) (treePull 1)).port 5).body = [] := by
  decide +kernel

/-- The line has passed 100 quanta with nothing to send: idle frames fill the frame up to there. -/
theorem wit_idle : (let s := { (treePull 0).setPort 5 { framing := true, left := 8 } with qs := {} }
    s.pulling 5 = false ∧ go (.egressPull 5) s = s.fillIdle 5) := by decide +kernel

/-! ### Parse stage -/

/-- Packet 7, of these bytes, in a pass of program counter 10 with registers 0 on as given. -/
def passing (w : Nat) (regs : List Nat) (f : Pass → Pass := id) (more : List (Nat × Nat) := []) : State :=
  { running 0 .solo with pc := {
      bank0 := (10, w) :: more, cur := { len := 100, entries := [(64, 5)] }, pids := 8
      work := [{ pkt := { pid := 7, src := 64, bytes := [0x12, 0x34, 0x56, 0x78] }, place := 64, begun := true
                 run := some (f { core := 2, thread := 0, regs := (0 :: regs) ++ List.replicate (31 - regs.length) 0, pc := 10 }) }] } }

/-- The pass after a command, or one with no registers where it is over. -/
def pas (s : State) : Pass := ((s.work 7).bind (·.run)).getD { core := 0, thread := 0, regs := [], pc := 9999 }
def pres (c : Instr) (s : State) : List Nat :=
  let x := pas (go c s)
  [x.regs.getD 3 0, b2n x.z * 10000 + b2n x.n * 1000 + b2n x.c * 100 + b2n x.v * 10 + b2n x.x, x.pc, x.count]

theorem wit_ready : (passing (pR 0x02 3 1 2) [5, 7]).Powered ∧ (pas (passing (pR 0x02 3 1 2) [5, 7])).Formed
    ∧ ((passing (pR 0x02 3 1 2) [5, 7]).work 7).isSome = true ∧ illegalParse (pR 0x02 3 1 2) = false
    ∧ (passing (pR 0x02 3 1 2) [5, 7]).parseWord false 10 = pR 0x02 3 1 2 ∧ 64 ≤ (passing 0 []).passMax := by decide +kernel

theorem test_parseSums : pres (.parseAdd 7 3 1 2) (passing (pR 0x02 3 1 2) [0xFFFFFFFFF, 1]) = [0, 10100, 11, 1]
    ∧ pres (.parseAdd 7 3 1 2) (passing (pR 0x02 3 1 2) [0x7FFFFFFFF, 1]) = [0x800000000, 1010, 11, 1]
    ∧ pres (.parseSub 7 3 1 2) (passing (pR 0x03 3 1 2) [0, 1]) = [0xFFFFFFFFF, 1000, 11, 1]
    ∧ pres (.parseCmp 7 1 2) (passing (pR 0x0A 0 1 2) [5, 5]) = [0, 10100, 11, 1]
    ∧ pres (.parseAddi 7 3 1 0xFFFFF) (passing (pI 0x0E 3 1 0xFFFFF) [1]) = [0, 10100, 11, 1]
    ∧ pres (.parseCmpi 7 1 6) (passing (pI 0x12 0 1 6) [5]) = [0, 1000, 11, 1]
    ∧ pres (.parseMul 7 3 1 2) (passing (pR 0x0D 3 1 2) [0x800000001, 2]) = [2, 0, 11, 1]
    ∧ pres (.parseNop 7) (passing (pR 0x01 0 0 0) []) = [0, 0, 11, 1] := by decide +kernel

theorem test_parseLogic : pres (.parseAnd 7 3 1 2) (passing (pR 0x04 3 1 2) [6, 3]) = [2, 0, 11, 1]
    ∧ pres (.parseOr 7 3 1 2) (passing (pR 0x05 3 1 2) [6, 3]) = [7, 0, 11, 1]
    ∧ pres (.parseXor 7 3 1 2) (passing (pR 0x06 3 1 2) [6, 6]) = [0, 10000, 11, 1]
    ∧ pres (.parseMin 7 3 1 2) (passing (pR 0x0B 3 1 2) [6, 3]) = [3, 0, 11, 1]
    ∧ pres (.parseMax 7 3 1 2) (passing (pR 0x0C 3 1 2) [6, 3]) = [6, 0, 11, 1]
    ∧ pres (.parseAndi 7 3 1 0xFFFFF) (passing (pI 0x0F 3 1 0xFFFFF) [0xFFFFFFFFF]) = [0xFFFFF, 0, 11, 1]
    ∧ pres (.parseOri 7 3 1 8) (passing (pI 0x10 3 1 8) [7]) = [15, 0, 11, 1]
    ∧ pres (.parseXori 7 3 1 7) (passing (pI 0x11 3 1 7) [7]) = [0, 10000, 11, 1]
    ∧ pres (.parseLdi 7 3 0xFFFFF) (passing (pI 0x13 3 0 0xFFFFF) []) = [0xFFFFF, 0, 11, 1]
    ∧ pres (.parseLdu 7 3 0x8000) (passing (pI 0x14 3 0 0x8000) [0, 0, 5]) = [0x800000005, 1000, 11, 1] := by decide +kernel

/-- Amounts of 0, which keeps C, of 36 and of 63, and the bit moved out last. -/
theorem test_parseShifts : pres (.parseShl 7 3 1 2) (passing (pR 0x07 3 1 2) [3, 35]) = [0x800000000, 1100, 11, 1]
    ∧ pres (.parseShl 7 3 1 2) (passing (pR 0x07 3 1 2) [1, 63]) = [0, 10000, 11, 1]
    ∧ pres (.parseShl 7 3 1 2) (passing (pR 0x07 3 1 2) [1, 64] (fun x => { x with c := true })) = [1, 100, 11, 1]
    ∧ pres (.parseShr 7 3 1 2) (passing (pR 0x08 3 1 2) [0x800000000, 36]) = [0, 10100, 11, 1]
    ∧ pres (.parseSra 7 3 1 2) (passing (pR 0x09 3 1 2) [0x800000000, 63]) = [0xFFFFFFFFF, 1100, 11, 1]
    ∧ pres (.parseShli 7 3 1 35) (passing (pI 0x15 3 1 35) [3]) = [0x800000000, 1100, 11, 1]
    ∧ pres (.parseShri 7 3 1 1) (passing (pI 0x16 3 1 1) [3]) = [1, 100, 11, 1] := by decide +kernel

/-- The window's bytes are 12 34 56 78, most significant bit first. -/
theorem test_parseWindow : pres (.parseExt 7 3 1 4 7) (passing (pE 0x19 3 1 4 7) [1]) = [0x45, 0, 11, 1]
    ∧ pres (.parseExt 7 3 1 4 7) (passing (pE 0x19 3 1 4 7) [3]) = [0x80, 1, 11, 1]
    ∧ pres (.parseExt 7 3 1 0 7) (passing (pE 0x19 3 1 0 7) [3]) = [0x78, 0, 11, 1]
    ∧ (pas (go (.parseAdv 7 1 3) (passing (pI 0x1A 0 1 3) [1]))).cur = 4 ∧ (pas (go (.parseAdv 7 1 3) (passing (pI 0x1A 0 1 3) [1]))).x = false
    ∧ (pas (go (.parseAdv 7 1 4) (passing (pI 0x1A 0 1 4) [1]))).cur = 4 ∧ (pas (go (.parseAdv 7 1 4) (passing (pI 0x1A 0 1 4) [1]))).x = true
    ∧ pres (.parseMfs 7 3 0) (passing (pI 0x1B 3 0 0) [] (fun x => { x with cur := 9 })) = [9, 0, 11, 1]
    ∧ pres (.parseMfs 7 3 5) (passing (pI 0x1B 3 0 5) []) = [2, 0, 11, 1] := by decide +kernel

theorem test_parseFields : pres (.parseBfx 7 3 1 4 7) (passing (pE 0x17 3 1 4 7) [0x1230]) = [0x23, 0, 11, 1]
    ∧ pres (.parseBfi 7 3 1 4 7) (passing (pE 0x18 3 1 4 7) [0x345, 0, 0xFFFF]) = [0xF45F, 0, 11, 1]
    ∧ pres (.parseBfi 7 3 1 0 35) (passing (pE 0x18 3 1 0 35) [0x345, 0, 0xFFFF]) = [0x345, 0, 11, 1]
    ∧ illegalParse (pE 0x18 3 1 1 35) = true := by decide +kernel

/-- The check value of the CRC of R309 over nine digits, and the hash of a symmetric key with its halves exchanged. -/
theorem test_hash : crc32c [0x31, 0x32, 0x33, 0x34, 0x35, 0x36, 0x37, 0x38, 0x39] = 0xE3069283
    ∧ hashOf [3, 9] true = hashOf [9, 3] true ∧ hashOf [3, 9] false ≠ hashOf [9, 3] false := by decide +kernel

/-- Nothing found wrong in what a lookup reads. -/
def clean : LookRead := ⟨0, 0, [], []⟩

def tables : State := { passing (pK 0x1D 3 1 2 1 0) [5, 6] with rows := [(rowKey 2 2 0, 2 ^ 17 + 2 ^ 12), (rowKey 2 18 0, 2 ^ 17 + 2 ^ 12)] }

theorem wit_lookups : tables.descValid (descRow false 2) = true ∧ tables.descN (descRow false 2) = 2 ∧ tables.descValid (descRow true 2) = true
    ∧ (pas (go (.parseLkx 7 3 1 2 1) tables)).looks = [⟨3, 0, 2, [5, 6], []⟩]
    ∧ (pas (go (.parseLkx 7 3 1 3 1) (passing (pK 0x1D 3 1 3 1 0) [5, 6]))).looks = [⟨3, 2, 3, [5, 6], [2 ^ 33, 0, 0]⟩]
    ∧ (pas (go (.parseHsh 7 3 1 1 true) (passing (pK 0x1C 3 1 0 1 1) [5, 6]))).looks = [⟨3, 2, 0, [5, 6], [hashOf [5, 6] true]⟩]
    ∧ (pas (go (.lookupReply 7 0 clean) (passing 0 [] (fun x => { x with looks := [⟨3, 2, 0, [5, 6], [99]⟩] })))).regs.getD 3 0 = 99
    ∧ (pas (go (.lookupReply 7 0 clean) (passing 0 [] (fun x => { x with looks := [⟨3, 2, 0, [5, 6], [99]⟩] })))).looks = [] := by
  decide +kernel

/-- Four lookups out: a fifth waits. The table block down: status 2 at once, and to those that wait. -/
theorem wit_lookupLimits : go (.parseHsh 7 3 1 1 true) (passing (pK 0x1C 3 1 0 1 1) [5, 6] (fun x => { x with looks := List.replicate 4 ⟨20, 0, 0, [], []⟩ }))
      = passing (pK 0x1C 3 1 0 1 1) [5, 6] (fun x => { x with looks := List.replicate 4 ⟨20, 0, 0, [], []⟩ })
    ∧ (pas (go (.parseLkx 7 3 1 2 1) { tables with pw := { blk := [5] } })).looks = [⟨3, 2, 2, [5, 6], lookStatus 2⟩]
    ∧ (pas (go (.parseLkx 7 3 1 15 0) { tables with pc := (passing (pK 0x1D 3 1 15 0 0) [5, 6]).pc })).looks.map (fun l => (l.kind, l.tbl)) = [(2, 15)]
    ∧ (pas (go (.lookupReply 7 0 clean) { passing 0 [] (fun x => { x with looks := [⟨3, 0, 2, [5, 6], []⟩] }) with pw := { blk := [5] } })).rN 3
      = (lookStatus 2).headD 0
    ∧ (tables.rowWaits 5 1 0 = false) ∧ ({ tables with bm := { copying := [rowNo 5 1 0] } } : State).rowWaits 5 1 0 = true
    ∧ (pas (go (.lookupReply 7 0 ⟨1, 0, [], []⟩) { passing 0 [] (fun x => { x with looks := [⟨3, 0, 2, [5, 6], []⟩] }) with bm := { copying := [rowNo 5 1 0] } })).looks.length
      = 1 := by decide +kernel

/-- A register an outstanding lookup will write is waited for. -/
theorem test_waits : go (.parseAdd 7 3 1 2) (passing (pR 0x02 3 1 2) [5, 7] (fun x => { x with looks := [⟨2, 0, 0, [], []⟩] }))
    = passing (pR 0x02 3 1 2) [5, 7] (fun x => { x with looks := [⟨2, 0, 0, [], []⟩] }) := by decide +kernel

theorem wit_ternary : (pas (go (.parseLkt 7 3 1 2 1) { tables with pc := (passing (pK 0x1E 3 1 2 1 0) [5, 6]).pc })).looks = [⟨3, 1, 2, [5, 6], []⟩] := by
  decide +kernel

theorem test_parseBranches : (pas (go (.parseBr 7 0 99) (passing (pB 0x1F 0 99) []))).pc = 99
    ∧ (pas (go (.parseBr 7 1 99) (passing (pB 0x1F 1 99) []))).pc = 11
    ∧ (go (.parseBr 7 0 100) (passing (pB 0x1F 0 100) [])).ParseFaulted 7 5 10
    ∧ (pas (go (.parseCall 7 50) (passing (pB 0x20 0 50) []))).stack = [11]
    ∧ (go (.parseCall 7 100) (passing (pB 0x20 0 100) [])).ParseFaulted 7 5 10
    ∧ (go (.parseCall 7 50) (passing (pB 0x20 0 50) [] (fun x => { x with stack := [1, 2, 3, 4] }))).ParseFaulted 7 4 10
    ∧ (go (.parseRet 7) (passing (pR 0x21 0 0 0) [] (fun x => { x with stack := [100] }))).ParseFaulted 7 5 10
    ∧ (pas (go (.parseRet 7) (passing (pR 0x21 0 0 0) [] (fun x => { x with stack := [20, 30] })))).pc = 20 := by decide +kernel

/-- The verdict a packet carries. -/
def verdict (s : State) : Option Verdict := (s.work 7).bind (·.verdict)

/-- A pass dispatched at run count 5; hold_max 0 acts as 1 µs. -/
def holding (run : Nat) : State :=
  { (passing 0 [] (fun x => { x with at_ := 5 })).wr F.PC_CTRL_hold_max 0 with ts := { run := run } }

theorem test_verdicts : verdict (go (.parseEnq 7 1 2 1) (passing (pV 0x22 1 2 1) [65539, 131075])) = some (.enq 3 3 true)
    ∧ verdict (go (.parseDrp 7 9) (passing (pV 0x23 0 0 9) [])) = some (.drp 9)
    ∧ verdict (go (.parseRcv 7 1) (passing (pV 0x24 0 0 1) [])) = some (.rcv 1)
    ∧ verdict (go (.parseExc 7 16) (passing (pV 0x25 0 0 16) [])) = some (.exc 16 0 0)
    ∧ verdict (go (.parseRet 7) (passing (pR 0x21 0 0 0) [])) = some (.exc 0 4 10)
    ∧ verdict (go (.parseIllegalInstruction 7) (passing 0 [])) = some (.exc 0 1 10)
    ∧ verdict (go (.holdMaxTimeout 7) (holding (1000 * 2 ^ 40 + 6))) = some (.exc 0 3 10)
    ∧ go (.holdMaxTimeout 7) (holding (1000 * 2 ^ 40 + 5)) = holding (1000 * 2 ^ 40 + 5)
    ∧ illegalParse (pV 0x25 0 0 15) = true ∧ illegalParse 0 = true := by decide +kernel

/-- The pass over, with a verdict. -/
def judged (v : Option Verdict) : State := { passing 0 [] with pc := { (passing 0 []).pc with
  bank0 := [(1, 40)]
  work := (passing 0 []).pc.work.map (fun k => { k with run := none, verdict := v }) } }

theorem wit_parseCommit : (go (.verdictCommit 64) (judged (some (.drp 3)))).pc.work = []
    ∧ (judged none).entryAddr 0 1 = 40 ∧ (judged none).passLimit > 1
    ∧ ((go (.verdictCommit 64) (judged (some (.rcv 1)))).pc.work).map (fun k => (k.place, k.passNo, k.entry)) = [(99, 2, some 1)]
    ∧ go (.verdictCommit 64) (judged none) = judged none
    ∧ go (.parseEnq 7 1 2 1) (passing (pV 0x22 1 2 1) [] (fun x => { x with looks := [⟨9, 0, 0, [], []⟩] }))
      = passing (pV 0x22 1 2 1) [] (fun x => { x with looks := [⟨9, 0, 0, [], []⟩] }) := by decide +kernel

/-- Uplink port 0 up, an arrival of three bytes. -/
def arrival : Arrival := { bytes := [1, 2, 3], term := 0, xgem := 0, ring := 0 }

/-- The packet of a source 64 sent to queue 3 of the chain, which takes 8 cells. -/
def enqueuing : State := { judged (some (.enq 3 0 false)) with
  qs := { chain.qs with queues := [], tab := chain.qs.tab.set 0 (rowKey 0 3 0) (2 ^ 17) |>.set 0 (rowKey 0 3 6) 1 } }

theorem wit_enq : enqueuing.egressOf 3 = some 64 ∧ ((go (.verdictCommit 64) enqueuing).queueAt 3).chip.map (·.pid) = [7]
    ∧ (enqueuing.pc.work.map (fun k => enqueuing.enqReason k 3 0)) = [none] ∧ bit (enqueuing.qw 0 3 4) 16 = false
    ∧ (go (.verdictCommit 64) enqueuing).pc.work = [] ∧ (go (.verdictCommit 64) (judged (some (.exc 16 0 0)))).pc.work = []
    ∧ (enqueuing.pc.work.map enqueuing.verdictDown) = [false] ∧ enqueuing.cellsWait [] = false
    ∧ (go (.verdictCommit 64) { enqueuing with pw := { blk := [6] } }).pc.work.map (fun k => (k.held, k.refused)) = [(true, true)]
    ∧ (go (.verdictCommit 64) { enqueuing with
        pw := { blk := [6] }
        pc := { enqueuing.pc with work := enqueuing.pc.work.map (fun k => { k with refused := true, core := some 2 }) } }).pc.work = [] := by
  decide +kernel

theorem wit_arrival : chain.ulUp 0 = true ∧ chain.arrFloor ≤ chain.freeCells
    ∧ ((go (.packetArrival 64 arrival) chain).pc.work).map (fun k => (k.pkt.bytes.length, k.place)) = [(3, 64)]
    ∧ (go (.packetArrival 64 arrival) chain).pc.pids = 1
    ∧ ({ ready 0 with lanes := chain.lanes }).live = false
    ∧ go (.packetArrival 64 arrival) { ready 0 with lanes := chain.lanes } = { ready 0 with lanes := chain.lanes } := by decide +kernel

/-- A packet from tree 5's bursts, of terminal 7; one from ring 4, enabled by the physical function; a buffer with no free cell. -/
def delivering : State := (chain.setCtx 7 { st := .operating, port := 5, onu := 42, tenant := 3 }).setRx 5 { deliv := [⟨7, 9, [1, 2], false, 6⟩] }
def injecting : State := { chain with hd := { inject := [⟨4, [1, 2], 0, false⟩] } }

theorem wit_arrivals : ((go (.packetArrival 5 arrival) delivering).pc.work).map (fun k => (k.pkt.term, k.pkt.xgem, k.pkt.bound, k.pkt.src)) = [(7, 9, some 3, 5)]
    ∧ ((go (.packetArrival 5 arrival) delivering).rx 5).deliv = []
    ∧ ((go (.packetArrival 98 arrival) injecting).pc.work).map (fun k => (k.pkt.bytes, k.pkt.bound, k.pkt.src)) = [([1, 2], injecting.ringTenant 4, 98)]
    ∧ (go (.packetArrival 98 arrival) injecting).hd.inject = []
    ∧ (chain.wr F.BM_ADMIT_arr_floor 511).arrFloor ≤ chain.freeCells := by decide +kernel

def waitingPkt (e : Nat) : State := { passing 0 [] with pc := { (passing 0 []).pc with
  bank0 := [(5, e)], work := [{ pkt := { pid := 7, src := 64, bytes := [1, 2] }, place := 64 }] } }

theorem wit_dispatch : (waitingPkt 40).pickCore.isSome = true ∧ (waitingPkt 40).entryAddr 0 5 = 40
    ∧ (pas (go (.passDispatch 7) (waitingPkt 40))).pc = 40 ∧ (pas (go (.passDispatch 7) (waitingPkt 40))).rN 2 = 2
    ∧ (pas (go (.passDispatch 7) (waitingPkt 40))).rN 1 = 64
    ∧ verdict (go (.passDispatch 7) (waitingPkt 0)) = some (.exc 2 0 0) := by decide +kernel

/-- The same in its second pass, at entry 1, its window from byte 6 on, with p8 to p15 carried over. -/
def again (e : Nat) : State := { waitingPkt e with pc := { (waitingPkt e).pc with bank0 := [(1, e)], work := [
  { pkt := { pid := 7, src := 64, bytes := [1, 2] }, place := 99, passNo := 2, entry := some 1, origin := 6, begun := true, carry := [8, 9, 10, 11, 12, 13, 14, 15] }] } }

theorem wit_again : (pas (go (.passDispatch 7) (again 40))).pc = 40 ∧ (pas (go (.passDispatch 7) (again 40))).rN 8 = 8
    ∧ (pas (go (.passDispatch 7) (again 40))).rN 15 = 15 ∧ ((go (.passDispatch 7) (again 40)).work 7).map (fun k => (k.origin, k.passNo)) = some (6, 2)
    ∧ verdict (go (.passDispatch 7) (again 0)) = some (.exc 2 0 0) := by decide +kernel

/-- No core has a free thread: every one is fenced. -/
theorem wit_noCore : (State.each 128 (fun s c => { s with tal := s.tal.set {} (Elem.core c).key { fenced := true } }) (waitingPkt 40)).pickCore = none := by decide +kernel

def fencedCore : State := { ready 0 with tal := Tab.set {} [] (Elem.core 4).key { fenced := true } }

theorem wit_cores : (go (.coreRepair .pf 4) fencedCore).pc.repair = some 4 ∧ (go (.coreRepair .pf 5) fencedCore).rd F.PC_CORE_STATUS_result = 2
    ∧ (go (.coreRepairDone true) (go (.coreRepair .pf 4) fencedCore)).fenced (.core 4) = false
    ∧ (go (.coreRepairDone false) (go (.coreRepair .pf 4) fencedCore)).rd F.PC_CORE_STATUS_result = 4
    ∧ (go (.coreQuery .pf 4) fencedCore).rd F.PC_CORE_STATUS_fenced = 1
    ∧ (go (.parseSelfTestPass 0 true) (running 0x80 .standby)).pc.testing = 1
    ∧ (go (.pcProgDataHiWrite .pf 0x1F) (put (ready 0) [(F.PC_PROG_ADDR_addr, 4095, 0), (F.PC_PROG_DATA_LO_word_lo, 7, 0)])).parseWord true 4095
      = 15 * 2 ^ 32 + 7 := by decide +kernel

/-- A word staged while core 4 is out of service does not reach it; a standby's core that fails its test counts a fault. -/
theorem wit_coreBanks : (let s := go (.pcProgDataHiWrite .pf 0x1F) (put fencedCore [(F.PC_PROG_ADDR_addr, 4095, 0), (F.PC_PROG_DATA_LO_word_lo, 7, 0)])
      s.coreWord 4 true 4095 = 0 ∧ s.coreWord 5 true 4095 = 15 * 2 ^ 32 + 7)
    ∧ (go (.pcProgDataHiWrite .pf 0) ((ready 0).setGen .parse { ret := some 3 })).rd F.PC_PROG_STATUS_stage_err = 1
    ∧ (go (.parseSelfTestPass 0 false) (running 0x80 .standby)).pr.testFailAt = some 0
    ∧ ((go (.parseSelfTestPass 0 false) (running 0x80 .standby)).tally (.core 0)).total = 1 := by decide +kernel

/-! ### Classification -/

/-- Exact table 2 with keys of two registers, 16 buckets from 4 on; the command's key is (5, 6) and its action words 7 and 8. -/
def ruled : State := { put (ready 0) [(F.CL_KEY_bits, 5, 0), (F.CL_KEY_bits, 6, 2), (F.CL_ACT_bits, 7, 0), (F.CL_ACT_bits, 8, 2)] with
  rows := [(rowKey 2 2 0, 2 ^ 17 + 2 ^ 12 + 4), (rowKey 2 2 1, 4)] }

/-- The slot that the add takes. -/
def spot : Nat := (ruled.candidates 2 [5, 6]).headD 0
def added : State := go (.clAdd .pf 0 2) ruled

theorem wit_clAdd : ruled.Powered ∧ ruled.Owner .pf ∧ ruled.blkDown 5 = false ∧ ruled.clKey (ruled.descN 2) = [5, 6]
    ∧ ruled.slotsOf 2 [5, 6] 0 = [] ∧ (ruled.candidates 2 [5, 6]).length = 8
    ∧ (ruled.candidates 2 [5, 6]).find? (fun i => (ruled.slotAt i).isNone) = some spot
    ∧ added.slotAt spot = some ⟨2, [5, 6], 0, 7, 8, some 1, none⟩ ∧ added.rd F.CL_ARG_staged_live = 1 ∧ added.rd F.CL_ARG_live = 0
    ∧ added.slotSeen ⟨2, [5, 6], 0, 7, 8, some 1, none⟩ 0 = false ∧ added.slotSeen ⟨2, [5, 6], 0, 7, 8, some 1, none⟩ 1 = true
    ∧ (go (.clAdd .pf 0 2) (added.wr F.CL_ACT_bits 9 0)).slotAt spot = some ⟨2, [5, 6], 0, 9, 8, some 1, none⟩ := by decide +kernel

/-- The slot in force. -/
def kept : State := ruled.setSlot spot (some ⟨2, [5, 6], 0, 7, 8, none, none⟩)

theorem wit_clDelete : kept.slotsOf 2 [5, 6] 0 = [(spot, ⟨2, [5, 6], 0, 7, 8, none, none⟩)]
    ∧ (go (.clDelete .pf 0 2) kept).slotAt spot = some ⟨2, [5, 6], 0, 7, 8, none, some 1⟩
    ∧ (go (.clDelete .pf 0 2) kept).rd F.CL_ARG_live = 1 ∧ (go (.clDelete .pf 0 2) kept).rd F.CL_ARG_staged_live = 0
    ∧ (go (.clFind .pf 0 2) kept).rd F.CL_INDEX_index = spot ∧ (go (.clFind .pf 0 2) ruled).rd F.CL_CMD_STATUS_result = 2
    ∧ (go (.clDelete .pf 0 2) ruled).rd F.CL_CMD_STATUS_result = 2
    ∧ (go (.clDelete .pf 0 2) added).slotAt spot = none
    ∧ (go (.clAdd .pf 0 2) kept).slotAt spot = some ⟨2, [5, 6], 0, 7, 8, none, some 1⟩
    ∧ (go (.clAdd .pf 0 3) ruled).rd F.CL_CMD_STATUS_result = 4 ∧ (go (.clFind .pf 0 15) ruled).rd F.CL_CMD_STATUS_result = 4
    ∧ (go (.clFind .pf 1 2) ruled).rd F.CL_CMD_STATUS_result = 7 ∧ (go (.clWrite .pf 8 2) ruled).rd F.CL_CMD_STATUS_result = 7
    ∧ (go (.clAdd .pf 0 2) { ruled with gens := Tab.set {} [] (objNo .rules) { ret := some 1 } }).rd F.CL_CMD_STATUS_result = 8 := by decide +kernel

/-- All eight candidates in force with other keys: no free slot. -/
def crowded : State := (ruled.candidates 2 [5, 6]).foldl (fun s i => s.setSlot i (some ⟨2, [1, 1], 0, 0, 0, none, none⟩)) ruled

/-- Ternary table 2 with keys of two registers, 16 entries from 32 on; the command's index is 33. -/
def tern : State := { put ruled [(F.CL_INDEX_index, 33, 0), (F.CL_ARG_valid, 1, 0)] with
  rows := [(rowKey 2 18 0, 2 ^ 17 + 2 ^ 12), (rowKey 2 18 1, 32), (rowKey 2 18 3, 16)] }

theorem wit_clFull : (go (.clAdd .pf 0 2) crowded).rd F.CL_CMD_STATUS_result = 5 ∧ (crowded.candidates 2 [5, 6]).find? (fun i => (crowded.slotAt i).isNone) = none := by
  decide +kernel

theorem wit_clTern : tern.ternIndexOk 2 33 = true ∧ tern.ternIndexOk 2 31 = false
    ∧ (go (.clWrite .pf 1 2) tern).rd F.CL_CMD_STATUS_result = 0 ∧ ((go (.clWrite .pf 1 2) tern).ternAt 33).next.valid = true
    ∧ ((go (.clWrite .pf 1 2) tern).ternAt 33).next.key = [5, 6] ∧ ((go (.clWrite .pf 1 2) tern).ternAt 33).now.valid = false
    ∧ (go (.clRead .pf 1 2) (go (.clWrite .pf 1 2) tern)).rd F.CL_ARG_staged_live = 1
    ∧ (go (.clWrite .pf 1 2) (tern.setGen .rules { ret := some 1 })).rd F.CL_CMD_STATUS_result = 8
    ∧ (go (.clRead .pf 1 2) (tern.wr F.CL_INDEX_index 31)).rd F.CL_CMD_STATUS_result = 9
    ∧ (go (.clRead .pf 0 2) tern).rd F.CL_CMD_STATUS_result = 0 ∧ 33 < tern.storeSlots := by decide +kernel

theorem wit_clRows : (go (.clWrite .pf 4 0) (put (ready 0) [(F.CL_INDEX_index, 1023, 0), (F.CL_DATA_word, 0x3FFFF, 0)])).row 4 1023 0 = 0x2FFFF
    ∧ (go (.clWrite .pf 4 0) (put (ready 0) [(F.CL_INDEX_index, 1024, 0)])).rd F.CL_CMD_STATUS_result = 9
    ∧ (go (.clRead .pf 4 0) { put (ready 0) [(F.CL_INDEX_index, 1023, 0)] with rows := [(rowKey 4 1023 0, 77)] }).rd F.CL_DATA_word 0 = 77 := by
  decide +kernel

/-- Member 3 of group 1 names queue 9, whose chain ends at the uplink port given. -/
def spread (up : Bool) (moved : List Nat) : State :=
  { (if up then chain else ready 0) with
    rows := [(rowKey 4 19 0, 2 ^ 17 + 9)], cl := { moved := moved }
    qs := { tab := [(rowKey 0 9 1, 1), (rowKey 1 1 0, 2 ^ 17 + 1), (rowKey 2 1 0, 2 ^ 17 + 1), (rowKey 3 1 0, 2 ^ 17 + 64)] } }

theorem wit_spread : (spread false []).memberValid 19 = true ∧ (spread false []).memberUp 19 = false ∧ (spread true [19]).memberUp 19 = true
    ∧ (go (.spreadBucketsMoved 1 3) (spread false [])).cl.moved = [19]
    ∧ (go (.spreadBucketsRestored 1 3) (spread true [19])).cl.moved = [] := by decide +kernel

/-! ### Buffers and memory -/

def pkt (n : Nat) : Pkt := { pid := n, src := 0, bytes := List.replicate 64 7, cells := [n] }

/-- Queue 3 latched with a packet in deep memory. -/
def deepQ (q : Queue) : State := { running 0x800 .solo with qs := { queues := [(3, q)] } }

theorem wit_fetch : ((deepQ { deep := [pkt 1, pkt 2], latched := true }).fetchHead 3).map (·.pid) = some 1
    ∧ ((go (.fetchIssue 3) (deepQ { deep := [pkt 1, pkt 2], latched := true })).queueAt 3).deep.map (·.pid) = [2]
    ∧ ((go (.fetchIssue 3) (deepQ { deep := [pkt 1, pkt 2], latched := true })).queueAt 3).fetch.map (·.cells.length) = [1]
    ∧ ((go (.fetchComplete 3 []) (deepQ { fetch := [pkt 1], chip := [pkt 0], latched := true })).queueAt 3).chip.map (·.pid) = [0, 1]
    ∧ (deepQ { fetch := [pkt 1], chip := [pkt 0], latched := true }).fetchLines 3 = []
    ∧ (deepQ { fetch := [pkt 1], chip := [pkt 0], latched := true }).gateOf 3 = none
    ∧ ((go (.fetchComplete 3 []) { deepQ { dead := [{ cells := [1], lines := [] }], latched := true } with bm := { used := [1, 2] } }).bm.used) = [2] := by
  decide +kernel

theorem wit_cells : (go .spillWriteComplete { ready 0 with bm := { used := [4, 5, 6], spills := [⟨3, 1, [5], [2]⟩] } }).bm.used = [4, 6]
    ∧ (go (.cellLastByteRead 5) { ready 0 with bm := { used := [4, 5, 6], draining := [5], cgen := [(5, 15)] } }).bm.used = [4, 6]
    ∧ (go (.cellLastByteRead 5) { ready 0 with bm := { used := [4, 5, 6], draining := [5], cgen := [(5, 15)] } }).bm.cgen.get 0 5 = 0
    ∧ (ready 0).cellsWait [5] = false := by
  decide +kernel

/-- A lookup waits for a line on subchannel n: what a spill write, a relocation and a scrub read there yield to (R330). -/
def storeBusy : State := { running 0x800 .solo with
  pc := (passing 0 [] (fun x => { x with looks := [⟨3, 0, 2, [5, 6], []⟩] })).pc
  rows := (ruled).rows
  bm := { spills := [⟨3, 1, [5], List.range 16⟩], relocating := some 7 } }

theorem wit_precedence : ∃ n : Fin 16, { storeBusy with bm := { storeBusy.bm with relocating := some n.val } }.storeWaits n = true
    ∧ go .spillWriteComplete { storeBusy with bm := { storeBusy.bm with relocating := some n.val } } = { storeBusy with bm := { storeBusy.bm with relocating := some n.val } }
    ∧ go (.relocationComplete ⟨n, []⟩) { storeBusy with bm := { storeBusy.bm with relocating := some n.val } }
      = { storeBusy with bm := { storeBusy.bm with relocating := some n.val } } := by decide +kernel

theorem wit_scrub : 1 < (ready 0).threshold ∧ ({} : Sweep).read 9 2 100 7 = { seen := [9] }
    ∧ ({ seen := [9] } : Sweep).read 9 2 100 7 = { seen := [9] } ∧ ({ seen := [9] } : Sweep).read 8 2 100 7 = { start := 100 }
    ∧ ((go (.scrubRead (.row 7 3 4) [5]) (ready 0)).tally (.row 7 3 4)).total = 1
    ∧ (go (.scrubRead (.row 7 3 4) [1, 2, 3]) (ready 0)).bm.poison = [3 * 1024 + 4]
    ∧ (go (.scrubRead (.row 7 3 4) [1, 2, 3]) (ready 0)).bm.copying = [rowNo 7 3 4]
    ∧ (go (.scrubRead (.row 7 3 4) [1, 2, 3]) (ready 0)).fenced (.row 7 3 4) = true
    ∧ go (.scrubRead (.row 7 3 4) []) { ready 0 with bm := { copying := [rowNo 7 3 4] } } = { ready 0 with bm := { copying := [rowNo 7 3 4] } } := by
  decide +kernel

theorem wit_scrubDeep : (ready 0x800).feat 11 = true ∧ (ready 0x800).deepLines = 0 ∧ (ready 0x800).storeWaits 7 = false ∧ (ready 0x800).fetchWaits 7 = false
    ∧ (ready 0x800).spillWaits 7 = false ∧ (go (.scrubRead (.line 7 9) []) ((ready 0x800).wr F.BM_DEEP_CFG_capacity 20)).bm.deep.seen = [lineNo 7 9]
    ∧ (go (.scrubRead (.line 7 9) [7, 8, 9]) ((ready 0x800).wr F.BM_DEEP_CFG_capacity 20)).rd F.BM_DEEP_ERR_uncorrectable = 1
    ∧ (go (.scrubRead (.line 7 9) [7, 8, 9]) ((ready 0x800).wr F.BM_DEEP_CFG_capacity 20)).bm.bad = [lineNo 7 9] := by decide +kernel

def lateAt (run : Nat) : State := { ready 0x800 with ts := { run := run } }

theorem wit_scrubLate : (go (.scrubSweepLate false) (lateAt (lateAt 0).chipInterval)).rd F.BM_SCRUB_STATUS_chip_late = 1
    ∧ go (.scrubSweepLate false) (lateAt ((lateAt 0).chipInterval - 1)) = lateAt ((lateAt 0).chipInterval - 1)
    ∧ (go (.scrubSweepLate true) (lateAt (lateAt 0).deepInterval)).rd F.BM_SCRUB_STATUS_deep_late = 1
    ∧ (go (.scrubSweepLate true) (lateAt (lateAt 0).deepInterval)).Raised 7 0 0x6030 1 := by decide +kernel

theorem wit_rowRepair : (go (.rowRepairComplete ⟨3, 3⟩ 4 true) { ready 0 with bm := { copying := [rowNo 3 3 4] } }).bm.repaired = [rowNo 3 3 4]
    ∧ (go (.rowRepairComplete ⟨3, 3⟩ 4 false) { ready 0 with bm := { copying := [rowNo 3 3 4] } }).bm.gone = [rowNo 3 3 4]
    ∧ (go (.rowRepairComplete ⟨7, 3⟩ 4 false) { ready 0 with bm := { copying := [rowNo 7 3 4] } }).bm.poison = [3076]
    ∧ (go (.relocationComplete ⟨7, []⟩) { ready 0x800 with bm := { relocating := some 7 } }).bm.relocating = none
    ∧ (go (.relocationComplete ⟨7, []⟩) { ready 0x800 with bm := { relocating := some 7 } }).Raised 7 7 0x6021 20480 := by decide +kernel

def testing : State := { ready 0 with glb := { dev := .test } }

theorem wit_memTests : (go (.packetBufferTest .pf) testing).bm.test = some 1 ∧ (go (.deepMemoryTest .pf) testing).bm.test = some 2
    ∧ (go (.packetBufferTest .pf) (ready 0)).rd F.BM_TEST_STATUS_result = 3 ∧ go (.memoryTestQuery .pf) testing = testing
    ∧ (go (.memoryTestDone none) { testing with bm := { test := some 1 } }).bm.test = none
    ∧ (go (.memoryTestDone (some 9)) { testing with bm := { test := some 1 } }).rd F.BM_TEST_STATUS_fail_unit = 9
    ∧ (go (.packetBufferTest .pf) { testing with bm := { test := some 1 } }).rd F.BM_TEST_STATUS_result = 1 := by decide +kernel

theorem wit_thresholds : (go (.bmSpillWrite .pf (300 * 2 ^ 18 + 200 * 2 ^ 9 + 100)) (ready 0)).rd F.BM_SPILL_low_max = 300
    ∧ (go (.bmSpillWrite .pf (300 * 2 ^ 18 + 200 * 2 ^ 9 + 200)) (ready 0)).rd F.BM_STATUS_cfg_err = 1
    ∧ (ready 0).rd F.BM_ADMIT_arr_floor ≤ 212 := by decide +kernel

/-! ### Time -/

/-- Nine cycles short of the wrap, 100 cycles into a frame. -/
def nearWrap : State := { running 0 .solo with ts := { tb := 2 ^ 72 - 9 * 0x066E172D4CE8, wrap := 255, phase := 100, started := true, run := 7 } }

theorem wit_incr : (ready 0).slaved = false
    ∧ (go (.tsIncrWrite .pf 0x066E) (put (ready 0) [(F.TS_INCR_incr, 0x172D4CE9, 0)])).ts.incrNext = some 0x066E172D4CE9
    ∧ (go (.tsIncrWrite .pf 0x0700) (ready 0)).rd F.TS_STATUS_incr_err = 1
    ∧ (go (.tsAdjWrite .pf 0xFFFFFFFF) (ready 0)).ts.step = some (-2 ^ 24) ∧ (go (.tsAdjWrite .pf 5) (ready 0)).rd F.TS_STATUS_adj_busy = 1
    ∧ (go (.tsAdjWrite .pf 5) (go (.tsAdjWrite .pf 7) (ready 0))).rd F.TS_STATUS_adj_err = 1
    ∧ (go .stepApply (go (.tsAdjWrite .pf 5) (ready 0))).ts.tb = 5 * 2 ^ 40 + 0x066E172D4CE8
    ∧ (go .stepApply (go (.tsAdjWrite .pf 5) (ready 0))).ts.run = 0x066E172D4CE8 := by decide +kernel

theorem wit_wrap : nearWrap.wrapIn = 9 ∧ nearWrap.wrapIn < nearWrap.cyclesLeft ∧ (go .timeBaseWrap nearWrap).ts.tb = 0
    ∧ (go .timeBaseWrap nearWrap).ts.wrap = 0 ∧ (go .timeBaseWrap nearWrap).ts.phase = 109
    ∧ (go .timeBaseWrap nearWrap).evu.wait.map (fun e => (e.code, e.wrap, e.arg)) = [(0x7001, true, 0)] := by decide +kernel

def aligning : State := { ready 0 with ts := { align := some (.ns (2000 * 2 ^ 40)), started := true, phase := 19000 } }

theorem wit_align : (go (.alignGo .pf 2) (put (ready 0) [(F.TS_FRAME_ALIGN_align_ns, 1000, 0)])).ts.align = some (.ns (1000 * 2 ^ 40))
    ∧ (go (.alignGo .pf 2) (put (ready 0) [(F.TS_FRAME_ALIGN_align_ns, 999, 0)])).ts.align = none
    ∧ (go (.alignGo .pf 2) (running 0 .solo)).rd F.TS_STATUS_align_err = 1
    ∧ aligning.alignIn = some 312 ∧ 312 ≤ aligning.cyclesLeft ∧ (go .frameAligned aligning).ts.phase = 0
    ∧ (go .frameAligned aligning).rd F.TS_STATUS_aligned = 1 := by decide +kernel

theorem wit_pps : (go .ppsEdge (put (ready 0) [(F.TS_CTRL_align_src, 1, 0)])).rd F.TS_STATUS_pps_seen = 1
    ∧ (go .ppsLost (at_ (1500 * millisecond) (put (ready 0) [(F.TS_STATUS_pps_seen, 1, 0)]))).Raised 8 0 0x7005 0
    ∧ (go .ppsLost (at_ (1500 * millisecond - 1) (put (ready 0) [(F.TS_STATUS_pps_seen, 1, 0)]))).rd F.TS_STATUS_pps_seen = 1 := by decide +kernel

def framingPort : State := put { (running 0 .solo).setPort 5 { framing := true } with ts := { started := true } } [(F.TS_TOD_SFC_sfc, 2, 0)]

theorem wit_tod : (framingPort.todAhead 5 2) = 2 ∧ (go (.todCompute .pf 5) framingPort).rd F.TS_TOD_STATUS_result = 0
    ∧ ((go (.todCompute .pf 5) framingPort).todOf 5).pending = true
    ∧ (go (.todCompute .pf 6) framingPort).rd F.TS_TOD_STATUS_result = 3
    ∧ ((go (.todCancel .pf 5) (go (.todCompute .pf 5) framingPort)).todOf 5).pending = false
    ∧ (go (.todQuery .pf 5) framingPort).rd F.TS_TOD_STATUS_port = 5
    ∧ (go (.termDelayCompute .pf 7) (inState .waiting)).rd F.TS_TERM_DOWN_delay = 0
    ∧ (go (.termDelayCompute .pf 7) (put (inState .operating) [(F.GE_DISC_DIST_teq, 250, 5)])).rd F.TS_TERM_DOWN_delay ≠ 0
    ∧ (ready 0).Powered ∧ (ready 0).owns .pf = true ∧ (ready 0).blkDown 8 = false ∧ (ready 0).pcieBoot = false
    ∧ (go .ppsLost (ready 0)).rd F.TS_STATUS_pps_seen = 0 := by decide +kernel

/-! ### Power, reset, boot -/

theorem wit_domains : (ready 0).domRefusal 3 = 0 ∧ (go (.domainDownRequest .pf 3) (ready 0)).pw.dom = some (3, true)
    ∧ (ready 0).domRefusal 13 = 5 ∧ (running 0 .solo).domRefusal 13 ≠ 0
    ∧ (put (ready 0) [(F.TP_CTRL_port_en, 1, 24)]).domRefusal 3 = 4
    ∧ (go .domainQuiescent (go (.domainDownRequest .pf 3) (ready 0))).domDown 3 = true
    ∧ (go (.domainUpRequest .pf 3) (go .domainQuiescent (go (.domainDownRequest .pf 3) (ready 0)))).pw.dom = some (3, false)
    ∧ (go .domainUpComplete (go (.domainUpRequest .pf 3) (go .domainQuiescent (go (.domainDownRequest .pf 3) (ready 0))))).domDown 3 = false
    ∧ (go (.domainQuery .pf 3) (ready 0)).rd F.PW_DOM_CMD_STATUS_domain = 3
    ∧ (ready 0).glb.move = none ∧ State.reset.domRefusal 3 = 2
    ∧ (go (.domainDownRequest .pf 3) (go .domainQuiescent (go (.domainDownRequest .pf 3) (ready 0)))).rd F.PW_DOM_CMD_STATUS_result = 0 := by
  decide +kernel

/-- A pass runs on core 2 while its half is asked down. -/
def restless : State := at_ (1000 * microsecond) { passing 0 [] with pw := { dom := some (8, true) } }

theorem wit_quiescent : restless.quiescent 8 = false ∧ go .domainQuiescent restless = restless ∧ (go .domainTimeout restless).pw.dom = none
    ∧ (go .domainTimeout (at_ (1000 * microsecond - 1) restless)).pw.dom = some (8, true) ∧ (go .domainTimeout restless).domDown 8 = false
    ∧ (go .domainTimeout (put restless [(F.PW_DOM_CMD_STATUS_busy, 1, 0)])).rd F.PW_DOM_CMD_STATUS_result = 3 := by decide +kernel

def monitors : List (BitVec 16) := 3 :: List.replicate 47 15
def lean5 : State := put (ready 0) [(F.PW_MON_margin, 3, 7), (F.PW_AVS_CFG_margin_lo, 10, 0), (F.PW_AVS_CFG_margin_hi, 20, 0),
  (F.PW_AVS_LIMIT_v_max, 900, 0), (F.PW_AVS_LIMIT_v_min, 600, 0), (F.PW_AVS_STATUS_v_now, 700, 0)]

theorem wit_avs : (lean5.readMargins monitors).rd F.PW_MON_margin (lean5.readMargins monitors).worstMon = 3
    ∧ (go (.avsPeriod monitors 55) lean5).rd F.PW_AVS_STATUS_v_now = 705 ∧ lean5.rd F.PW_AVS_STATUS_v_now = 700
    ∧ (go .avsBusFault (ready 0)).rd F.PW_AVS_STATUS_bus_fault = 1
    ∧ go (.avsPeriod monitors 55) { lean5 with pw := { avsDue := 1 } } = { lean5 with pw := { avsDue := 1 } }
    ∧ (go (.avsPeriod (0 :: List.replicate 47 15) 55) { lean5 with pw := { avsDue := 1 } }).rd F.PW_AVS_STATUS_v_now = 720 := by decide +kernel

/-- The least margin 0 raises the voltage by four steps, up to v_max; 21 lowers it by one once it has lasted ten periods; 20 keeps it. -/
theorem wit_avs_steps : (go (.avsPeriod (0 :: List.replicate 47 15) 55) lean5).rd F.PW_AVS_STATUS_v_now = 720
    ∧ (go (.avsPeriod (0 :: List.replicate 47 15) 55) (lean5.wr F.PW_AVS_STATUS_v_now 890)).rd F.PW_AVS_STATUS_v_now = 900
    ∧ (go (.avsPeriod (List.replicate 48 20) 55) lean5).rd F.PW_AVS_STATUS_v_now = 700
    ∧ (go (.avsPeriod (List.replicate 48 21) 55) { lean5 with pw := { avsHigh := 8 } }).rd F.PW_AVS_STATUS_v_now = 700
    ∧ (go (.avsPeriod (List.replicate 48 21) 55) { lean5 with pw := { avsHigh := 9 } }).rd F.PW_AVS_STATUS_v_now = 695 := by decide +kernel

/-- The warning at its threshold, and its end 3 degrees below. -/
theorem wit_warn : (let w := (ready 0).rd F.PW_THERM_CFG_warn
    (go (.thermalSample (List.replicate 8 (BitVec.ofNat 8 w))) (ready 0)).pw.warnHeld = true
    ∧ (go (.thermalSample (List.replicate 8 (BitVec.ofNat 8 w))) (ready 0)).rd F.PW_THERM_STATUS_warn_seen = 1
    ∧ (go (.thermalSample (List.replicate 8 (BitVec.ofNat 8 (w - 3)))) { ready 0 with pw := { warnHeld := true } }).pw.warnHeld = false
    ∧ (go (.thermalSample (List.replicate 8 (BitVec.ofNat 8 (w - 2)))) { ready 0 with pw := { warnHeld := true } }).pw.warnHeld = true) := by
  decide +kernel

theorem wit_thermal : (ready 0).rd F.PW_THERM_CFG_warn ≤ (ready 0).rd F.PW_THERM_CFG_trip ∧ 30 < (ready 0).rd F.PW_THERM_CFG_warn
    ∧ (go (.thermalSample (List.replicate 8 30)) (ready 0)).rd F.PW_THERM_STATUS_temp = 30
    ∧ (go (.thermalSample (List.replicate 8 30)) { ready 0 with pw := { thermDue := 1 } }).rd F.PW_THERM_STATUS_temp = 0
    ∧ (ready 0).rd F.PW_THERM_CFG_trip ≤ 127 ∧ (go (.thermalSample (127 :: List.replicate 7 200)) (ready 0)).glb.dev = .safe
    ∧ (go (.thermalSample (127 :: List.replicate 7 200)) (ready 0)).rd F.PW_RESET_CAUSE_safe_cause = 3 := by decide +kernel

theorem wit_resets : (go (.powerOnReset ⟨5, true, true⟩ false) (running 0 .solo)).pw.straps = ⟨5, true, true⟩
    ∧ (go (.powerOnReset ⟨5, true, true⟩ false) (running 0 .solo)).rd F.PW_RESET_CAUSE_kind = 1
    ∧ (go (.pinReset ⟨5, true, true⟩) (running 0 .solo)).rd F.PW_RESET_CAUSE_kind = 2
    ∧ (go (.deviceReset .pf 0xA5 ⟨5, true, true⟩) (running 0 .solo)).rd F.PW_RESET_CAUSE_kind = 3
    ∧ (go (.blockReset .pf 0xA5 14) (ready 0)).rd F.PW_RESET_STATUS_result = 3
    ∧ (go (.blockReset .pf 0xA5 6) (running 0 .solo)).rd F.PW_RESET_STATUS_result = 2
    ∧ (go (.blockReset .pf 0xA5 3) (ready 0)).pw.blkCmd = some 3
    ∧ (go (.blockReset .pf 0xA5 13) (ready 0)).blkDown 13 = true ∧ (go (.blockReset .pf 0xA5 0) (ready 0)).rd F.PW_RESET_STATUS_result = 3
    ∧ go (.deviceReset .pf 0x5A ⟨5, true, true⟩) (running 0 .solo) = running 0 .solo
    ∧ (go .blockResetComplete (go (.blockReset .pf 0xA5 3) (inState .operating))).ctxs = [] := by decide +kernel

/-- A device in BOOT at a stage. -/
def booting (src : Bool) (stage : Nat) : State := put { State.reset with pw := { straps := ⟨0, false, src⟩ } } [(F.PW_BOOT_STATUS_stage, stage, 0)]
def goodLoad : BootLoad := ⟨true, true, true, false, false, false, true, 3⟩

theorem wit_boot : ((go (.bootDataWrite .pf 77) (put (booting true 1) [(F.PW_BOOT_ADDR_addr, 6, 0)])).pw.bootImg.get 0 4) = 77
    ∧ (go (.bootDataWrite .pf 77) (put (booting true 1) [(F.PW_BOOT_ADDR_addr, 6, 0)])).rd F.PW_BOOT_ADDR_addr = 10
    ∧ (go (.bootGo .pf 1) (booting true 1)).rd F.PW_BOOT_STATUS_stage = 2
    ∧ (go (.bootLoadComplete goodLoad) (booting false 2)).rd F.PW_BOOT_STATUS_stage = 4
    ∧ (go (.bootLoadComplete goodLoad) (booting false 2)).pw.keys = 3
    ∧ (go (.memoryTrainingComplete true 0x140000) (booting false 4)).rd F.BM_DEEP_CFG_capacity = 20
    ∧ (go (.memoryTrainingComplete true 0) (booting false 4)).rd F.PW_BOOT_STATUS_deep_ok = 0
    ∧ (go (.bootSelfTestComplete 0 0 true) (booting false 5)).glb.dev = .ready
    ∧ (go (.bootSelfTestComplete 0 0 true) (booting false 5)).rd F.GLB_FEAT_OFFER_offer = 0x34FF
    ∧ (go (.bootSelfTestComplete 0 0 false) (booting false 5)).rd F.PW_BOOT_STATUS_error = 5
    ∧ (go (.bootSelfTestComplete 1 255 true) (booting false 5)).glb.dev = .ready ∧ (go (.bootSelfTestComplete 1 255 true) (booting false 5)).rd F.PW_BOOT_STATUS_eng_fail = 1
    ∧ (go (.bootSelfTestComplete 3 0 true) (booting false 5)).rd F.PW_BOOT_STATUS_error = 5
    ∧ (go (.bootSelfTestComplete 0 511 true) (booting false 5)).glb.dev = .boot
    ∧ (go (.bootLoadComplete { goodLoad with recordOk := false }) (booting false 2)).rd F.PW_BOOT_STATUS_error = 3
    ∧ (go (.bootLoadComplete { goodLoad with headerOk := false }) (put (booting false 2) [(F.PW_BOOT_STATUS_auth_req, 1, 0)])).rd F.PW_BOOT_STATUS_stage = 3
    ∧ (go (.bootLoadComplete { goodLoad with headerOk := false }) (booting false 2)).rd F.PW_BOOT_STATUS_stage = 4 := by decide +kernel

/-! ### Lanes -/

/-- Lane 130 (uplink) and lane 66 (PON receiver) in a state. -/
def laneIn (l : Nat) (x : Lane) : State := at_ second { ready 0 with lanes := Tab.set {} [] l x }

theorem wit_lanes : (ready 0).AllUp ∧ patOk 66 0 = true
    ∧ ((go (.laneEnable .pf 66 1) (running 0 .solo)).lane 66).st = .calibrating ∧ ((go (.laneEnable .pf 130 1) (running 0 .solo)).lane 130).st = .training
    ∧ (go (.laneDisable .pf 66 0) (laneIn 66 { st := .up })).Raised 10 66 0x9002 3
    ∧ Out.errorBit 66 ∈ (go (.errorInject .pf 66 0x41) (ready 0)).out
    ∧ (go (.laneEnable .pf 66 0xF01) (running 0 .solo)).rd F.SL_CMD_STATUS_result = 4 ∧ patOk 66 15 = false := by decide +kernel

theorem wit_laneUp : (go (.laneUp ⟨130, false⟩) (laneIn 130 { st := .training })).Raised 10 130 0x9001 2
    ∧ ((go (.laneBringupTimeout 66) (laneIn 66 { st := .calibrating })).lane 66).failedOnce = true
    ∧ ((go (.laneBringupTimeout 66) (laneIn 66 { st := .calibrating, failedOnce := true })).lane 66).st = .fenced
    ∧ (go (.laneBringupTimeout 66) (laneIn 66 { st := .calibrating, failedOnce := true })).fenced (.lane 66) = true
    ∧ (go (.laneBringupTimeout 130) (laneIn 130 { st := .training })).Raised 10 130 0x9003 0
    ∧ go (.laneBringupTimeout 130) (laneIn 130 { st := .training, from_ := second }) = laneIn 130 { st := .training, from_ := second }
    ∧ ((go (.laneUp ⟨160, false⟩) (laneIn 160 { st := .training, grp := true })).rope 0).lanes = [0]
    ∧ (go (.laneUp ⟨160, true⟩) (laneIn 160 { st := .training, grp := true })).rd F.PR_ROPE_ERR_errored 0 = 1
    ∧ ((laneIn 130 {}).tally (.lane 130)).hit.total < (laneIn 130 {}).threshold := by decide +kernel

theorem wit_laneLoss : (go (.laneLoss 130 .cdr) (laneIn 130 { st := .up })).Raised 10 130 0x9002 0
    ∧ ((go (.laneLoss 66 .cdr) (laneIn 66 { st := .up })).lane 66).st = .calibrating
    ∧ ((go (.laneRetrain 130) (put (laneIn 130 { st := .absent }) [(F.SL_LANE_CTRL_en, 1, 130)])).lane 130).st = .training
    ∧ ((go (.laneRetrain 130) (put (laneIn 130 { st := .absent, retryAt := second + 1 }) [(F.SL_LANE_CTRL_en, 1, 130)])).lane 130).st = .absent
    ∧ ((go (.groupLock ⟨160, [BitVec.ofNat 20 comma]⟩) (laneIn 160 { st := .training })).lane 160).grp = true
    ∧ ((go (.groupLock ⟨160, [BitVec.ofNat 20 comma]⟩) (laneIn 160 { st := .training })).lane 160).send = .frames
    ∧ (go (.groupLock ⟨160, (List.replicate 63 0x40000)⟩) (laneIn 160 { st := .training })).lane 160 = { st := .training, slip := 1 }
    ∧ ((go (.groupLock ⟨160, (List.replicate 64 0x40000)⟩) (laneIn 160 { st := .training })).lane 160).grp = true
    ∧ ((go (.laneEnable .pf 160 1) (running 0 .solo)).lane 160).send = .training
    ∧ Out.groups 160 (trainGroups 0).2 ∈ (go (.laneEnable .pf 160 1) (running 0 .solo)).out ∧ (trainGroups 0).2.head? = some comma
    ∧ ((go (.checkerLock 130) (put (ready 0) [(F.SL_LANE_CTRL_chk_en, 1, 130)])).lane 130).chk = true
    ∧ ((go (.checkerLockLoss 130) (laneIn 130 { chk := true })).lane 130).chk = false
    ∧ ((go (.calibrationStart 2) (put (ready 0) [(F.UB_TREE_CFG_rx_en, 1, 2)])).lane 66) = { cal := true, calDue := second }
    ∧ ((go (.calibrationStart 2) (put (laneIn 66 { calDue := second + 1 }) [(F.UB_TREE_CFG_rx_en, 1, 2)])).lane 66).cal = false
    ∧ (go (.calibrationStart 2) (put (laneIn 66 { cal := true, steps := 9 }) [(F.UB_TREE_CFG_rx_en, 1, 2)])).Raised 10 66 0x9020 9
    ∧ ((go (.calibrationStep 2 ⟨100, 5000⟩) (laneIn 66 { cal := true, steps := 63 })).lane 66).cal = false
    ∧ go (.checkerLock 130) (ready 0) = ready 0 := by decide +kernel

/-- Tree 5 with a calibrating lane, its receiver idle or not. -/
def calibrating (idle : Nat) (s : State) : State := (s.setLane 69 { cal := true }).wr F.UB_TREE_STATUS_idle idle 5

/-- A receiver that receives takes a step in a gap of 2 µs of electrical idle, and not while a burst is armed. -/
theorem wit_calibration : (calibrating 1 bursty).receiving 5 = true ∧ (calibrating 0 bursty).mayCalibrate 5 50000 100 = false
    ∧ go (.calibrationStep 5 ⟨50000, 100⟩) (calibrating 0 bursty) = calibrating 0 bursty ∧ (calibrating 1 bursty).mayCalibrate 5 50000 100 = true
    ∧ ((go (.calibrationStep 5 ⟨50000, 100⟩) (calibrating 1 bursty)).lane 69).steps = 1
    ∧ go (.calibrationStep 5 ⟨50000, 100⟩) (calibrating 1 armed) = calibrating 1 armed ∧ ((calibrating 1 armed).rx 5).armed.length = 1 := by
  decide +kernel

theorem wit_laneCmd : (go (.laneQuery .pf 175) (ready 0)).rd F.SL_CMD_STATUS_lane = 175 ∧ (go (.laneRecalibrate .pf 176) (ready 0)).rd F.SL_CMD_STATUS_result = 2
    ∧ ((go (.laneRecalibrate .pf 66) (running 0 .solo)).lane 66).cal = true
    ∧ (go (.retrainNow .pf 130) { laneIn 130 { st := .up } with glb := { dev := .run, modeIn := true } }).Raised 10 130 0x9002 5 := by
  decide +kernel

/-! ### Interrupts -/

/-- Source n goes to target t with priority p, enabled. -/
def routed (n t p : Nat) (pend : List Nat) : State :=
  { put (ready 0) [(F.IC_SRC_CFG_en, 1, n), (F.IC_SRC_CFG_prio, p, n), (F.IC_SRC_CFG_target, t, n)] with ic := { pend := pend } }

theorem wit_doorbell : isGuide ((routed 100 20 5 []).icTarget 100) = false ∧ (routed 100 20 5 []).watchOf 100 = none
    ∧ (go (.doorbell .pf 100) (routed 100 20 5 [])).ic.pend = [100] ∧ (go (.doorbell .guide 31) (ready 0)).rd F.IC_STATUS_refused = 1
    ∧ (go (.doorbell .block 31) (routed 31 20 5 [])).ic.pend = [31] := by
  decide +kernel

theorem wit_claim : (routed 100 2 5 [100]).icBest 2 = some 100
    ∧ (go (.guideCoreEntry 2) (routed 100 2 5 [100])).icStack 2 = [(100, 5)] ∧ (go (.guideCoreEntry 2) (routed 100 2 5 [100])).icThresh 2 = 5 := by decide +kernel

/-- Target 20 is a vector of a function: 0 claims and completes, others complete themselves. -/
def vector (fn : Nat) (pend : List Nat) (masked : Bool := false) : State :=
  { put (routed 100 20 5 pend) [(F.HD_VEC_MAP_valid, 1, 16), (F.HD_VEC_MAP_fn, fn, 16)] with hd := { vtab := [(2, ⟨0x1000, 7, masked, false⟩)] } }

theorem wit_vectors : (vector 0 []).icExplicit 20 = true ∧ (vector 3 []).icAuto 20 = true
    ∧ (go (.claimRead .pf 20) (vector 0 [])).rdata = 0 ∧ (go (.claimRead .pf 20) (vector 0 [100, 101])).rdata = 2 ^ 31 + 5 * 2 ^ 16 + 100
    ∧ (go (.claimRead .pf 20) (vector 0 [100, 101])).ic.pend = [101]
    ∧ (go (.completeWrite .pf 20 100) (go (.claimRead .pf 20) (vector 0 [100]))).icStack 20 = []
    ∧ (go (.completeWrite .pf 20 99) (go (.claimRead .pf 20) (vector 0 [100]))).rd F.IC_TGT_STATUS_order_err 20 = 1
    ∧ (go (.msixAutoComplete 20) (vector 3 [100])).ic.pend = [] ∧ Out.msix 16 3 0x1000 7 ∈ (go (.msixAutoComplete 20) (vector 3 [100])).out
    ∧ (go (.msixAutoComplete 20) (vector 3 [100] true)).vfMsixWord 2 0x4800 = 1
    ∧ (vector 3 [100]).icReady 20 = [100] := by decide +kernel

/-- Target t asleep, source 100 watched. -/
def watched (s : State) (t : Nat) : State := { put s [(F.IC_WATCH_valid, 1, 3), (F.IC_WATCH_source, 100, 3)] with ic := { pend := [100], sleep := [t] } }

theorem wit_wake : (watched (vector 0 []) 20).icAsleep 20 = true ∧ (watched (vector 0 []) 20).icDeliverable 100 = true
    ∧ Out.pme 0 ∈ (go (.watchWake 100) (watched (vector 0 []) 20)).out
    ∧ (go (.watchWake 100) (watched (routed 100 2 5 []) 2)).icAsleep 2 = false := by decide +kernel

theorem wit_stop : (go (.threshWrite .pf 5 9) (ready 0)).rd F.IC_TGT_THRESH_thresh 5 = 9
    ∧ (go (.threshWrite .pf 0 9) (running 0x300 .solo 4)).rd F.IC_STATUS_not_owner = 1
    ∧ (go (.srcCfgWrite .pf 100 (2 ^ 31 + 2 ^ 30 + 20 * 256 + 7)) (routed 100 20 5 [100])).ic.pend = []
    ∧ (go (.srcCfgWrite .pf 100 (68 * 256)) (routed 100 20 5 [100])).rd F.IC_STATUS_cfg_err = 1
    ∧ (go (.watchWrite .guide 3 (2 ^ 31 + 100)) (ready 0)).rd F.IC_WATCH_source 3 = 100
    ∧ (go (.targetWake 2) { ready 0 with ic := { sleep := [2] } }).icAsleep 2 = false ∧ ({ ready 0 with ic := { sleep := [2] } } : State).icAsleep 2 = true
    ∧ (go (.watchWrite .guide 4 (2 ^ 31 + 100)) (go (.watchWrite .guide 3 (2 ^ 31 + 100)) (ready 0))).rd F.IC_STATUS_cfg_err = 1
    ∧ go (.claimRead .pf 5) (ready 0) = { ready 0 with rdata := 0 } ∧ (ready 0).icExplicit 5 = false
    ∧ (go (.completeWrite .guide 2 100) { routed 100 2 5 [] with ic := { stack := [(2, [(100, 5)])] } }).icStack 2 = [] := by
  decide +kernel

/-- A watched source rung in BIVOUAC asks for RUN. -/
theorem wit_wakeRun : (go (.doorbell .pf 100) { put (watched (routed 100 20 5 []) 9) [(F.IC_WATCH_wake_run, 1, 3)] with
      glb := { dev := .bivouac, modeIn := true } }).Raised 12 20 0xB003 100 := by decide +kernel

/-! ### Beads -/

theorem wit_beads : (edgeClasses 3 ++ levelClasses 3).contains 2 = true ∧ (edgeClasses 3 ++ levelClasses 3).contains 63 = false
    ∧ (go (.beadCfgWrite .pf 3 4 0x805) (ready 0)).rd F.PM_BEAD_CFG_event 52 = 0x805
    ∧ (go (.beadCfgWrite .pf 3 4 0xFC00) (ready 0)).rd F.PM_STATUS_cfg_err = 1
    ∧ (go .windowClose { ready 0 with ts := { run := 1000000 * 2 ^ 40 }, pm := { beads := [(3, { cnt := 9, epoch := 2 })] } }).pm.window = 1
    ∧ ((go .windowClose { ready 0 with ts := { run := 1000000 * 2 ^ 40 }, pm := { beads := [(3, { cnt := 9, epoch := 2 })] } }).pm.beads.get {} 3).win = 9
    ∧ go .windowClose { ready 0 with ts := { run := 999999 * 2 ^ 40 } } = { ready 0 with ts := { run := 999999 * 2 ^ 40 } } := by decide +kernel

/-- The frame that an uplink port was sending as it went down is cut and counted (R438). -/
theorem test_cut : ((ready 0).cutFrame 3).qs.cut = [] ∧ ({ ready 0 with qs := { pullAt := [(67, 9)] } } : State).cutFrame 3
    = { ready 0 with qs := { cut := [(3, 1)] } } := by decide +kernel

/-! ### Host interface -/

/-- Ring 9, enabled, of a kind, on channel 2, of 16 entries at 0x10000. -/
def ringed (kind : Nat) (r : Ring := {}) (x : Dma := {}) : State :=
  { put (running 0 .solo) [(F.HD_RING_CFG_en, 1, 9), (F.HD_RING_CFG_kind, kind, 9), (F.HD_RING_CFG_chan, 2, 9), (F.HD_RING_CFG_log2_size, 4, 9)] with
    hd := { rings := [(9, r)], chans := [(2, x)], link := true } }

/-- Ring 9 given to virtual function 4, disabled. -/
def vfRing (kind : Nat) : State := put (ready 0x400) [(F.HD_RING_CFG_owner, 4, 9), (F.HD_RING_CFG_kind, kind, 9), (F.HD_VF_CFG_en, 1, 3)]

theorem wit_ringMay : (ready 0).ringMay (.vf 3) 9 = false ∧ (go (.ringTailWrite (.vf 3) 9 5) (ready 0)).rd F.HD_STATUS_not_owner = 1
    
    ∧ (ready 0).AllUp ∧ (vfRing 0).ringOwner 9 = 4 ∧ (vfRing 0).feat 10 = true ∧ (go (.ringEnable (.vf 3) 9 (4 * 2 ^ 8 + 1)) (vfRing 0)).ringOn 9 = true
    ∧ (vfRing 0).on F.HD_VF_CFG_en 3 = true ∧ (vfRing 0).ringMay (.vf 3) 9 = true
    ∧ (go (.ringEnable .pf 9 (4 * 2 ^ 17 + 4 * 2 ^ 8 + 1)) (vfRing 0)).ringOwner 9 = 4
    ∧ (ready 0).ringOn 9 = false ∧ (go (.ringEnable .pf 9 (2 * 2 ^ 12 + 4 * 2 ^ 8 + 1)) (ready 0)).ringOn 9 = true
    ∧ (go (.ringEnable .pf 9 (2 * 2 ^ 12 + 4 * 2 ^ 8 + 1)) (ready 0)).ringSize 9 = 16
    ∧ (go (.ringEnable .pf 9 (2 * 2 ^ 12 + 3 * 2 ^ 8 + 1)) (ready 0)).Raised 11 0 0xA003 9 := by decide +kernel

theorem wit_rings : (ringed 0).ringOn 9 = true ∧ (ringed 0).inXfer 9 = 0 ∧ (go (.ringDisable .pf 9 0) (ringed 0)).ringOn 9 = false
    ∧ (go (.ringTailWrite .pf 9 15) (ringed 0)).ringTail 9 = 15 ∧ (go (.ringTailWrite .pf 9 16) (ringed 0)).rd F.HD_RING_STATUS_error 9 = 1
    ∧ (go (.ringHeadWrite .pf 9 3) (ringed 2)).ringHead 9 = 3
    ∧ ((go (.lossRecord 9) (ringed 2 { lost := 5 })).ringAt 9).events.length = 1 ∧ ((go (.lossRecord 9) (ringed 2 { lost := 5 })).ringAt 9).lost = 0 := by
  decide +kernel

theorem wit_ringIrq : (go (.ringIrqTimer 9) (put (at_ (16 * microsecond) (ringed 2 { since := 4 })) [(F.HD_RING_IRQ_irq_en, 1, 9), (F.HD_RING_IRQ_irq_src, 100, 9),
    (F.IC_SRC_CFG_target, 20, 100)])).ic.pend = [100]
    ∧ (go (.ringIrqTimer 9) (put (at_ (16 * microsecond) (ringed 2 { since := 4, sinceAt := 1 })) [(F.HD_RING_IRQ_irq_en, 1, 9), (F.HD_RING_IRQ_irq_src, 100, 9)])).ic.pend = [] := by decide +kernel

/-- Channel 2 enabled. -/
def chan (kind : Nat) (x : Dma) : State := put (ringed kind {} x) [(F.HD_CH_CTRL_en, 1, 2)]

theorem wit_channels : ((go (.channelPause .pf 2 3) (chan 0 {})).chanAt 2).st = 3 ∧ ((go (.channelPause .pf 2 3) (chan 0 { reads := 1 })).chanAt 2).st = 2
    ∧ ((go (.channelResume .pf 2 1) (put (chan 0 { st := 3 }) [(F.HD_CH_CTRL_pause, 1, 2)])).chanAt 2).st ≤ 1
    ∧ (go (.channelDisable .pf 2 0) (chan 0 {})).on F.HD_CH_CTRL_en 2 = false
    ∧ (go (.channelQuery .pf 2) (chan 0 {})).rd F.HD_CH_CMD_STATUS_chan = 2 ∧ (go (.channelRepair .pf 2) (chan 0 {})).rd F.HD_CH_CMD_STATUS_result = 2
    ∧ (go (.channelRepair .pf 2) { chan 0 {} with tal := Tab.set {} [] (Elem.chan 2).key { fenced := true } }).Raised 11 2 0xA002 0
    ∧ (((go (.channelStop .pf 2) (chan 0 { xfer := some { ring := 9, desc := 0, stage := .read, len := 4 } })).chanAt 2).xfer.map (·.status))
      = some 4 := by decide +kernel

/-- A 32-byte descriptor: address 0x1234, a length, end of packet. -/
def descr (n : Nat) : List Byte := [0x34, 0x12, 0, 0, 0, 0, 0, 0, BitVec.ofNat 8 n, BitVec.ofNat 8 (n / 256), 1] ++ List.replicate 21 0
def fetching : State := chan 0 { st := 1, reads := 1, xfer := some { ring := 9, desc := 0, stage := .desc } }

theorem wit_descriptor : (((go (.readCompletion 2 (descr 16383) true) fetching).chanAt 2).xfer).map (fun x => (x.addr, x.len, x.eop, x.stampReq))
      = some (0x1234, 16383, true, false)
    ∧ (((go (.readCompletion 2 (descr 16384) true) fetching).chanAt 2).xfer).map (·.status) = some 2
    ∧ (((go (.readCompletion 2 (descr 0) true) fetching).chanAt 2).xfer).map (·.status) = some 2 := by decide +kernel

/-- Three of five bytes stand in the channel's buffer, or all. -/
def beating (len : Nat) : State := chan 0 { st := 1, reads := 0, xfer := some { ring := 9, desc := 0, stage := .read, len := len, asked := len, buf := [1, 2, 3], eop := true } }
def writing : State := chan 1 { st := 1, xfer := some { ring := 9, desc := 0, stage := .write, addr := 0x500, len := 64, data := [7, 8], eop := true } }

theorem wit_reads : (((go (.readCompletion 2 [] false) fetching).chanAt 2).xfer).map (fun x => (x.stage, x.status)) = some (.back, 3)
    ∧ (((go (.readCompletion 2 [4, 5, 6] true) (chan 0 { st := 1, reads := 1, xfer := some { ring := 9, desc := 0, stage := .read, len := 2, asked := 2 } })).chanAt 2).xfer).map (·.buf)
      = some [4, 5]
    ∧ (((go (.readCompletion 2 [] true) (chan 1 { st := 1, reads := 1, xfer := some { ring := 9, desc := 0, stage := .flush } })).chanAt 2).xfer).map (fun x => (x.stage, x.status))
      = some (.back, 0)
    ∧ ((go (.readCompletion 2 [] false) (chan 2 { st := 1, reads := 1, xfer := some { ring := 9, desc := 0, stage := .flush } })).ringAt 9).lost = 1
    ∧ (((go (.readCompletion 2 (descr 64) true) ((chan 1 { st := 1, reads := 1, xfer := some { ring := 9, desc := 0, stage := .desc } }).setRing 9 { recs := [⟨[7, 8], 6⟩] })).chanAt 2).xfer).map
        (fun x => (x.stage, x.data, x.stamp)) = some (.write, [7, 8], 6) := by decide +kernel

theorem wit_beats : (beating 3).chanRuns 2 = true ∧ ((beating 3).chanAt 2).xfer.map (·.beatReady 0) = some true
    ∧ (go (.beatMove 2) (beating 3)).hd.inject = [⟨9, [1, 2, 3], 2, false⟩]
    ∧ Out.hostWrite 0 0x500 [7, 8] {} ∈ (go (.beatMove 2) writing).out
    ∧ Out.hostWrite 0 0x500 [7, 8] ⟨true, true⟩ ∈ (go (.beatMove 2) (put writing [(F.HD_CH_CTRL_ro_en, 1, 2), (F.HD_CH_CTRL_ns_en, 1, 2)])).out
    ∧ (((go (.beatMove 2) (beating 99)).chanAt 2).xfer.map (·.moved)) = some 3 ∧ (writing.chanAt 2).xfer.map (·.beatReady 0) = some true := by decide +kernel

theorem wit_owed : (go (.descriptorWriteback 2) ((chan 0 {}).setRing 9 { owed := [{ ring := 9, desc := 0, stage := .back }] })).ringHead 9 = 1
    ∧ ((chan 0 {}).setRing 9 { owed := [{ ring := 9, desc := 0, stage := .back }] }).owing 2 = [9]
    ∧ (((go (.readCompletion 2 (descr 64) true) (fetching.setRing 9 { spoilt := 3 })).chanAt 2).xfer).map (·.status) = some 3
    ∧ ((go (.channelStop .pf 2) (chan 2 { st := 1, xfer := some { ring := 9, desc := 0, stage := .write } })).ringAt 9).events.length = 1
    ∧ go (.descriptorWriteback 2) (put (chan 0 { xfer := some { ring := 9, desc := 0, stage := .back } }) [(F.HD_CH_CTRL_pause, 1, 2)])
      = put (chan 0 { xfer := some { ring := 9, desc := 0, stage := .back } }) [(F.HD_CH_CTRL_pause, 1, 2)] := by decide +kernel

theorem wit_writeback : (go (.descriptorWriteback 2) (chan 0 { st := 1, xfer := some { ring := 9, desc := 0, stage := .back } })).ringHead 9 = 1
    ∧ (go (.descriptorWriteback 2) (chan 2 { st := 1, xfer := some { ring := 9, desc := 0, stage := .back } })).ringTail 9 = 1 := by
  decide +kernel

theorem wit_link : (go (.vfFlr 4) (ready 0x400)).Raised 11 5 0xA004 0 ∧ (go .pfFlr (ringed 0)).ringOn 9 = false
    ∧ (go .pcieLinkDown (ringed 0)).hd = {} ∧ endpoint.speeds.contains 4 = true ∧ endpoint.widths.contains 8 = true ∧ go (.pcieLinkUp 4 3) (ready 0) = ready 0
    ∧ (go (.vfCfgWrite .pf 4 0x107) (ready 0x400)).rd F.HD_VF_CFG_tenant 4 = 7
    ∧ (go (.vfCfgWrite .pf 4 0x107) (put (ringed 0) [(F.HD_RING_CFG_owner, 5, 9), (F.GLB_FEAT_ACCEPT_accept, 0x400, 0), (F.GLB_FEAT_LOCK_lock, 1, 0)])).rd F.HD_STATUS_cfg_err = 1
    ∧ go (.vfCfgWrite .pf 4 0x107) (ready 0) = ready 0
    ∧ (go (.vfFlr 4) (put (ringed 0) [(F.HD_RING_CFG_owner, 5, 9)])).ringOn 9 = false ∧ (go (.vfFlr 4) (ringed 0)).ringOn 9 = true
    ∧ (go (.vecMapWrite .pf 4 5) (ready 0)).rd F.HD_VEC_MAP_fn 4 = 5
    ∧ (go (.vecMapWrite .pf 4 0x85) (put (ready 0) [(F.HD_VEC_MAP_valid, 1, 6), (F.HD_VEC_MAP_fn, 5, 6)])).rd F.HD_STATUS_cfg_err = 1
    ∧ vfMapped 0x3FFC = false ∧ (go (.vfUnmappedAccess 4 0x3FFC false) (ready 0x400)).Raised 11 5 0xA005 0x3FFC := by decide +kernel

/-! ### Pair and cascade -/

/-- A device of a pair in RUN. -/
def pair (role : Role) (odd : Bool) (b : Belay) (x : Pr := {}) : State :=
  { running 0x880 role with belay := b, pr := x, pw := { straps := ⟨if odd then 3 else 2, false, false⟩ } }

theorem wit_belay : (pair .active false {}).feat 7 = true ∧ (pair .active true { claim := true, laser := true }).Powered
    ∧ (go .belaySeenEdge (pair .active true { claim := true, laser := true })).glb.role = .standby
    ∧ (go .belaySeenEdge (pair .active false { claim := true, laser := true })).belay = { claim := true, seen := true, laser := false }
    ∧ (go .belaySeenTimeout (at_ (400 * 2 ^ 40) (pair .solo false { seen := true }))).belay
      = { claim := true, claimAt := 400 * 2 ^ 40, freeAt := 400 * 2 ^ 40 }
    ∧ go .belaySeenTimeout (at_ (400 * 2 ^ 40 - 1) (pair .solo false { seen := true })) = at_ (400 * 2 ^ 40 - 1) (pair .solo false { seen := true })
    ∧ (go .belaySeenEdge (at_ 7 (pair .solo false { seen := true }))).belay = { seen := true, edgeAt := 7 } := by decide +kernel

theorem wit_settle : (go .laserSettle (at_ (2 * microsecond) (pair .active false { claim := true }))).belay.laser = true
    ∧ (go .laserSettle (at_ (2 * microsecond) (pair .active false { claim := true, claimAt := 1 }))).belay.laser = false
    ∧ (go .laserSettle (at_ (2 * microsecond) (pair .standby false { claim := true } { cause := 1 }))).glb.role = .active
    ∧ (go .laserSettle (at_ (2 * microsecond) (pair .standby false { claim := true } { cause := 1 }))).Raised 9 0 0x8001 257 := by decide +kernel

theorem wit_health : (go (.healthRecord 0x40) (pair .active false { claim := true } { pairLink := some 0 })).pr.sync = 3
    ∧ (go (.healthRecord 5) (pair .standby false {} { everSync := true, sync := 3 })).belay.claim = true
    ∧ (go (.healthRecord 5) (pair .standby false {} { everSync := true, sync := 3 })).pr.cause = 1
    ∧ (go (.healthRecord 0x25) (pair .standby false {} { everSync := true, sync := 3 })).pr.cause = 2
    ∧ (go (.healthRecord 0x02) (pair .standby false {} { everSync := true, sync := 3 })).belay.claim = false
    ∧ (go .healthRecordSend (pair .active false {} { ropes := [(0, { st := 2 })] })).out.length = 1
    ∧ go .healthRecordSend (running 0 .solo) = running 0 .solo
    ∧ (go .healthTimeout { pair .active false {} with ts := { run := 10 ^ 9 * 2 ^ 40 } }).Raised 9 0 0x8003 0
    ∧ (go .belowFloorHeld (at_ millisecond { put (pair .active false {}) [(F.GLB_PACE_below_floor, 1, 0)] with lasting := { floor := some 0 } })).pr.floorHeld = true
    ∧ (go .belowFloorHeld (at_ millisecond { put (pair .active false {}) [(F.GLB_PACE_below_floor, 1, 0)] with lasting := { floor := some 1 } })).pr.floorHeld = false
    ∧ (go .holdoverEnter (at_ millisecond { pair .follower false {} with lasting := { path := some 0 } })).pr.holdover = true
    ∧ (go .holdoverEnter (at_ millisecond { pair .follower false {} with lasting := { path := some 1 } })).pr.holdover = false := by decide +kernel

theorem wit_pairCmds : (pair .active false {}).Owner .pf ∧ (go (.pairYield .pf) (pair .solo false {})).rd F.PR_PAIR_CMD_STATUS_result = 2
    ∧ (go (.pairYield .pf) (pair .active false {})).rd F.PR_PAIR_CMD_STATUS_result = 3
    ∧ (go (.pairYield .pf) (pair .active false {} { peer := some 0x40 })).pr.yieldAt = some (1, 2)
    ∧ (go (.pairYield .pf) { pair .active false {} { peer := some 0x40 } with ts := { phase := 19000 } }).pr.yieldAt = some (2, 2)
    ∧ (go (.pairTake .pf) (pair .standby false {})).belay.claim = true
    ∧ (go (.pairTake .pf) (pair .standby false { seen := true })).rd F.PR_PAIR_CMD_STATUS_result = 4
    ∧ (go (.pairResync .pf) (pair .standby false {} { pairLink := some 0, sync := 3, ropes := [(0, { st := 2 })] })).out = [.rope 0 0x30 [1]]
    ∧ (go (.pairResync .pf) (pair .active false {})).rd F.PR_PAIR_CMD_STATUS_result = 2 := by decide +kernel

/-- Imhus runs. -/
def withImhus (s : State) (i : Imhus := {}) : State := { s with imh := { i with loaded := true } }

/-- A revertive active whose standby has been synchronised for the hold-off of 1 s. -/
def reverting (odd : Bool) : State :=
  { put (pair .active odd {} { revertFrom := some 0, peer := some 0x40, peerAt := 10 ^ 9 * 2 ^ 40 })
    [(F.PR_PAIR_CFG_revertive, 1, 0), (F.PR_PAIR_CFG_revert_hold, 1, 0)] with ts := { run := 10 ^ 9 * 2 ^ 40 } }

theorem wit_yield : reached 1 1 = true ∧ reached 0 1 = false
    ∧ (go .yieldInstant { pair .active false { claim := true } { yieldAt := some (1, 2) } with ts := { frame := 1 } }).glb.role = .standby
    ∧ (go .revertHoldExpire (reverting true)).pr.yieldAt = some (1, 3) ∧ go .revertHoldExpire (reverting false) = reverting false
    ∧ (go .takeUnsynced (at_ second (withImhus { pair .standby false {} { absent := true } with
        glb := { dev := .run, modeIn := true, level := 1, role := .standby }, lasting := { absent := some 0 } } { takeUnsynced := true }))).belay.claim = true
    ∧ (pair .active false {}).timeOk = true ∧ go .timeOkYield (pair .active false {}) = pair .active false {} := by decide +kernel

/-- The groups of a rope lane of all-zero payload at place k with count n, from a scrambler and to a descrambler that start from 0. -/
def ropeLane (k n : Nat) : List (BitVec 20) := (sendWords 0 (ropeLaneWords k n (List.replicate 253 0))).2.map (BitVec.ofNat 20)
def roped (r : Rope) : State := { pair .active false {} { ropes := [(1, r)] } with lanes := [(168, { st := .up }), (169, { st := .up })] }

set_option maxRecDepth 100000 in
theorem wit_rope : ((go (.ropeFrame 1 [ropeLane 0 7]) (roped { st := 2, lanes := [0], count := some 6, bad := 2 })).rope 1).good = 1
    ∧ ((go (.ropeFrame 1 [ropeLane 0 7]) (roped { st := 2, lanes := [0], count := some 5 })).rope 1).bad = 1
    ∧ (go (.ropeFrame 1 [ropeLane 0 7]) (roped { st := 1, lanes := [0], count := some 6, good := 3 })).Raised 9 1 0x8010 1 := by decide +kernel

theorem wit_ropeErrors : (go (.ropeFrame 1 [[]]) (roped { st := 2, lanes := [0, 1], bad := 2 })).Raised 9 1 0x8011 0
    ∧ (go (.ropeFrame 1 [[]]) (roped { st := 2, lanes := [0, 1] })).rd F.PR_ROPE_ERR_errored 1 = 1
    ∧ ((go (.ropeFrame 1 [List.replicate 16 0]) (roped { st := 2, lanes := [0] })).lane 168).st = .training
    ∧ (go (.restripeComplete 1) (roped { st := 2, lanes := [0, 1], restripe := true })).Raised 9 1 0x8012 2
    ∧ (go (.ropePartnerAbsent 1) (at_ (200 * millisecond) (roped {}))).Raised 9 1 0x8008 0
    ∧ go (.ropePartnerAbsent 1) (at_ (200 * millisecond) (roped { from_ := 1 })) = at_ (200 * millisecond) (roped { from_ := 1 }) := by decide +kernel

def helloOf (role accept : Nat) : HelloMsg := ⟨3, 2, true, 0, BitVec.ofNat 2 role, BitVec.ofNat 14 accept, false⟩

theorem wit_hello : (roped { st := 2 }).rd F.GLB_FEAT_ACCEPT_accept = 0x880
    ∧ (put (roped { st := 2 }) [(F.PR_PAIR_CFG_pair_port, 1, 0)]).pairConflict (helloOf 2 0x880) = none
    ∧ (go (.hello 1 (helloOf 2 0x880)) (put (roped { st := 2 }) [(F.PR_PAIR_CFG_pair_port, 1, 0)])).pr.pairLink = some 1
    ∧ (go (.hello 1 (helloOf 2 0x80)) (put (roped { st := 2 }) [(F.PR_PAIR_CFG_pair_port, 1, 0)])).pr.pairLink = none
    ∧ (go (.helloSend 1) (roped { st := 2 })).out = [.rope 1 0x01 [2, 0, 0, 0, 1, 0x880, 0]]
    ∧ (go (.timeMessageSend 1) (roped { st := 2, arrival := 9 })).out.length = 1
    ∧ ((go (.timeMessage 1 (256 * 100) 0 (256 * 140)) (roped { st := 2, sentAt := 256 * 20 })).rope 1).offset = 30 := by decide +kernel

/-- A member of a cascade. -/
def member : State := put { running 0x8C0 .solo with pr := { ropes := [(0, { st := 2 }), (1, { st := 2 })] } }
  [(F.PR_CASC_CFG_casc_en, 1, 0), (F.PR_CASC_CFG_casc_id, 1, 0)]

theorem wit_cascade : member.cascWorks = true ∧ (go (.cascadeMessage 1 (.health 2 5 1 true)) member).pr.members.get {} 2 = ⟨5, 2, true, 1, 0⟩
    ∧ Out.rope 0 0x40 [0, 2, 5, 2, 1] ∈ (go (.cascadeMessage 1 (.health 2 5 1 true)) member).out
    ∧ Out.rope 1 0x40 [0, 1, member.health, 0, b2n member.qualifies] ∈ (go .healthRecordSend member).out
    ∧ (go (.cascadeMessage 1 (.registry 2 77 true)) member).pr.registry = [(2, 77)]
    ∧ (go (.portLatencies [(5, 7, 8)]) (pair .active false {})).peerLat 5 = (7, 8) := by decide +kernel

/-! ### Cairns -/

/-- A synchronised standby that has applied cairn 9. -/
def mirror (x : Pr := {}) : State := pair .standby false {} { x with pairLink := some 1, sync := 3, cnApplied := some 9, ropes := [(1, { st := 2 })] }
def nullMap : MapRec := ⟨[], [], []⟩

theorem wit_cairns : mirror.isStandby = true ∧ mirror.cnNext = 10 ∧ cnAfter 9 9 = false ∧ cnAfter 10 9 = true
    ∧ go (.mapCairn 9 0 5 3 nullMap) mirror = mirror
    ∧ ((go (.mapCairn 10 0 5 3 nullMap) mirror).port 5).maps.get none 3 = some nullMap ∧ (go (.mapCairn 10 0 5 3 nullMap) mirror).pr.cnApplied = some 10
    ∧ ((go (.ploamCairn 10 0 5 3 0 [.deactivate 7]) mirror).port 5).mirPloam.get [] 3 = [.deactivate 7]
    ∧ ((go (.stateCairn 10 0 (.allocContext 9 [2 ^ 17 + 1100, 7])) mirror).alloc 9).allocId = 1100
    ∧ (go (.keepCairn 10 0 5 (List.replicate 511 0 ++ [77])) mirror).ge.keep.get 0 3071 = 77
    ∧ ((go (.stateCairn 10 0 (.context 7 3 5 42 (some 99) 160 none)) mirror).ctx 7).onu = 42
    ∧ ((go (.stateCairn 10 0 (.keySwitched 7 true)) mirror).keyCtx 7).active = true
    ∧ (go (.commandCairn 10 0 ⟨[(BitVec.ofNat 22 (F.UB_THRESH_lobi_n.off / 4), 0x7005)], none, 0⟩) mirror).rd F.UB_THRESH_lobi_n = 5
    ∧ (go (.commandCairn 10 0 ⟨[(BitVec.ofNat 22 (F.UB_THRESH_lobi_n.off / 4), 0x7005)], none, 0⟩) mirror).rd F.UB_THRESH_reasm_frames = 7
    ∧ (go (.commandCairn 10 0 ⟨[(BitVec.ofNat 22 (F.UB_THRESH_lobi_n.off / 4), 0x7005)], none, 0⟩) mirror).pr.cnApplied = some 10
    ∧ (go (.mapCairn 12 0 5 3 nullMap) mirror).pr.asked = some 10 ∧ (go (.mapCairn 12 0 5 3 nullMap) mirror).pr.waiting.length = 1 := by
  decide +kernel

/-- A commit of the rules, while a generation of theirs retires. -/
def commitCmd : OwnerCmd := ⟨[(BitVec.ofNat 22 (F.CL_RULE_COMMIT_commit.off / 4), 1)], none, 0⟩
def retiring (s : State) : State := { s with gens := Tab.set {} [] (objNo .rules) { ret := some 1 } }

theorem wit_commitWaits : (retiring mirror).mustWait (.command commitCmd) = true
    ∧ (go (.commandCairn 10 0 commitCmd) (retiring mirror)).pr.waiting.length = 1
    ∧ (go .commitWaitTimeout (at_ (10 * millisecond + 1) { retiring (mirror { waiting := [(10, .command commitCmd)] }) with lasting := { commit := some (10, 0) } })).pr.sync = 1
    ∧ (go .commitWaitTimeout (at_ (10 * millisecond) { retiring (mirror { waiting := [(10, .command commitCmd)] }) with lasting := { commit := some (10, 0) } })).pr.sync = 3 := by decide +kernel

theorem wit_snapshots : (go (.snapshotRecord 3 ⟨0, (.keep 5 [])⟩) (pair .standby false {} { pairLink := some 1, sync := 1 })).pr.snap.length = 1
    ∧ (go (.snapshotEnd 30) (pair .standby false {} { pairLink := some 1, sync := 1 })).pr.cnApplied = some 30
    ∧ (go (.replayRequest 4 false) (pair .active false {} { pairLink := some 1, ropes := [(1, { st := 2 })], stream := [(5, 0, .keep 5 []), (4, 0, .keep 5 []), (3, 0, .keep 5 [])] })).out.length = 2
    ∧ (go .cairnRequestTimeout (at_ (millisecond + 1) (mirror { asked := some 10 }))).pr.sync = 4
    ∧ ((go (.stateCairn 10 0 (.preset 7 2)) (pair .active false {} { pairLink := some 1 })).preset 7).peer = pstOf 2 := by decide +kernel

/-- A standby with no map for the frame that starts in some cycles. -/
def lacking (left : Nat) : State := { put (mirror.setPort 5 { framing := true }) [(F.GE_TREE_CFG_gp_en, 1, 5)] with ts := { phase := 19440 - left } }

theorem wit_late : (go (.cairnLate 5) (lacking 1555)).Raised 9 0 0x8007 5 ∧ (go (.cairnLate 5) (lacking 1555)).pr.lateRun.get 0 5 = 1
    ∧ go (.cairnLate 5) (lacking 1556) = lacking 1556 := by decide +kernel

/-- What must last is noted as time begins to pass (R388, R407). -/
theorem test_watch : (pair .follower false {}).idle.lasting.path = some 0
    ∧ ({ pair .follower false {} with lasting := { path := some 7 } } : State).idle.lasting.path = some 7
    ∧ ({ pair .active false {} with lasting := { path := some 7 } } : State).idle.lasting.path = none
    ∧ (put (at_ 5 (pair .active false {})) [(F.GLB_PACE_below_floor, 1, 0)]).idle.lasting.floor = some 5 := by decide +kernel

/-- A snapshot record carries the cn of its object's last change, the number before 0 where no cairn of the link named it (R384). -/
theorem test_snapshot_cn : (pair .active false {} { stamps := [(9 + 5 * 16, 8)] }).recCn (.keep 5 []) = 7
    ∧ (pair .active false {} { stamps := [(0, 3)] }).recCn (.register 1 0) = 2 ∧ (pair .active false {}).recCn (.keep 5 []) = 2 ^ 32 - 1
    ∧ ((pair .active false {} { pairLink := some 1 }).sendCairn (.keep 5 [])).pr.stamps = [(9 + 5 * 16, 1)] := by decide +kernel

/-! ### Imhus -/

/-- A device of level 1 in RUN whose mailbox holds a request of a code with these payload words; n bytes, tag 9. -/
def asking (code n : Nat) (ws : List Nat) (i : Imhus := {}) (feats : Nat := 0x100) (level : Nat := 1) : State :=
  withImhus (put (running feats .solo level) ([(F.GLB_MBX_STATUS_busy, 1, 0), (F.GLB_MBX_REQ_word, n * 2 ^ 16 + 9 * 2 ^ 8 + code, 0)]
    ++ ws.zipIdx.map (fun e => (F.GLB_MBX_REQ_word, e.1, e.2 + 1)))) i

theorem wit_asked : (asking 0x01 0 []).Asked 0x01 1 ∧ (go .version (asking 0x01 0 [])).imh.cmd.isSome = true ∧ (go .status (asking 0x02 0 [])).imh.cmd.isSome = true
    ∧ (go .digest (asking 0x03 0 [])).imh.cmd.map (·.headD 9) = some 0 ∧ (go .alarmList (asking 0x30 2 [])).imh.cmd.isSome = true
    ∧ (go .alarmCfg (asking 0x31 8 [])).imh.cmd = some [0] ∧ (go .pairPolicy (asking 0x41 8 [])).imh.cmd = some [0]
    ∧ (asking 0x51 4 [] {} 0x300 2).Asked 0x51 2 ∧ (go .ptpCfg (asking 0x51 4 [5] {} 0x300 2)).imh.ptp = some [5, 0, 0, 0]
    ∧ (go .ptpCfg (asking 0x51 4 [5])).imh.cmd = some [5] ∧ (asking 0x70 4 [5]).Asked 0x70 1 := by decide +kernel

/-- Template 5 kept, and bound. -/
def template5 : Imhus := { templates := [(5, { body := [1], whole := true })] }
def bound5 : Imhus := { template5 with bindings := [⟨2 ^ 32 + 2, 3, 5, 0, 0xFFFF, false⟩] }

theorem wit_templates : (go .templatePut (asking 0x10 5 [2 ^ 31 + 5, 0x77])).template 5 = { body := [0x77], whole := true }
    ∧ (go .templateDel (asking 0x11 2 [5])).imh.cmd = some [8] ∧ (go .templateDel (asking 0x11 2 [5] bound5)).imh.cmd = some [6]
    ∧ (go .templateDel (asking 0x11 2 [5] template5)).template 5 = {}
    ∧ (asking 0x12 15 []).recordsAct = true
    ∧ (go .apply (asking 0x14 2 [5] template5)).imh.pend.get none 0 = some (9, 0x14) := by decide +kernel

/-- The mode asked for, not yet in force: records do not act. -/
def stagedMode (s : State) : State := put { s with glb := { dev := .ready } } [(F.GLB_MODE_mode, 4, 0)]

theorem wit_bindings : (stagedMode (asking 0x12 15 [])).Asked 0x12 1 ∧ (stagedMode (asking 0x12 15 [])).recordsAct = false
    ∧ (go .bind (stagedMode (asking 0x12 15 [1, 2, 3 + 5 * 2 ^ 8, 0x1FFFF] template5))).imh.bindings = [⟨2 ^ 32 + 2, 3, 5, 0, 0xFFFF, true⟩]
    ∧ (go .bind (stagedMode (asking 0x12 15 [1, 2, 3 + 5 * 2 ^ 8, 0x1FFFF] bound5))).imh.cmd = some [6]
    ∧ (go .unbind (stagedMode (asking 0x13 8 [1, 2] bound5))).imh.bindings = [] := by decide +kernel

theorem wit_mailbox : (go .termQuery (asking 0x20 8 [0, 77])).imh.cmd = some [8]
    ∧ ((go .termQuery { asking 0x20 8 [0, 99] with ctxs := (inState .operating).ctxs }).imh.cmd.getD []).headD 9 = 0
    ∧ (go .pairOp (asking 0x40 1 [0] {} 0x180)).imh.cmd = some [0] ∧ (go .pairOp (asking 0x40 1 [4] {} 0x180)).imh.cmd = some [5]
    ∧ (go .timeSteer (asking 0x50 13 [0x172D4CE9, 0x066E])).imh.cmd = some [0]
    ∧ (go .timeSteer (asking 0x50 13 [0x172D4CE9, 0x066E])).ts.incrNext = some 0x066E172D4CE9
    ∧ (go .timeSteer { asking 0x50 13 [] with glb := { dev := .run, modeIn := true, level := 1, role := .follower } }).imh.cmd = some [6] := by
  decide +kernel

theorem wit_replies : (go .mailboxReply (asking 1 0 [] { cmd := some [7, 1] })).Raised 0 0 0x0F01 (9 + 7 * 256)
    ∧ (go .mailboxReply (asking 1 0 [] { cmd := some [7, 1] })).rd F.GLB_MBX_STATUS_result = 7
    ∧ (go (.mailboxFinalResult 3 2) (asking 1 0 [] { pend := [(3, some (5, 0x14))] })).Raised 0 0 0x0F02 (5 + 2 * 256)
    ∧ (go (.guideCoreHalt 2) (asking 1 0 [])).glb.dev = .safe ∧ (go (.guideCoreHalt 2) (asking 1 0 [])).rd F.PW_RESET_CAUSE_safe_cause = 2
    ∧ (go (.guideCoreHalt 2) (ready 0)).imh.halted = [2] := by decide +kernel

/-- Terminal 7, Operating, of a bound serial number. -/
def provisioned (o : Omci) : State := { asking 0 0 [] { bindings := [⟨99, 5, 5, 0, 42, false⟩], terms := [(7, o)] } with ctxs := (inState .operating).ctxs }

/-- Both key slots of terminal 7 may be given, slot 0 active, slot 1 free. -/
def rotated : State := (provisioned { held := true, done := true }).setKeyCtx 7 { slot0 := ⟨true, 1⟩ }

theorem wit_rotation : rotated.keyLive 7 true = false ∧ ((go (.keyRotationDue 7 5) (at_ (3600 * second) rotated)).keyCtx 7).slot1 = ⟨true, 5⟩
    ∧ go (.keyRotationDue 7 5) (at_ (3600 * second - 1) rotated) = at_ (3600 * second - 1) rotated
    ∧ ((go (.keyRotationDue 7 5) (at_ (3600 * second) rotated)).keyCtx 7).slot0 = ⟨true, 1⟩
    ∧ ((go (.keyRotationDue 7 5) (at_ (3600 * second) rotated)).keyCtx 7).pend.isSome = true
    ∧ rotated.recordsAct = true ∧ rotated.on F.TP_KEY_STATUS_busy 5 = false := by decide +kernel

/-- Terminal 7's MIB reset has had n tries. -/
def retrying (n : Nat) : Omci := { tries := n, held := true, todo := [mibReset], whole := [mibReset] }

theorem wit_provision : (provisioned {}).bindingOf 7 ≠ none
    ∧ ((go (.keyRotationDue 7 5) (provisioned { held := true })).keyCtx 7).slot0 = ⟨true, 5⟩
    ∧ (go (.keyRotationDue 7 5) (provisioned { held := true })).imh.flowsDue = [7]
    ∧ ((go (.omciRetry 7) (at_ second (provisioned (retrying 2)))).omci 7).tries = 3
    ∧ Out.omci 7 3 mibReset ∈ (go (.omciRetry 7) (at_ second (provisioned (retrying 2)))).out
    ∧ ((go (.omciRetry 7) (at_ (second - 1) (provisioned (retrying 2)))).omci 7).tries = 2
    ∧ ((go (.omciRetry 7) (at_ second (provisioned (retrying 3)))).omci 7) = { retrying 3 with alarm := true }
    ∧ (go (.omciRetry 7) (at_ second (provisioned (retrying 3)))).imh.roots = [(.omci, .term 7, 0)]
    ∧ ((go (.omciRetry 7) (at_ (60 * second) (provisioned (retrying 3)))).omci 7).tries = 1
    ∧ go (.omciRetry 7) (provisioned {}) = provisioned {} := by decide +kernel

def troubled (o : Omci) (l : List Alarm) : State := { at_ (10 * second) (provisioned o) with
  lasting := { roots := [(.omci, .term 7, o.alarm, 0)] }, imh := { (provisioned o).imh with roots := [(.omci, .term 7, 4)], alarms := l } }

theorem wit_alarms : (troubled { alarm := true } []).rootHeld .omci (.term 7) = true ∧ (troubled { alarm := true } []).suppressed .omci (.term 7) = false
    ∧ (go (.alarmRaiseSoak .omci (.term 7)) (troubled { alarm := true } [])).imh.alarms.map (·.root) = [4]
    ∧ (go (.alarmClearSoak .omci (.term 7)) (troubled {} [⟨12, .omci, .term 7, 0, 4⟩])).imh.alarms = []
    ∧ (go (.alarmClearSoak .omci (.term 7)) (troubled {} [⟨12, .omci, .term 7, 0, 4⟩])).Raised 0 0 0x0F11 12
    ∧ go (.alarmClearSoak .omci (.term 7)) (troubled {} []) = troubled {} []
    ∧ (go (.alarmRaiseSoak .omci (.term 7)) (troubled { alarm := true } (List.replicate 4096 ⟨12, .omci, .term 8, 0, 4⟩))).imh.overflow.isSome = true := by
  decide +kernel

/-! ### Commands that are not well formed -/

theorem wf_bursts : Instr.wf (.fsHeaderReceived 5 97200 7 [] 0 ⟨true, false⟩) = false ∧ Instr.wf (.codewordRelease 5 97200 9 ⟨1, 2, some 0, none, false, []⟩) = false := by decide +kernel

theorem wf_refuses : Instr.wf (.burstArm 5 97200) = false ∧ Instr.wf (.serialNumberOnu 5 7 97200) = false ∧ Instr.wf (.unexpectedEnergy 5 97200) = false
    ∧ Instr.wf (.burstClose 5 97200 ⟨[], 0, 0, 0⟩) = false ∧ Instr.wf (.delimiterWindowClose 5 97200) = false
    ∧ Instr.wf (.ploamuReceived 5 0 true [1]) = false ∧ Instr.wf (.packetArrival 64 { arrival with bytes := [] }) = false
    ∧ Instr.wf (.portLatencies [(5, 1, 1), (5, 2, 2)]) = false ∧ Instr.wf (.ropeFrame 1 []) = false
    ∧ Instr.wf (.ploamCairn 1 1 5 3 0 (List.replicate 5 (.deactivate 7))) = false ∧ Instr.wf (.keepCairn 1 1 5 [0]) = false
    ∧ Instr.wf (.avsPeriod [] 0) = false ∧ Instr.wf (.thermalSample [1]) = false ∧ Instr.wf (.alarmRaiseSoak .omci .device) = false
    ∧ Instr.wf (.alarmClearSoak .time (.tree 5)) = false ∧ Instr.wf (.scrubRead (.row 7 3 4) [68]) = false
    ∧ Instr.wf (.scrubRead (.line 3 4) [42]) = false ∧ Instr.wf (.grantLd 5 3 1 6 (some ⟨0, 3, [68]⟩)) = false
    ∧ Instr.wf (.fetchComplete 3 [[42]]) = false ∧ Instr.wf (.keepCairn 1 1 5 (List.replicate 512 0)) = true
    ∧ Instr.wf (.mapCairn 1 1 5 3 { nullMap with wins := List.replicate 1025 ⟨0, 1, 1000, 4000, 100, 500, none, 0⟩ }) = false := by decide +kernel

/-- A dying gasp followed by LOBi within 1 s is a loss of power, which suppresses the terminal's LOBi alarm (R422). -/
theorem test_power : ((at_ second ((provisioned {}).setTrx 7 { dyingAt := some 0 })).powerCheck 7 4).imh.roots = [(.powerLoss, .term 7, 4)]
    ∧ ((at_ (second + 1) ((provisioned {}).setTrx 7 { dyingAt := some 0 })).powerCheck 7 4).imh.roots = []
    ∧ ({ (provisioned {}).setTrx 7 { defects := 1 } with imh := { roots := [(.powerLoss, .term 7, 4)] } } : State).suppressed .terminalLost (.term 7) = true := by
  decide +kernel

end Sys2Proof.Tests
end

section
/-! SUPPORT. The proofs about features and mode (R18, R19): what a command that acts through act answers where its change keeps the queue
and the gate, who may write the GLB registers, one lemma per outcome of the three writes, and the read of GLB_FEAT_ACCEPT. -/

namespace Sys2Proof.Machine

/-! ### What act answers, by the change made -/

/-- A powered device that the command leaves as it is. -/
theorem act_unchanged {s : State} {f : State → State} (h : s.Powered) (hf : f s = s) : act s f = .next s := by
  rw [act_powered s f h (by rw [hf]) (by rw [hf]), hf]

/-- A powered device that the command changes beside the queue and the gate of LASER_EN. -/
theorem act_changed {s t : State} {f : State → State} (h : s.Powered) (hf : f s = t) (hp : t.pending = s.pending)
    (hb : t.belay = s.belay) : act s f = .next t := by
  subst hf
  exact act_powered s f h hp hb

/-- Register fields read the field store alone. -/
theorem State.rd_of_rf_eq {s t : State} (h : t.rf = s.rf) (f : Fld) (i : Nat) : t.rd f i = s.rd f i := by
  simp [State.rd, h]

theorem bit_zero_eq_false_iff (n : Nat) : bit n 0 = false ↔ n % 2 = 0 := by simp [bit]

theorem bit_zero_eq_true_iff (n : Nat) : bit n 0 = true ↔ n % 2 = 1 := by simp [bit]

/-- The model's bit is the library's testBit. -/
theorem bit_eq_testBit (n i : Nat) : bit n i = n.testBit i := by
  rw [bit, Nat.testBit_eq_decide_div_mod_eq, beq_eq_decide]

/-- A mask, cut to the width of its field, bit by bit. -/
theorem bit_and_mod_two_pow (a b : Nat) {w n : Nat} (h : n < w) : bit ((a &&& b) % 2 ^ w) n = (bit a n && bit b n) := by
  simp [bit_eq_testBit, Nat.testBit_mod_two_pow, Nat.testBit_and, h]

/-! ### Who writes the GLB registers (R22, R512) -/

theorem State.pcieBoot_of_ready {s : State} (hd : s.glb.dev = .ready) : s.pcieBoot = false := by
  simp [State.pcieBoot, hd]

theorem State.mayRequest_of_ready {s : State} {r : Requester} (hr : IsHost r) (hd : s.glb.dev = .ready) : s.mayRequest r = true := by
  obtain rfl | rfl := hr <;> simp [State.mayRequest, State.pcieBoot_of_ready hd]

/-! ### GLB_FEAT_ACCEPT (R18) -/

theorem exec_featAcceptWrite_ignored {s : State} (r : Requester) (v : Word) (h : s.Powered)
    (hc : s.glb.dev ≠ .ready ∨ s.on F.GLB_FEAT_LOCK_lock 0 = true) : exec (.featAcceptWrite r v) s = .next s := by
  change execFeatAcceptWrite r v s = _
  unfold execFeatAcceptWrite
  refine act_unchanged h (if_pos ?_)
  obtain hd | hl := hc
  · simp [hd]
  · simp [hl]

theorem exec_featAcceptWrite_stored {s : State} {r : Requester} (v : Word) (h : s.Powered) (hr : IsHost r) (hd : s.glb.dev = .ready)
    (hl : s.on F.GLB_FEAT_LOCK_lock 0 = false) :
    exec (.featAcceptWrite r v) s = .next (s.wr F.GLB_FEAT_ACCEPT_accept (v.toNat &&& s.rd F.GLB_FEAT_OFFER_offer)) := by
  change execFeatAcceptWrite r v s = _
  unfold execFeatAcceptWrite
  exact act_changed h (if_neg (by simp [State.mayRequest_of_ready hr hd, hd, hl])) rfl rfl

theorem featAcceptWrite_stores_offered_bits {s : State} {r : Requester} (v : Word) (h : s.Powered) (hr : IsHost r)
    (hd : s.glb.dev = .ready) (hl : s.on F.GLB_FEAT_LOCK_lock 0 = false) :
    ∃ t, exec (.featAcceptWrite r v) s = .next t ∧ t = { s with rf := t.rf }
      ∧ ∀ n < 14, bit (t.rd F.GLB_FEAT_ACCEPT_accept) n = (bit v.toNat n && bit (s.rd F.GLB_FEAT_OFFER_offer) n) := by
  refine ⟨_, exec_featAcceptWrite_stored v h hr hd hl, rfl, fun n hn => ?_⟩
  rw [State.rd_wr_same]
  exact bit_and_mod_two_pow _ _ hn

/-- The register of GLB_FEAT_ACCEPT in the table of the GLB block. -/
def regFeatAccept : RegD := ⟨0x18, 1, 4, true, [F.GLB_FEAT_ACCEPT_accept]⟩

theorem regAt_featAccept : regAt 0x18 = some (regFeatAccept, 0, false) := rfl

theorem State.regShown_featAccept {s : State} (hb : s.pcieBoot = false) (hk : s.blkDown 0 = false) :
    s.regShown 0 regFeatAccept 0 = s.rd F.GLB_FEAT_ACCEPT_accept % 2 ^ 14 := by
  have hdec : s.notDecoded regFeatAccept.off = false := by simp [State.notDecoded, hb]
  have habs : s.regAbsent (regFeatAccept.off + 0 * regFeatAccept.stride) = false := rfl
  have hup : s.regDown 0 regFeatAccept.off 0 = false := hk
  have hfld : s.fieldShown 0 0 F.GLB_FEAT_ACCEPT_accept = s.rd F.GLB_FEAT_ACCEPT_accept := rfl
  have hval (get : Fld → Nat) : regFeatAccept.value get = get F.GLB_FEAT_ACCEPT_accept % 2 ^ 14 := by
    simp [RegD.value, regFeatAccept, F.GLB_FEAT_ACCEPT_accept]
  rw [State.regShown, hdec, habs, hup, hval, hval, hfld]
  rfl

/-- A read of the lower slot of GLB_FEAT_ACCEPT answers the register and captures its upper half (R6); the read has no other effect. -/
theorem State.slotRead_featAccept {s : State} (r : Requester) (hb : s.pcieBoot = false) (hk : s.blkDown 0 = false) :
    s.slotRead r 0x18 = { s with
      rdata := s.regShown 0 regFeatAccept 0 % 2 ^ 32
      caps := (r, 0x1C, s.regShown 0 regFeatAccept 0 / 2 ^ 32) :: s.caps.filter (fun c => !(c.1 == r && c.2.1 == 0x1C)) } := by
  have hblk : blockAt 0x18 = some 0 := rfl
  have hdec : s.notDecoded 0x18 = false := by simp [State.notDecoded, hb]
  have habs : s.regAbsent 0x18 = false := rfl
  have hup : s.regDown 0 0x18 0 = false := hk
  simp [State.slotRead, hblk, regAt_featAccept, regFeatAccept, hdec, habs, hup, halfOf, State.readEffects, F.GLB_FEAT_ACCEPT_accept,
    F.IC_TGT_CLAIM_valid, F.GE_FOUND_INFO_valid, F.TS_FRAME_STAMP_stamp, F.TS_FRAME_CNT_count, F.SL_LANE_ERRS_errors]

theorem exec_lowerSlotRead_of_isHost {s : State} {r : Requester} (slot : BitVec 22) (hr : IsHost r) :
    exec (.lowerSlotRead r slot) s = act s (fun s => s.slotRead r (slot.toNat * 4)) := by
  obtain rfl | rfl := hr <;> rfl

theorem exec_lowerSlotRead_featAccept {s : State} {r : Requester} (h : s.Powered) (hr : IsHost r) (hb : s.pcieBoot = false)
    (hk : s.blkDown 0 = false) :
    ∃ t, exec (.lowerSlotRead r (BitVec.ofNat 22 (F.GLB_FEAT_ACCEPT_accept.off / 4))) s = .next t
      ∧ t.rdata = s.rd F.GLB_FEAT_ACCEPT_accept % 2 ^ 14 := by
  rw [exec_lowerSlotRead_of_isHost _ hr]
  refine ⟨_, act_changed h (State.slotRead_featAccept r hb hk) rfl rfl, ?_⟩
  show s.regShown 0 regFeatAccept 0 % 2 ^ 32 = _
  rw [State.regShown_featAccept hb hk]
  omega

/-! ### GLB_FEAT_LOCK (R19) -/

theorem exec_featLockWrite_ignored {s : State} (r : Requester) (v : Word) (h : s.Powered)
    (hc : s.mayRequest r = false ∨ s.on F.GLB_FEAT_LOCK_lock 0 = true ∨ v.toNat % 2 = 0) : exec (.featLockWrite r v) s = .next s := by
  change execFeatLockWrite r v s = _
  unfold execFeatLockWrite
  refine act_unchanged h (if_pos ?_)
  obtain hm | hl | hv := hc
  · simp [hm]
  · simp [hl]
  · simp [(bit_zero_eq_false_iff _).2 hv]

/-- The first missing prerequisite in the order of R17 decides what failing_bit reads. -/
theorem exec_featLockWrite_refused {s : State} {r : Requester} {v : Word} {b q : Nat} (h : s.Powered) (hr : IsHost r)
    (hd : s.glb.dev = .ready) (hl : s.on F.GLB_FEAT_LOCK_lock 0 = false) (hv : v.toNat % 2 = 1)
    (hf : featPrereq.find? (fun e => bit (s.rd F.GLB_FEAT_ACCEPT_accept) e.1 && !bit (s.rd F.GLB_FEAT_ACCEPT_accept) e.2) = some (b, q)) :
    exec (.featLockWrite r v) s = .next ((s.wr F.GLB_FEAT_LOCK_lock_status 1).wr F.GLB_FEAT_LOCK_failing_bit b) := by
  change execFeatLockWrite r v s = _
  unfold execFeatLockWrite
  refine act_changed h ?_ rfl rfl
  simp [State.mayRequest_of_ready hr hd, hd, hl, (bit_zero_eq_true_iff _).2 hv, hf]

theorem exec_featLockWrite_accepted {s : State} {r : Requester} {v : Word} (h : s.Powered) (hr : IsHost r)
    (hd : s.glb.dev = .ready) (hl : s.on F.GLB_FEAT_LOCK_lock 0 = false) (hv : v.toNat % 2 = 1)
    (hf : featPrereq.find? (fun e => bit (s.rd F.GLB_FEAT_ACCEPT_accept) e.1 && !bit (s.rd F.GLB_FEAT_ACCEPT_accept) e.2) = none) :
    ∃ t, exec (.featLockWrite r v) s = .next t
      ∧ t.rf = (((s.wr F.GLB_FEAT_LOCK_lock 1).wr F.GLB_FEAT_LOCK_lock_status 0).wr F.GLB_FEAT_LOCK_failing_bit 0).rf := by
  change ∃ t, execFeatLockWrite r v s = .next t ∧ _
  unfold execFeatLockWrite
  by_cases h11 : bit (s.rd F.GLB_FEAT_ACCEPT_accept) 11 = true
  · refine ⟨_, act_changed h (t := ((s.wr F.GLB_FEAT_LOCK_lock 1).wr F.GLB_FEAT_LOCK_lock_status 0).wr F.GLB_FEAT_LOCK_failing_bit 0)
      ?_ rfl rfl, rfl⟩
    simp [State.mayRequest_of_ready hr hd, hd, hl, (bit_zero_eq_true_iff _).2 hv, hf, h11]
  · refine ⟨_, act_powered s _ h ?_ ?_, ?_⟩ <;>
      simp [State.mayRequest_of_ready hr hd, hd, hl, (bit_zero_eq_true_iff _).2 hv, hf, h11]

/-- Without a prerequisite missing, the search for one finds none. -/
theorem featPrereq_find_none {a : Nat} (h : featPrereq.all (fun e => !bit a e.1 || bit a e.2) = true) :
    featPrereq.find? (fun e => bit a e.1 && !bit a e.2) = none := by
  rw [List.find?_eq_none]
  intro e he
  have hok := List.all_eq_true.1 h e he
  cases hb : bit a e.1 <;> simp_all

/-- Bit 9 is the first that the search looks at. -/
theorem featPrereq_find_nine {a : Nat} (h9 : bit a 9 = true) (h8 : bit a 8 = false) :
    featPrereq.find? (fun e => bit a e.1 && !bit a e.2) = some (9, 8) := by
  simp [featPrereq, h9, h8]

theorem featLockWrite_locks {s : State} {r : Requester} {v : Word} (h : s.Powered) (hr : IsHost r)
    (hd : s.glb.dev = .ready) (hl : s.on F.GLB_FEAT_LOCK_lock 0 = false) (hv : v.toNat % 2 = 1)
    (hok : featPrereq.all (fun e => !bit (s.rd F.GLB_FEAT_ACCEPT_accept 0) e.1 || bit (s.rd F.GLB_FEAT_ACCEPT_accept 0) e.2) = true) :
    ∃ t, exec (.featLockWrite r v) s = .next t ∧ t.rd F.GLB_FEAT_LOCK_lock 0 = 1
      ∧ t.rd F.GLB_FEAT_LOCK_lock_status 0 = 0 ∧ t.rd F.GLB_FEAT_ACCEPT_accept 0 = s.rd F.GLB_FEAT_ACCEPT_accept 0 := by
  obtain ⟨t, ht, hrf⟩ := exec_featLockWrite_accepted h hr hd hl hv (featPrereq_find_none hok)
  refine ⟨t, ht, ?_, ?_, ?_⟩ <;> rw [State.rd_of_rf_eq hrf, State.rd_wr_other _ _ _ _ _ _ (by decide)]
  · rw [State.rd_wr_other _ _ _ _ _ _ (by decide), State.rd_wr_same]
    rfl
  · rw [State.rd_wr_same]
    rfl
  · rw [State.rd_wr_other _ _ _ _ _ _ (by decide), State.rd_wr_other _ _ _ _ _ _ (by decide)]

/-! ### GLB_MODE -/

theorem exec_modeWrite_ready {s : State} {r : Requester} (v : Word) (h : s.Powered) (hr : IsHost r) (hd : s.glb.dev = .ready) :
    exec (.modeWrite r v) s = .next (s.wr F.GLB_MODE_mode (v.toNat % 16)) := by
  change execModeWrite r v s = _
  unfold execModeWrite
  refine act_changed h ?_ rfl rfl
  simp [State.mayRequest_of_ready hr hd, hd, bits]

theorem exec_modeWrite_vf {s : State} (i : Fin 64) (v : Word) (h : s.Powered) : exec (.modeWrite (.vf i) v) s = .next s := by
  change execModeWrite (.vf i) v s = _
  unfold execModeWrite
  exact act_unchanged h rfl

/-! ### The obligations -/

/-- Settles O10: each clause is one outcome of the three writes, or the read of GLB_FEAT_ACCEPT. -/
theorem featureAndModeRegistersInReady : Obligations.FeatureAndModeRegistersInReady := by
  unfold Obligations.FeatureAndModeRegistersInReady
  refine ⟨fun s r v hp hr => ⟨?_, ?_, ?_, ?_⟩, fun s r v hp hr hd => ⟨?_, ?_, ?_, ?_, ?_, ?_⟩⟩
  · exact exec_featAcceptWrite_ignored r v hp
  · exact featAcceptWrite_stores_offered_bits v hp hr
  · exact exec_lowerSlotRead_featAccept hp hr
  · exact fun hl n => by simp [State.feat, hl]
  · exact fun hl => exec_featLockWrite_ignored r v hp (.inr (.inl hl))
  · exact fun hv => exec_featLockWrite_ignored r v hp (.inr (.inr hv))
  · exact fun hl hv h9 h8 => exec_featLockWrite_refused hp hr hd hl hv (featPrereq_find_nine h9 h8)
  · exact featLockWrite_locks hp hr hd
  · exact exec_modeWrite_ready v hp hr hd
  · exact fun i => ⟨exec_modeWrite_vf i v hp, exec_featLockWrite_ignored (.vf i) v hp (.inl rfl)⟩

/-- A device in BOOT that waits for its image from the host: BAR0 does not decode GLB_FEAT_LOCK (R512). -/
def bootFromHost : State := { State.reset with pw := { State.reset.pw with straps := ⟨0, false, true⟩ } }

theorem bootFromHost_refuses_pf : bootFromHost.Powered ∧ bootFromHost.glb.dev = .boot ∧ bootFromHost.mayRequest .pf = false
    ∧ bootFromHost.rd F.GLB_FEAT_LOCK_lock 0 = 0 ∧ bootFromHost.rd F.GLB_FEAT_LOCK_lock_status 0 = 0 := by decide +kernel

/-- Refutes O11: the clause "outside READY the write makes lock_status 2" has no premise that BAR0 decodes the register. In BOOT from the
host (R512) the write of 1 reaches no register, and lock_status stays 0. -/
theorem not_refusedLocksLeaveTheirReason : ¬ Obligations.RefusedLocksLeaveTheirReason := by
  unfold Obligations.RefusedLocksLeaveTheirReason
  intro h
  obtain ⟨hpow, hboot, hmay, hlock, hstatus⟩ := bootFromHost_refuses_pf
  obtain ⟨-, houtside, -⟩ := h bootFromHost .pf 1 hpow (.inl rfl)
  have hclaim := houtside (by simp [State.on, hlock]) rfl (by simp [hboot])
  have hkept := exec_featLockWrite_ignored .pf 1 hpow (.inl hmay)
  have hsame : bootFromHost = bootFromHost.wr F.GLB_FEAT_LOCK_lock_status 2 := Host.Outcome.next.inj (hkept.symm.trans hclaim)
  have htwo : bootFromHost.rd F.GLB_FEAT_LOCK_lock_status 0 = 2 := by
    rw [hsame, State.rd_wr_same]
    rfl
  omega

end Sys2Proof.Machine
end

section
/-! SUPPORT. The proof about EVSEQ (R38): what a commit sets going (the doorbell, the event rings, Imhus) commits no event of its own and
takes nothing back of what has left the device. One lemma per operation that a commit can reach, in the order of the model. -/

namespace Sys2Proof.Machine

/-- From s on to t no event commits: the last EVSEQ stands, and what had left the device stands behind what has left since. -/
structure State.EvseqKept (s t : State) : Prop where
  seq : t.evu.seq = s.evu.seq
  out : s.out <:+ t.out

namespace State.EvseqKept

variable {a s : State}

theorem refl (s : State) : s.EvseqKept s := ⟨rfl, List.suffix_rfl⟩

/-! ### Plain updates: the parts of a state other than EVSEQ and what has left -/

theorem rf (h : a.EvseqKept s) (x : Tab Nat) : a.EvseqKept { s with rf := x } := ⟨h.seq, h.out⟩
theorem glb (h : a.EvseqKept s) (x : Glb) : a.EvseqKept { s with glb := x } := ⟨h.seq, h.out⟩
theorem gens (h : a.EvseqKept s) (x : Tab Gen) : a.EvseqKept { s with gens := x } := ⟨h.seq, h.out⟩
theorem ts (h : a.EvseqKept s) (x : Ts) : a.EvseqKept { s with ts := x } := ⟨h.seq, h.out⟩
theorem ic (h : a.EvseqKept s) (x : Ic) : a.EvseqKept { s with ic := x } := ⟨h.seq, h.out⟩
theorem pw (h : a.EvseqKept s) (x : Pw) : a.EvseqKept { s with pw := x } := ⟨h.seq, h.out⟩
theorem lanes (h : a.EvseqKept s) (x : Tab Lane) : a.EvseqKept { s with lanes := x } := ⟨h.seq, h.out⟩
theorem belay (h : a.EvseqKept s) (x : Belay) : a.EvseqKept { s with belay := x } := ⟨h.seq, h.out⟩
theorem pr (h : a.EvseqKept s) (x : Pr) : a.EvseqKept { s with pr := x } := ⟨h.seq, h.out⟩
theorem ge (h : a.EvseqKept s) (x : Ge) : a.EvseqKept { s with ge := x } := ⟨h.seq, h.out⟩
theorem rows (h : a.EvseqKept s) (x : Tab Nat) : a.EvseqKept { s with rows := x } := ⟨h.seq, h.out⟩
theorem allocHolds (h : a.EvseqKept s) (x : List (Nat × Nat × Nat × Nat)) : a.EvseqKept { s with allocHolds := x } := ⟨h.seq, h.out⟩
theorem cl (h : a.EvseqKept s) (x : Cl) : a.EvseqKept { s with cl := x } := ⟨h.seq, h.out⟩
theorem qs (h : a.EvseqKept s) (x : Qs) : a.EvseqKept { s with qs := x } := ⟨h.seq, h.out⟩
theorem bm (h : a.EvseqKept s) (x : Bm) : a.EvseqKept { s with bm := x } := ⟨h.seq, h.out⟩
theorem hd (h : a.EvseqKept s) (x : Hd) : a.EvseqKept { s with hd := x } := ⟨h.seq, h.out⟩
theorem imh (h : a.EvseqKept s) (x : Imhus) : a.EvseqKept { s with imh := x } := ⟨h.seq, h.out⟩
theorem evu (h : a.EvseqKept s) {x : Evu} (hx : x.seq = s.evu.seq) : a.EvseqKept { s with evu := x } := ⟨hx.trans h.seq, h.out⟩
theorem glbPr (h : a.EvseqKept s) (x : Glb) (y : Pr) : a.EvseqKept { s with glb := x, pr := y } := ⟨h.seq, h.out⟩
theorem glbPw (h : a.EvseqKept s) (x : Glb) (y : Pw) : a.EvseqKept { s with glb := x, pw := y } := ⟨h.seq, h.out⟩

theorem wr (h : a.EvseqKept s) (f : Fld) (v i : Nat) : a.EvseqKept (s.wr f v i) := h.rf _
theorem setPort (h : a.EvseqKept s) (p : Nat) (x : TpPort) : a.EvseqKept (s.setPort p x) := ⟨h.seq, h.out⟩
theorem setRx (h : a.EvseqKept s) (p : Nat) (x : UbPort) : a.EvseqKept (s.setRx p x) := ⟨h.seq, h.out⟩
theorem setCtx (h : a.EvseqKept s) (t : Nat) (x : Ctx) : a.EvseqKept (s.setCtx t x) := ⟨h.seq, h.out⟩
theorem setAlloc (h : a.EvseqKept s) (i : Nat) (x : Alloc) : a.EvseqKept (s.setAlloc i x) := ⟨h.seq, h.out⟩
theorem setActTree (h : a.EvseqKept s) (p : Nat) (x : ActTree) : a.EvseqKept (s.setActTree p x) := ⟨h.seq, h.out⟩
theorem setLane (h : a.EvseqKept s) (l : Nat) (x : Lane) : a.EvseqKept (s.setLane l x) := h.lanes _
theorem setGen (h : a.EvseqKept s) (o : GenObj) (g : Gen) : a.EvseqKept (s.setGen o g) := h.gens _
theorem stage (h : a.EvseqKept s) (o : GenObj) : a.EvseqKept (s.stage o) := h.setGen o _

/-! ### Control: branches, folds, commands that Imhus gives -/

theorem ite {c : Prop} [Decidable c] {t u : State} (ht : a.EvseqKept t) (hu : a.EvseqKept u) : a.EvseqKept (if c then t else u) := by
  split
  · exact ht
  · exact hu

/-- A branch between two operations that answer more than a state. -/
theorem iteFst {α : Type} {c : Prop} [Decidable c] {t u : State × α} (ht : a.EvseqKept t.1) (hu : a.EvseqKept u.1) :
    a.EvseqKept (if c then t else u).1 := by
  split
  · exact ht
  · exact hu

/-- The state of an answer taken apart. -/
theorem ofEq {α : Type} {p : State × α} {t : State} {x : α} (h : a.EvseqKept p.1) (e : p = (t, x)) : a.EvseqKept t := by
  subst e
  exact h

theorem foldl {α : Type} {f : State → α → State} {l : List α} (h : a.EvseqKept s) (hf : ∀ u x, a.EvseqKept u → a.EvseqKept (f u x)) :
    a.EvseqKept (l.foldl f s) := List.foldlRecOn l f h fun u hu x _ => hf u x hu

theorem each {n : Nat} {f : State → Nat → State} (h : a.EvseqKept s) (hf : ∀ u i, a.EvseqKept u → a.EvseqKept (f u i)) :
    a.EvseqKept (State.each n f s) := h.foldl hf

theorem when {b : Bool} {f : State → State} (h : a.EvseqKept s) (hf : ∀ u, a.EvseqKept u → a.EvseqKept (f u)) :
    a.EvseqKept (s.when b f) := .ite (hf s h) h

/-- A command that acts through act keeps what its change keeps. -/
theorem doing {f : State → Res} {g : State → State} (h : a.EvseqKept s) (hf : f s = Sys2Proof.Machine.act s g)
    (hg : ∀ u, a.EvseqKept u → a.EvseqKept (g u)) : a.EvseqKept (s.doing f) := by
  simp only [State.doing, hf]
  exact .ite h ⟨(hg s h).seq, (hg s h).out⟩

/-! ### What leaves, occurrences, events -/

theorem emit (h : a.EvseqKept s) (o : Out) : a.EvseqKept (s.emit o) := ⟨h.seq, h.out.trans (List.suffix_cons o s.out)⟩

theorem count (h : a.EvseqKept s) (b c i n : Nat) (t : Option Nat) : a.EvseqKept (s.count b c i n t) :=
  ⟨by simpa using h.seq, by simpa using h.out⟩

theorem raiseAfter (h : a.EvseqKept s) (k : Option Nat) (b i c x : Nat) (w : Bool) : a.EvseqKept (s.raiseAfter k b i c x w) := by
  refine .ite (.count (.evu h ?_) ..) (.evu h ?_) <;> rfl

theorem raise (h : a.EvseqKept s) (b i c x : Nat) : a.EvseqKept (s.raise b i c x) := h.raiseAfter ..

/-! ### The interrupt collector -/

theorem msixSend (h : a.EvseqKept s) (v : Nat) : a.EvseqKept (s.msixSend v) := .ite (h.emit _) (.ite (h.hd _) (h.hd _))

theorem icMsix (h : a.EvseqKept s) (t : Nat) : a.EvseqKept (s.icMsix t) := .ite h (h.msixSend _)

theorem icEdge (h : a.EvseqKept s) (was : State) (ts : List Nat) : a.EvseqKept (was.icEdge s ts) :=
  .foldl h fun _ _ hu => .ite (hu.icMsix _) hu

theorem icClaim (h : a.EvseqKept s) (t src : Nat) : a.EvseqKept (s.icClaim t src) := (h.ic _).count ..

theorem icEnter (h : a.EvseqKept s) (t : Nat) : a.EvseqKept (s.icEnter t) := by
  unfold State.icEnter
  refine .ite h ?_
  split
  · exact h
  · exact ((h.icClaim ..).ic _).emit _

theorem icPreempt (h : a.EvseqKept s) (src : Nat) : a.EvseqKept (s.icPreempt src) := by
  unfold State.icPreempt
  dsimp only
  split
  · exact .ite ((h.ic _).icEnter _) h
  · exact h

theorem icPend (h : a.EvseqKept s) (src : Nat) : a.EvseqKept (s.icPend src) :=
  .ite (h.ic _) (.icEdge (.icPreempt (h.ic _) _) ..)

/-! ### Lanes and rope ports at a move of the device -/

theorem lineFrom (h : a.EvseqKept s) (was : State) (l : Nat) : a.EvseqKept (s.lineFrom was l) := .ite h (h.emit _)

theorem checkerOff (h : a.EvseqKept s) (l : Nat) : a.EvseqKept (s.checkerOff l) := .ite ((h.wr ..).setLane ..) h

theorem clearLaneTests (h : a.EvseqKept s) : a.EvseqKept s.clearLaneTests :=
  .foldl (.rf (.foldl h fun _ _ hu => hu.checkerOff _) _) fun _ _ hu => hu.lineFrom ..

theorem trainLane (h : a.EvseqKept s) (l : Nat) : a.EvseqKept (s.trainLane l) :=
  .ite (h.setLane ..) (.pr (.ite (h.setLane ..) (((h.setLane ..).emit _).pr _)) _)

theorem ropesTrain (h : a.EvseqKept s) : a.EvseqKept s.ropesTrain :=
  .each h fun _ _ hu => .ite (.lineFrom ((hu.setLane ..).trainLane _) ..) hu

theorem elect (h : a.EvseqKept s) : a.EvseqKept s.elect :=
  .ite (h.pr _) (.when (.when (h.pr _) fun _ hu => hu.raise ..) fun _ hu => hu.raise ..)

theorem loseProtection (h : a.EvseqKept s) (cause : Nat) : a.EvseqKept (s.loseProtection cause) := .ite h ((h.pr _).raiseAfter ..)

theorem setSync (h : a.EvseqKept s) (n : Nat) : a.EvseqKept (s.setSync n) :=
  have hs := (h.pr _).raiseAfter ..
  .ite h (.ite (.ite ((hs.pr _).raise ..) hs) hs)

theorem ropeFell (h : a.EvseqKept s) (p : Nat) : a.EvseqKept (s.ropeFell p) :=
  have he := (h.pr _).elect
  .ite he (((he.pr _).setSync _).loseProtection _)

theorem ropesIdle (h : a.EvseqKept s) : a.EvseqKept s.ropesIdle :=
  .each (.each (h.lanes _) fun _ _ hu => hu.lineFrom ..) fun _ _ hu => .ite hu (.ite (((hu.pr _).raise ..).ropeFell _) (hu.pr _))

/-! ### Moves of the device state -/

theorem refuse (h : a.EvseqKept s) (target status : Nat) : a.EvseqKept (s.refuse target status) := (h.wr ..).raise ..

theorem modeEvent (h : a.EvseqKept s) : a.EvseqKept s.modeEvent := h.raise ..

theorem dropAlign (h : a.EvseqKept s) : a.EvseqKept s.dropAlign := .ite ((h.ts _).wr ..) h

theorem belayUpdate (h : a.EvseqKept s) : a.EvseqKept s.belayUpdate := h.belay _

theorem moved (h : a.EvseqKept s) (dst : Dev) (status : Option Nat) : a.EvseqKept (s.moved dst status) := by
  unfold State.moved
  refine .belayUpdate (.raise (.when (.ite (.dropAlign ?_) ?_) fun _ hu => hu.imh _) ..) <;> cases status
  · exact h.glb _
  · exact (h.glb _).wr ..
  · exact h.glb _
  · exact (h.glb _).wr ..

theorem leaveMode (h : a.EvseqKept s) : a.EvseqKept s.leaveMode :=
  have hw := (h.glbPr ..).wr ..
  .ite hw.modeEvent hw

theorem toSafe (h : a.EvseqKept s) (cause : Nat) (request : Bool) : a.EvseqKept (s.toSafe cause request) :=
  .ite h (((((h.pw _).wr ..).wr ..).moved ..).leaveMode.icPend _)

theorem enterRun (h : a.EvseqKept s) : a.EvseqKept s.enterRun :=
  have hm := ((h.clearLaneTests.glbPr ..).ropesTrain.moved ..).modeEvent
  .ite ((hm.raise ..).icPend _) hm

theorem toBivouac (h : a.EvseqKept s) : a.EvseqKept s.toBivouac :=
  have hi := h.ropesIdle.wr ..
  .ite (hi.moved ..) (.ite ((hi.moved ..).raise ..) (hi.glbPw ..))

theorem fromBivouac (h : a.EvseqKept s) : a.EvseqKept s.fromBivouac :=
  have ht := h.ropesTrain.wr ..
  .ite (ht.glbPw ..) (ht.moved ..)

theorem accept (h : a.EvseqKept s) (dst : Dev) : a.EvseqKept (s.accept dst) := by
  unfold State.accept
  split
  · exact h.enterRun
  · exact h.toBivouac
  · exact h.fromBivouac
  · exact h.glb _
  · exact h.glb _
  · exact h.toSafe ..
  · exact h.moved ..

theorem request (h : a.EvseqKept s) (r : Requester) (dst : Dev) : a.EvseqKept (s.request r dst) := by
  unfold State.request
  refine .ite h ?_
  split
  · exact h.refuse ..
  · exact h.accept _

theorem ring (h : a.EvseqKept s) (src : Nat) : a.EvseqKept (s.ring src) := by
  have hp := h.icPend src
  unfold State.ring
  dsimp only
  split
  · exact .ite ((hp.raise ..).request ..) hp
  · exact hp

/-! ### The event rings -/

theorem setRing (h : a.EvseqKept s) (r : Nat) (x : Ring) : a.EvseqKept (s.setRing r x) := h.hd _

theorem setChan (h : a.EvseqKept s) (c : Nat) (x : Dma) : a.EvseqKept (s.setChan c x) := h.hd _

theorem chanStart (h : a.EvseqKept s) (c : Nat) : a.EvseqKept (s.chanStart c) := by
  unfold State.chanStart
  refine .ite h ?_
  split
  · exact .when h fun _ hu => hu.setChan ..
  · exact .ite ((h.setRing ..).setChan ..) (.ite h ((h.emit _).setChan ..))

theorem ringLoss (h : a.EvseqKept s) (r : Nat) : a.EvseqKept (s.ringLoss r) := .ite h (h.setRing ..)

theorem ringEvent (h : a.EvseqKept s) (seq block inst code arg stamp : Nat) :
    a.EvseqKept (s.ringEvent seq block inst code arg stamp) :=
  .foldl h fun _ _ hu =>
    have hl := hu.ringLoss _
    .ite ((hl.setRing ..).wr ..) ((hl.setRing ..).chanStart _)

/-! ### Cairns -/

theorem ropeFrames (h : a.EvseqKept s) (p : Nat) (syms : List Nat) : a.EvseqKept (s.ropeFrames p syms) :=
  .ite h ⟨h.seq, h.out.trans (List.suffix_append ..)⟩

theorem cairnOut (h : a.EvseqKept s) (cn evseq : Nat) (c : Cairn) : a.EvseqKept (s.cairnOut cn evseq c) := by
  unfold State.cairnOut
  dsimp only
  split
  · exact h.emit _
  · exact (h.emit _).ropeFrames ..

theorem sendCairn (h : a.EvseqKept s) (c : Cairn) : a.EvseqKept (s.sendCairn c) := .ite (((h.pr _).cairnOut ..).count ..) h

theorem mirror (h : a.EvseqKept s) (r : Requester) (ws : List (Nat × Nat)) (x : Option Nat) (n : Nat) :
    a.EvseqKept (s.mirror r ws x n) := .ite h (h.sendCairn _)

theorem ropeSend (h : a.EvseqKept s) (p kind : Nat) (body : List Nat) : a.EvseqKept (s.ropeSend p kind body) :=
  .ite ((h.emit _).ropeFrames ..) h

theorem registryNote (h : a.EvseqKept s) (sn : Nat) (bound : Bool) : a.EvseqKept (s.registryNote sn bound) :=
  .ite ((h.ropeSend ..).ropeSend ..) h

/-! ### The classifier's commands -/

theorem clResult (h : a.EvseqKept s) (n : Nat) : a.EvseqKept (s.clResult n) := h.wr ..

theorem clArg (h : a.EvseqKept s) (occ live staged : Bool) (tenant : Nat) : a.EvseqKept (s.clArg occ live staged tenant) :=
  (((h.wr ..).wr ..).wr ..).wr ..

theorem clShow (h : a.EvseqKept s) (f : Fld) (n : Nat) (ws : List Nat) : a.EvseqKept (s.clShow f n ws) :=
  .each h fun _ _ hu => (hu.wr ..).wr ..

theorem clFound (h : a.EvseqKept s) (i : Nat) (x : Slot) : a.EvseqKept (s.clFound i x) := (h.wr ..).clArg ..

theorem clCmd {f : State → State × Nat} (h : a.EvseqKept s) (hf : ∀ u, a.EvseqKept u → a.EvseqKept (f u).1) (r : Requester)
    (op kind tbl : Nat) : a.EvseqKept (s.clCmd r op kind tbl f) := by
  have hr := (hf s h).clResult (f s).2
  unfold State.clCmd
  refine .ite h (.ite ?_ (.ite (h.clResult 1) (.ite (h.clResult 7) (.ite (hr.mirror ..) hr))))
  split
  · exact h
  · exact h.clResult 6

theorem clExact {f : State → State × Nat} (h : a.EvseqKept s) (hf : ∀ u, a.EvseqKept u → a.EvseqKept (f u).1) (r : Requester)
    (op kind tbl : Nat) : a.EvseqKept (s.clExact r op kind tbl f) := .ite ((h.cl _).wr ..) (h.clCmd hf ..)

theorem ternPut (h : a.EvseqKept s) (i : Nat) (b : TBank) : a.EvseqKept (s.ternPut i b) := h.cl _

theorem clWriteTern (h : a.EvseqKept s) (tbl : Nat) : a.EvseqKept (s.clWriteTern tbl).1 :=
  have hs := (h.ternPut ..).stage .rules
  .iteFst h (.iteFst h (.ite hs (hs.ternPut ..)))

theorem clStore (h : a.EvseqKept s) (kind row : Nat) (ws : List Nat) : a.EvseqKept (s.clStore kind row ws) := h.rows _

theorem doing_execClWrite (h : a.EvseqKept s) (r : Requester) (kind tbl : BitVec 4) :
    a.EvseqKept (s.doing (execClWrite r kind tbl)) := by
  refine .doing h rfl fun _ hu => .clCmd hu (fun _ hv => ?_) ..
  exact .iteFst (hv.clWriteTern _) (.iteFst hv (.iteFst hv (.ite (.clStore (hv.cl _) ..) (hv.clStore ..))))

theorem lineWritten (h : a.EvseqKept s) (l : Nat) : a.EvseqKept (s.lineWritten l) := .bm (.when h fun _ hu => hu.bm _) _

theorem setSlot (h : a.EvseqKept s) (i : Nat) (x : Option Slot) : a.EvseqKept (s.setSlot i x) := .ite (h.cl _) ((h.cl _).lineWritten _)

theorem exactCmd {f : List Nat → Nat → State × Nat} (h : a.EvseqKept s) (hf : ∀ key t, a.EvseqKept (f key t).1) (tbl : Nat) :
    a.EvseqKept (s.exactCmd tbl f).1 := .iteFst h (hf ..)

theorem clAddOp (h : a.EvseqKept s) (tbl : Nat) : a.EvseqKept (s.clAddOp tbl).1 := by
  refine .exactCmd h (fun _ _ => .iteFst h ?_) tbl
  dsimp only
  split
  · exact ((h.setSlot ..).stage _).clFound ..
  · split
    · exact h
    · exact .clFound (.stage (.setSlot (.foldl h fun _ _ hu => .ite (hu.setSlot ..) hu) ..) _) ..

theorem clDeleteOp (h : a.EvseqKept s) (tbl : Nat) : a.EvseqKept (s.clDeleteOp tbl).1 := by
  refine .exactCmd h (fun _ _ => .iteFst h ?_) tbl
  split
  · exact h
  · exact .iteFst ((((h.setSlot ..).stage _).wr ..).clArg ..) (((h.setSlot ..).stage _).clFound ..)

theorem doing_execClAdd (h : a.EvseqKept s) (r : Requester) (kind tbl : BitVec 4) : a.EvseqKept (s.doing (execClAdd r kind tbl)) :=
  .doing h rfl fun _ hu => hu.clExact (fun _ hv => hv.clAddOp _) ..

theorem doing_execClDelete (h : a.EvseqKept s) (r : Requester) (kind tbl : BitVec 4) : a.EvseqKept (s.doing (execClDelete r kind tbl)) :=
  .doing h rfl fun _ hu => hu.clExact (fun _ hv => hv.clDeleteOp _) ..

theorem commit (h : a.EvseqKept s) (o : GenObj) (authOk : Bool) : a.EvseqKept (s.commit o authOk).1 :=
  .iteFst (h.setGen ..) (.iteFst (h.setGen ..) (.iteFst (h.setGen ..) (h.setGen ..)))

theorem doing_execClRuleCommit (h : a.EvseqKept s) (r : Requester) (v : Word) : a.EvseqKept (s.doing (execClRuleCommit r v)) := by
  refine .doing h rfl fun u hu => .ite hu (.ite ?_ (.ite hu ?_))
  · split
    · exact hu
    · exact hu.clResult 6
  · have hc := hu.commit .rules true
    exact .mirror (.ite (hc.cl _) hc) ..

/-! ### The scheduler's commands -/

theorem setTag (h : a.EvseqKept s) (k : Nat) (x : Tag) : a.EvseqKept (s.setTag k x) := h.qs _

theorem refreshTags (h : a.EvseqKept s) (e : Nat) : a.EvseqKept (s.refreshTags e) :=
  .foldl (h.qs _) fun _ _ hu => .ite hu (hu.setTag ..)

theorem readyNote (h : a.EvseqKept s) (e : Nat) : a.EvseqKept (s.readyNote e) := .ite (h.qs _) h

theorem setQueue (h : a.EvseqKept s) (q : Nat) (x : Queue) : a.EvseqKept (s.setQueue q x) := h.qs _

theorem spillCheck (h : a.EvseqKept s) : a.EvseqKept s.spillCheck := .ite ((h.bm _).raise ..) (.ite ((h.bm _).raise ..) h)

theorem dropPkt (h : a.EvseqKept s) (k : Pkt) : a.EvseqKept (s.dropPkt k) := .when (h.bm _).spillCheck fun _ hu => hu.hd _

theorem qsDrop (h : a.EvseqKept s) (q : Nat) (k : Pkt) (cause : Nat) : a.EvseqKept (s.qsDrop q k cause) := (h.dropPkt k).count ..

theorem trimHeads (h : a.EvseqKept s) (q e : Nat) (l : List Pkt) : a.EvseqKept (s.trimHeads q e l) := by
  induction l generalizing s with
  | nil => exact h
  | cons k l ih => exact .ite h (.ite (h.setQueue ..) (ih ((((h.setQueue ..).qsDrop ..).wr ..).raise ..)))

theorem settle (h : a.EvseqKept s) (e : Nat) : a.EvseqKept (s.settle e) :=
  .readyNote (.refreshTags (.foldl h fun _ _ hu => hu.trimHeads ..) _) _

theorem settleAll (h : a.EvseqKept s) : a.EvseqKept s.settleAll := .foldl h fun _ _ hu => hu.settle _

theorem qsResult (h : a.EvseqKept s) (res row : Nat) : a.EvseqKept (s.qsResult res row) := (h.wr ..).wr ..

theorem qsCmd {f : State → State × Nat} (h : a.EvseqKept s) (hf : ∀ u, a.EvseqKept u → a.EvseqKept (f u).1) (r : Requester)
    (op t row : Nat) : a.EvseqKept (s.qsCmd r op t row f) := by
  have hr := (hf s h).qsResult (f s).2 row
  unfold State.qsCmd
  refine .ite h (.ite ?_ (.ite (h.wr ..) (.ite (h.qsResult 7 row) (.ite (h.qsResult 2 row) (.ite (hr.mirror ..) hr)))))
  split
  · exact h
  · exact h.wr ..

theorem qsStore (h : a.EvseqKept s) (t row : Nat) (ws : List Nat) : a.EvseqKept (s.qsStore t row ws) := h.qs _

theorem doing_execQsRowWrite (h : a.EvseqKept s) (r : Requester) (table : BitVec 4) (idx : BitVec 17) :
    a.EvseqKept (s.doing (execQsRowWrite r table idx)) := by
  refine .doing h rfl fun _ hu => .qsCmd hu (fun _ hv => ?_) ..
  dsimp only
  split
  · exact .iteFst hv (.iteFst hv ((hv.qsStore ..).stage _))
  · exact .iteFst hv (.iteFst hv (.iteFst hv (hv.qsStore ..).settleAll))

theorem setGate (h : a.EvseqKept s) (l : Nat) (g : Gate) : a.EvseqKept (s.setGate l g) := h.qs _

theorem qsCommit {f : State → State} (h : a.EvseqKept s) (hf : ∀ u, a.EvseqKept u → a.EvseqKept (f u)) (r : Requester) (v : Nat) :
    a.EvseqKept (s.qsCommit r v f) := by
  unfold State.qsCommit
  refine .ite h (.ite ?_ (.ite h (hf s h)))
  split
  · exact h
  · exact h.wr ..

theorem doing_execQsGateCommit (h : a.EvseqKept s) (r : Requester) (v : Word) : a.EvseqKept (s.doing (execQsGateCommit r v)) := by
  refine .doing h rfl fun _ hu => hu.qsCommit (fun _ hv => ?_) ..
  have hc := hv.commit .gates true
  exact .mirror (.ite (.settleAll (.each hc fun _ _ hw => hw.setGate ..)) hc) ..

/-! ### The commands of the allocation tables -/

theorem tblResult (h : a.EvseqKept s) (res idx : Nat) : a.EvseqKept (s.tblResult res idx) := (h.wr ..).wr ..

theorem dropHeld (h : a.EvseqKept s) : a.EvseqKept s.dropHeld := h.ge _

theorem tblData (h : a.EvseqKept s) (ws : List Nat) : a.EvseqKept (s.tblData ws) := .each h fun _ _ hu => hu.wr ..

theorem allocGone (h : a.EvseqKept s) (p i : Nat) : a.EvseqKept (s.allocGone p i) :=
  .foldl h fun _ _ hu => (hu.setPort ..).setRx ..

theorem freeAlloc (h : a.EvseqKept s) (i : Nat) : a.EvseqKept (s.freeAlloc i) :=
  (((h.setAlloc ..).allocGone ..).allocHolds _).sendCairn _

theorem doing_execAllocContextFree (h : a.EvseqKept s) (r : Requester) (table : BitVec 3) (upper : Bool) (idx : BitVec 16) :
    a.EvseqKept (s.doing (execAllocContextFree r table upper idx)) := by
  refine .doing h rfl fun _ hu => .ite hu (.ite ?_ (.ite (hu.wr ..) ?_))
  · split
    · exact hu
    · exact hu.wr ..
  · have hd := hu.dropHeld
    exact .ite (hd.tblResult ..) (.ite (hd.tblResult ..) (((hd.freeAlloc _).tblResult ..).mirror ..))

theorem doing_execGeTableWrite (h : a.EvseqKept s) (r : Requester) (table : BitVec 3) (upper : Bool) (idx : BitVec 16) :
    a.EvseqKept (s.doing (execGeTableWrite r table upper idx)) := by
  refine .doing h rfl fun _ hu => .ite hu (.ite ?_ (.ite (hu.wr ..) (.when ?_ fun _ hv => hv.mirror ..)))
  · split
    · exact hu
    · exact hu.wr ..
  · have hd := hu.dropHeld
    refine .iteFst (hd.tblResult ..) ?_
    split
    · exact .iteFst (hd.tblResult ..) ((hd.setCtx ..).tblResult ..)
    · exact .iteFst (hd.tblResult ..) ((hd.setAlloc ..).tblResult ..)
    · exact .iteFst (hd.tblResult ..) ((hd.ge _).tblResult ..)
    · exact hd.tblResult ..

theorem doing_execAllocContextAllocate (h : a.EvseqKept s) (r : Requester) (table : BitVec 3) (upper : Bool) :
    a.EvseqKept (s.doing (execAllocContextAllocate r table upper)) := by
  refine .doing h rfl fun _ hu => .ite hu (.ite ?_ (.ite (hu.wr ..) ?_))
  · split
    · exact hu
    · exact hu.wr ..
  · have hd := hu.dropHeld
    refine .ite (hd.tblResult ..) (.ite (hd.tblResult ..) (.ite (hd.tblResult ..) (.ite (hd.tblResult ..) ?_)))
    split
    · exact hd.tblResult ..
    · exact (((hd.setAlloc ..).tblResult ..).mirror ..).sendCairn _

/-! ### The commands of the terminal contexts -/

theorem ctxReply (h : a.EvseqKept s) (res t : Nat) : a.EvseqKept (s.ctxReply res t) :=
  (((((h.wr ..).wr ..).wr ..).wr ..).wr ..).wr ..

theorem ctxCmd {f : State → Nat → State × Nat × Option Nat} (h : a.EvseqKept s)
    (hf : ∀ u t, a.EvseqKept u → a.EvseqKept (f u t).1) (r : Requester) (op : Nat) : a.EvseqKept (s.ctxCmd r op f) := by
  have hs := hf s (s.rd F.GE_CTX_ARG_term) h
  unfold State.ctxCmd
  refine .ite h (.ite ?_ (.ite (h.wr ..) ?_))
  · split
    · exact h
    · exact h.wr ..
  · dsimp only
    split
    · exact hs.wr ..
    · exact .ite ((hs.ctxReply ..).mirror ..) (hs.ctxReply ..)

theorem ctxOp {f : State → Nat → State × Nat} (h : a.EvseqKept s) (hf : ∀ u t, a.EvseqKept u → a.EvseqKept (f u t).1)
    (r : Requester) (op : Nat) (ok : ActSt → Bool) : a.EvseqKept (s.ctxOp r op ok f) :=
  h.ctxCmd (fun u t hu => .iteFst hu (.iteFst hu (hf u t hu))) ..

theorem setActState (h : a.EvseqKept s) (t : Nat) (st : ActSt) : a.EvseqKept (s.setActState t st) :=
  ((h.setCtx ..).raise ..).sendCairn _

theorem doing_execContextAllocate (h : a.EvseqKept s) (r : Requester) (anyId : Bool) :
    a.EvseqKept (s.doing (execContextAllocate r anyId)) := by
  refine .doing h rfl fun _ hu => hu.ctxCmd (fun _ _ hv => .iteFst hv (.iteFst hv ?_)) ..
  split
  · exact hv
  · exact (hv.setCtx ..).setActState ..

theorem doing_execContextBind (h : a.EvseqKept s) (r : Requester) : a.EvseqKept (s.doing (execContextBind r)) := by
  refine .doing h rfl fun _ hu => hu.ctxOp (fun _ _ hv => ?_) ..
  dsimp only
  split
  · exact .iteFst hv hv
  · exact .iteFst (((hv.setCtx ..).registryNote ..).setActState ..) (((hv.setCtx ..).registryNote ..).sendCairn _)

theorem startRanging (h : a.EvseqKept s) (n t : Nat) : a.EvseqKept (s.startRanging n t) := .ite h (h.setActTree ..)

theorem endRanging (h : a.EvseqKept s) (n t : Nat) : a.EvseqKept (s.endRanging n t) := by
  unfold State.endRanging
  refine .ite h ?_
  dsimp only
  split
  · exact (h.setActTree ..).startRanging ..
  · exact h.setActTree ..

theorem doing_execContextDisable (h : a.EvseqKept s) (r : Requester) : a.EvseqKept (s.doing (execContextDisable r)) :=
  .doing h rfl fun _ hu => hu.ctxOp (fun _ _ hv => ((hv.setCtx ..).setActState ..).endRanging ..) ..

theorem sendPloam (h : a.EvseqKept s) (p : Nat) (m : Ploam) : a.EvseqKept (s.sendPloam p m) := .ite h (h.setPort ..)

theorem assign (h : a.EvseqKept s) (t : Nat) (x : Option (Nat × Nat)) : a.EvseqKept (s.assign t x) :=
  (((h.setCtx ..).sendPloam ..).setActState ..).startRanging ..

theorem doing_execActivateNow (h : a.EvseqKept s) (r : Requester) : a.EvseqKept (s.doing (execActivateNow r)) :=
  .doing h rfl fun _ hu => hu.ctxOp (fun _ _ hv => hv.assign ..) ..

/-! ### Imhus: bindings, provisioning, records -/

theorem imhBind (h : a.EvseqKept s) (b : Binding) : a.EvseqKept (s.imhBind b).1 :=
  have ha := (((((h.wr ..).wr ..).wr ..).wr ..).wr ..).doing_execContextAllocate ..
  have hb := ha.doing_execContextBind _
  .iteFst ha (.iteFst (by dsimp only; exact (hb.wr ..).mirror ..) hb)

theorem setOmci (h : a.EvseqKept s) (t : Nat) (x : Omci) : a.EvseqKept (s.setOmci t x) := .when (h.imh _) fun _ hu => hu.lineWritten _

theorem omciAsk (h : a.EvseqKept s) (t : Nat) (x : Omci) : a.EvseqKept (s.omciAsk t x) := by
  unfold State.omciAsk
  split
  · exact h.setOmci ..
  · exact (h.setOmci ..).emit _

theorem omciBegin (h : a.EvseqKept s) (t : Nat) (x : Omci) : a.EvseqKept (s.omciBegin t x) := by
  unfold State.omciBegin
  exact h.omciAsk ..

theorem provision (h : a.EvseqKept s) (t : Nat) : a.EvseqKept (s.provision t) := by
  unfold State.provision
  split
  · exact h
  · exact h.omciBegin ..

theorem ternStage (h : a.EvseqKept s) (tenant : Nat) (e : TernRow) (valid : Bool) : a.EvseqKept (s.ternStage tenant e valid) :=
  (((((h.wr ..).clArg ..).clShow ..).clShow ..).clShow ..).doing_execClWrite ..

theorem rowStage (h : a.EvseqKept s) (t row : Nat) (ws : List Nat) : a.EvseqKept (s.rowStage t row ws) :=
  .doing_execQsRowWrite (.foldl h fun _ _ hu => hu.wr ..) ..

theorem listStage (h : a.EvseqKept s) (f : Flow) : a.EvseqKept (s.listStage f) := .foldl (h.rowStage ..) fun _ _ hu => hu.rowStage ..

theorem flowStage (h : a.EvseqKept s) (tenant : Nat) (f : Flow) : a.EvseqKept (s.flowStage tenant f) :=
  .when (h.ternStage ..) fun _ hu => hu.listStage _

theorem flowsOf (h : a.EvseqKept s) (t tenant : Nat) (old body : List Nat) : a.EvseqKept (s.flowsOf t tenant old body) :=
  have ho := .foldl h fun _ _ hu => hu.ternStage ..
  .ite ho (.ternStage (.foldl ho fun _ _ hu => hu.flowStage ..) ..)

theorem xgemStage (h : a.EvseqKept s) (x : Nat) (ws : List Nat) : a.EvseqKept (s.xgemStage x ws) :=
  .doing_execClWrite (.foldl (h.wr ..) fun _ _ hu => hu.wr ..) ..

theorem classStage (h : a.EvseqKept s) (tenant : Nat) (e : Bool × TernRow) (valid : Bool) : a.EvseqKept (s.classStage tenant e valid) :=
  have hk := ((h.clArg ..).clShow ..).clShow ..
  .ite (h.ternStage ..) (.ite (hk.doing_execClAdd ..) (hk.doing_execClDelete ..))

theorem allocStage (h : a.EvseqKept s) (t : Nat) (ws : List Nat) : a.EvseqKept (s.allocStage t ws) := by
  unfold State.allocStage
  dsimp only
  split
  · exact (h.tblData _).doing_execGeTableWrite ..
  · exact (h.tblData _).doing_execAllocContextAllocate ..

theorem portsOut (h : a.EvseqKept s) (t tenant : Nat) (old body : List Nat) : a.EvseqKept (s.portsOut t tenant old body) := by
  unfold State.portsOut
  refine .foldl (.foldl (.foldl (.foldl h fun _ _ hu => ?_) fun _ _ hu => hu.xgemStage ..) fun _ _ hu => hu.rowStage ..)
    fun _ _ hu => hu.classStage ..
  split
  · exact hu.doing_execAllocContextFree ..
  · exact hu

theorem portsOf (h : a.EvseqKept s) (t tenant : Nat) (body : List Nat) : a.EvseqKept (s.portsOf t tenant body) :=
  .foldl (.foldl (.foldl (.foldl h fun _ _ hu => hu.allocStage ..) fun _ _ hu => hu.xgemStage ..) fun _ _ hu => hu.rowStage ..)
    fun _ _ hu => hu.classStage ..

theorem installOne (h : a.EvseqKept s) (t : Nat) : a.EvseqKept (s.installOne t) :=
  have hb := .when h fun _ hu => hu.omciBegin ..
  .ite hb (.setOmci (.when (.portsOf (.portsOut (.when hb fun _ hu => (hu.portsOut ..).flowsOf ..) ..) ..) fun _ hu => hu.flowsOf ..) ..)

/-- Installing what waits ends in two commits of rules and of gates, which are no commits of events. -/
theorem flowsGo (h : a.EvseqKept s) : a.EvseqKept s.flowsGo :=
  .ite h (.when (.when (.foldl (h.imh _) fun _ _ hu => hu.installOne _) fun _ hu => hu.doing_execClRuleCommit ..)
    fun _ hu => hu.doing_execQsGateCommit ..)

/-! ### Imhus: what it reads off an event -/

theorem rootAdd (h : a.EvseqKept s) (k : AlarmKind) (sc : AlarmScope) (seq : Nat) : a.EvseqKept (s.rootAdd k sc seq) := .ite h (h.imh _)

theorem powerCheck (h : a.EvseqKept s) (t seq : Nat) : a.EvseqKept (s.powerCheck t seq) := by
  unfold State.powerCheck
  split
  · exact .ite (h.rootAdd ..) h
  · exact h

theorem branchCheck (h : a.EvseqKept s) (t stamp seq : Nat) : a.EvseqKept (s.branchCheck t stamp seq) :=
  .ite (((h.imh _).imh _).rootAdd ..) (h.imh _)

theorem imhForgets (h : a.EvseqKept s) (t : Nat) : a.EvseqKept (s.imhForgets t) := .ite (h.setOmci ..) ((h.setOmci ..).imh _)

theorem imhFound (h : a.EvseqKept s) (n : Nat) : a.EvseqKept (s.imhFound n) := by
  refine .foldl h fun u e hu => .ite (.ite hu (hu.imh _)) ?_
  have ht := fun x => hu.setActTree n x
  dsimp only
  split
  · refine .ite hu ?_
    split
    next heq => exact (((ht _).imhBind _).ofEq heq).doing_execContextDisable _
    next heq => exact ((ht _).imhBind _).ofEq heq
  · split
    next heq => exact (((ht _).imhBind _).ofEq heq).doing_execActivateNow _
    next heq => exact ((ht _).imhBind _).ofEq heq

theorem imhReads (h : a.EvseqKept s) (seq block inst code arg stamp : Nat) :
    a.EvseqKept (s.imhReads seq block inst code arg stamp) := by
  unfold State.imhReads
  refine .ite h ?_
  dsimp only
  split
  · exact h.rootAdd ..
  · exact h.rootAdd ..
  · exact h.rootAdd ..
  · exact (h.rootAdd ..).powerCheck ..
  · exact h.rootAdd ..
  · exact h.rootAdd ..
  · exact h.rootAdd ..
  · exact h.rootAdd ..
  · exact h.rootAdd ..
  · exact .ite (h.imhFound _) h
  · split
    · exact .ite (h.provision _) h
    · exact h.branchCheck ..
    · exact h.imhForgets _
    · exact h
  · exact h

theorem imhEvent (h : a.EvseqKept s) (seq block inst code arg stamp : Nat) :
    a.EvseqKept (s.imhEvent seq block inst code arg stamp) := (h.imhReads ..).flowsGo

end State.EvseqKept

/-! ### The commit of an event -/

/-- The state in which an event's record has just left with the next EVSEQ, before anyone has taken notice of it. -/
def State.sequenced (s : State) (e : EvRec) : State :=
  { s with evu := { s.evu with seq := (s.evu.seq + 1) % 2 ^ 32, wait := s.evu.wait.filter (fun w => w.ord != e.ord) } }.emit
    (.event ((s.evu.seq + 1) % 2 ^ 32) e.block e.inst e.code e.arg e.stamp)

/-- A commit takes one EVSEQ: what follows its record takes no other. -/
theorem State.evseqKept_commitEvent (s : State) (e : EvRec) : (s.sequenced e).EvseqKept (s.commitEvent e) :=
  have hc := (EvseqKept.refl (s.sequenced e)).count 0 1 0 1 none
  .imhEvent (.ringEvent (.when (.ite (hc.ts _) hc) fun _ hu => hu.ring _) ..) ..

theorem exec_eventCommit_commits {s : State} {b : Fin 15} {i : BitVec 11} {e : EvRec} (h : s.Powered)
    (hn : s.nextEvent b i.toNat = some e) (hm : s.mayCommit e = true) :
    exec (.eventCommit b i) s = .next (s.afterCmd (s.commitEvent e)) := by
  change execEventCommit b i s = _
  simp [execEventCommit, act, h.1, hn, hm]

/-- Settles O13: the record leaves with the next EVSEQ, and nothing that the commit sets going commits an event of its own. -/
theorem evseqRisesByOneForEachCommittedEvent : Obligations.EvseqRisesByOneForEachCommittedEvent := by
  unfold Obligations.EvseqRisesByOneForEachCommittedEvent
  intro s b i e hp hn hm
  have hk := s.evseqKept_commitEvent e
  exact ⟨_, exec_eventCommit_commits hp hn hm, hk.seq, hk.out.subset List.mem_cons_self⟩

end Sys2Proof.Machine
end
